-- ==== Sys2Proof/Word.lean ====
section
/-! DEFINITION. The word types of the Renyth (R2, R5): bytes, 16-, 32- and 64-bit words, a 57-bit
virtual address (R82), and the type of the sparse tables the state is built from. -/

namespace Sys2Proof

/-- One byte. -/
abbrev Byte := BitVec 8
/-- A 32-bit register or instruction word. -/
abbrev Word := BitVec 32
/-- A 64-bit register pair, with the low half in the even register (R30, R102). -/
abbrev DWord := BitVec 64
/-- A virtual address (R82). -/
abbrev VAddr := BitVec 57

/-- A sparse table with natural keys: entries in strictly rising key order. -/
abbrev SMap (α : Type) := List (Nat × α)

end Sys2Proof
end

