-- ==== Sys2Proof/Machine/Num.lean ====
section
/-! DEFINITION. Numbers: the floating-point element formats (R31 to R33), the one rounding from an exact
value to a format with its flags (R38 to R44), conversion to integers (R45), exact quotients and square
roots, and the orders of R59 and R190. An exact finite value is a sign, a natural mantissa and a power of
two, so every rounding is decided on exact integers. -/

namespace Sys2Proof.Machine

/-- The five exception flags in their FPM places: NV 4, DZ 3, OF 2, UF 1, NX 0 (Table 2.4). -/
abbrev FFlags := BitVec 5
/-- Invalid operation. -/
def flagNV : FFlags := 16
/-- Division by zero. -/
def flagDZ : FFlags := 8
/-- Overflow. -/
def flagOF : FFlags := 4
/-- Underflow. -/
def flagUF : FFlags := 2
/-- Inexact. -/
def flagNX : FFlags := 1

/-- A rounding mode (Table 2.3). -/
inductive RMode where
  | rne
  | rtz
  | rup
  | rdn
  | rna
  | sr
  deriving DecidableEq, Repr

/-- How a format uses its highest exponent field (Table 2.1). -/
inductive FmtStyle where
  | ieee
  | e4m3
  | allFinite
  deriving DecidableEq, Repr

/-- A floating-point element format: exponent bits, mantissa bits, bias, and its specials. -/
structure Fmt where
  eb : Nat
  mb : Nat
  bias : Nat
  style : FmtStyle
  deriving DecidableEq, Repr

/-- binary64. -/
def fmtF64 : Fmt := ⟨11, 52, 1023, .ieee⟩
/-- binary32. -/
def fmtF32 : Fmt := ⟨8, 23, 127, .ieee⟩
/-- binary16. -/
def fmtF16 : Fmt := ⟨5, 10, 15, .ieee⟩
/-- BF16. -/
def fmtBF16 : Fmt := ⟨8, 7, 127, .ieee⟩
/-- FP8 E4M3. -/
def fmtE4M3 : Fmt := ⟨4, 3, 7, .e4m3⟩
/-- FP8 E5M2. -/
def fmtE5M2 : Fmt := ⟨5, 2, 15, .ieee⟩
/-- FP4 E2M1. -/
def fmtE2M1 : Fmt := ⟨2, 1, 1, .allFinite⟩
/-- The unsigned block scale E3M5 (its sign bit is never set here). -/
def fmtE3M5 : Fmt := ⟨3, 5, 3, .allFinite⟩

/-- The bit of the sign. -/
def Fmt.signBit (f : Fmt) : Nat := 2 ^ (f.eb + f.mb)
/-- The magnitude bits of the maximum finite value. -/
def Fmt.maxBits (f : Fmt) : Nat :=
  match f.style with
  | .ieee => (2 ^ f.eb - 1) * 2 ^ f.mb - 1
  | .e4m3 => 2 ^ (f.eb + f.mb) - 2
  | .allFinite => 2 ^ (f.eb + f.mb) - 1
/-- The canonical NaN (Table 2.2), and +0 for a format without NaNs (R44). -/
def Fmt.qnan (f : Fmt) : Nat :=
  match f.style with
  | .ieee => (2 ^ f.eb - 1) * 2 ^ f.mb + 2 ^ (f.mb - 1)
  | .e4m3 => 2 ^ (f.eb + f.mb) - 1
  | .allFinite => 0
/-- The magnitude bits of an infinity of an IEEE format. -/
def Fmt.infBits (f : Fmt) : Nat := (2 ^ f.eb - 1) * 2 ^ f.mb
/-- The weight of the lowest mantissa bit of a subnormal. -/
def Fmt.minExp (f : Fmt) : Int := 1 - (f.bias : Int) - f.mb

/-- A value: a NaN, an infinity, or ± m × 2^e exactly. -/
inductive Num where
  | nan (signalling : Bool)
  | inf (neg : Bool)
  | fin (neg : Bool) (m : Nat) (e : Int)
  deriving DecidableEq, Repr

/-- The value of a bit pattern (R32, R33). Bits above the format are not read. -/
def Fmt.value (f : Fmt) (bits : Nat) : Num :=
  let neg := bits.testBit (f.eb + f.mb)
  let ef := (bits / 2 ^ f.mb) % 2 ^ f.eb
  let mf := bits % 2 ^ f.mb
  if f.style = .ieee ∧ ef = 2 ^ f.eb - 1 then
    if mf = 0 then .inf neg else .nan (!mf.testBit (f.mb - 1))
  else if f.style = .e4m3 ∧ ef = 2 ^ f.eb - 1 ∧ mf = 2 ^ f.mb - 1 then .nan false
  else if ef = 0 then .fin neg mf f.minExp
  else .fin neg (mf + 2 ^ f.mb) (f.minExp + (ef - 1 : Nat))

/-- Whether the value is a NaN. -/
def Num.isNan : Num → Bool
  | .nan _ => true
  | _ => false
/-- Whether the value is a signalling NaN. -/
def Num.isSnan : Num → Bool
  | .nan sg => sg
  | _ => false
/-- Whether the value is a zero of either sign. -/
def Num.isZero : Num → Bool
  | .fin _ m _ => m == 0
  | _ => false
/-- Whether the value is an infinity. -/
def Num.isInf : Num → Bool
  | .inf _ => true
  | _ => false

/-- Shifts right by `sh` and rounds by the mode; the second part tells whether it was inexact. `r24` are
the 24 random bits of a stochastic rounding (R40). -/
def roundShift (mode : RMode) (r24 : Nat) (neg : Bool) (m sh : Nat) : Nat × Bool :=
  let k := m / 2 ^ sh
  let rem := m % 2 ^ sh
  if rem = 0 then (k, false)
  else
    let up : Bool :=
      match mode with
      | .rne => decide (2 ^ sh < 2 * rem) || (decide (2 * rem = 2 ^ sh) && decide (k % 2 = 1))
      | .rtz => false
      | .rup => !neg
      | .rdn => neg
      | .rna => decide (2 ^ sh ≤ 2 * rem)
      | .sr => decide (2 ^ 24 ≤ rem * 2 ^ 24 / 2 ^ sh + r24)
    (if up then k + 1 else k, true)

/-- m × 2^e rounded to a multiple of 2^q. -/
def roundAt (mode : RMode) (r24 : Nat) (neg : Bool) (m : Nat) (e q : Int) : Nat × Bool :=
  if q ≤ e then (m * 2 ^ (e - q).toNat, false) else roundShift mode r24 neg m (q - e).toNat

/-- The result of a finite overflow (R43, Table 2.5). -/
def Fmt.overflow (f : Fmt) (mode : RMode) (satn neg : Bool) : Nat × FFlags :=
  let sign := if neg then f.signBit else 0
  let toInf : Bool :=
    match mode with
    | .rne | .rna | .sr => true
    | .rtz => false
    | .rup => !neg
    | .rdn => neg
  let bits :=
    if satn ∨ f.style = .allFinite ∨ !toInf then sign + f.maxBits
    else if f.style = .e4m3 then f.qnan
    else sign + f.infBits
  (bits, flagOF ||| flagNX)

/-- The exact value ± m × 2^e rounded once into a format (R32, R40, R42, R43): its bits and the flags OF,
UF and NX. Underflow is tininess after rounding with an unbounded exponent range, and inexactness. -/
def Fmt.round (f : Fmt) (mode : RMode) (r24 : Nat) (satn neg : Bool) (m : Nat) (e : Int) : Nat × FFlags :=
  let sign := if neg then f.signBit else 0
  if m = 0 then (sign, 0)
  else
    let top : Int := e + (m.log2 : Nat)
    let emin : Int := f.minExp + f.mb
    let q : Int := max top emin - f.mb
    let (k, inexact) := roundAt mode r24 neg m e q
    let mag := (q - f.minExp).toNat * 2 ^ f.mb + k
    let above : Bool :=
      if mode = .sr then
        let (k', x') := roundAt .rtz 0 neg m e q
        let mag' := (q - f.minExp).toNat * 2 ^ f.mb + k'
        decide (f.maxBits < mag') || (decide (mag' = f.maxBits) && x')
      else decide (f.maxBits < mag)
    if above then f.overflow mode satn neg
    else
      let tiny : Bool :=
        decide (top < emin) && decide ((roundAt mode r24 neg m e (top - f.mb)).1 < 2 ^ (emin - top + f.mb).toNat)
      (sign + mag, if inexact then (if tiny then flagUF ||| flagNX else flagNX) else 0)

/-- A value converted to a format: rounding for a finite value, Table 2.5 for an infinity, R44 for a NaN. -/
def Fmt.convert (f : Fmt) (mode : RMode) (r24 : Nat) (satn : Bool) (x : Num) : Nat × FFlags :=
  match x with
  | .nan sg => (f.qnan, if f.style = .allFinite ∨ sg then flagNV else 0)
  | .inf neg =>
    let sign := if neg then f.signBit else 0
    match f.style with
    | .ieee => (sign + f.infBits, 0)
    | .e4m3 => (if satn then sign + f.maxBits else f.qnan, flagNV)
    | .allFinite => (sign + f.maxBits, flagNV)
  | .fin neg m e => f.round mode r24 satn neg m e

/-- The bits of an arithmetic result: rounded once, overflow by the IEEE rule (R186, R187). -/
def Fmt.result (f : Fmt) (mode : RMode) (x : Num) : Nat × FFlags := f.convert mode 0 false x

/-! ## Exact arithmetic -/

/-- ± m × 2^e as a multiple of 2^q, for q ≤ e. -/
def scaled (neg : Bool) (m : Nat) (e q : Int) : Int :=
  let v : Int := (m * 2 ^ (e - q).toNat : Nat)
  if neg then -v else v

/-- The exact sum of two finite values, with the sign of a zero sum by IEEE 754 (R187). -/
def addFin (mode : RMode) (n1 : Bool) (m1 : Nat) (e1 : Int) (n2 : Bool) (m2 : Nat) (e2 : Int) : Num :=
  let q := min e1 e2
  let v := scaled n1 m1 e1 q + scaled n2 m2 e2 q
  if v = 0 then .fin (if n1 = n2 then n1 else decide (mode = .rdn)) 0 0
  else .fin (decide (v < 0)) v.natAbs q

/-- The sum of two values that are not NaN; `none` for ∞ − ∞. -/
def addNum (mode : RMode) (x y : Num) : Option Num :=
  match x, y with
  | .inf a, .inf b => if a = b then some x else none
  | .inf _, _ => some x
  | _, .inf _ => some y
  | .fin n1 m1 e1, .fin n2 m2 e2 => some (addFin mode n1 m1 e1 n2 m2 e2)
  | _, _ => none

/-- The sign of a value. -/
def Num.neg? : Num → Bool
  | .nan _ => false
  | .inf n => n
  | .fin n _ _ => n

/-- A value with its sign inverted. -/
def Num.negate : Num → Num
  | .nan sg => .nan sg
  | .inf n => .inf (!n)
  | .fin n m e => .fin (!n) m e

/-- The product of two values that are not NaN; `none` for 0 × ∞. -/
def mulNum (x y : Num) : Option Num :=
  match x, y with
  | .fin n1 m1 e1, .fin n2 m2 e2 => some (.fin (n1 != n2) (m1 * m2) (e1 + e2))
  | _, _ => if x.isZero || y.isZero then none else some (.inf (x.neg? != y.neg?))

/-- The operations of majors 0x14 to 0x17. -/
inductive FpOp where
  | add
  | sub
  | mul
  | fma
  deriving DecidableEq, Repr

/-- NV when some operand is a signalling NaN. -/
def nvIf (b : Bool) : FFlags := if b then flagNV else 0

/-- `fp_arith` of R187 on bit patterns; `c` is read by FMA only. -/
def fpArith (f : Fmt) (op : FpOp) (mode : RMode) (a b c : Nat) : Nat × FFlags :=
  let x := f.value a
  let y := f.value b
  let z := if op = .fma then f.value c else .fin false 0 0
  let nv := nvIf (x.isSnan || y.isSnan || z.isSnan)
  let bad := (f.qnan, nv ||| flagNV)
  let zeroInf := (x.isZero && y.isInf) || (x.isInf && y.isZero)
  if op = .fma ∧ zeroInf then bad
  else if x.isNan || y.isNan || z.isNan then (f.qnan, nv)
  else
    let exact : Option Num :=
      match op with
      | .add => addNum mode x y
      | .sub => addNum mode x y.negate
      | .mul => mulNum x y
      | .fma => (mulNum x y).bind fun p => addNum mode p z
    match exact with
    | none => bad
    | some v => f.result mode v

/-- A natural as a value. -/
def Num.ofNat (n : Nat) : Num := .fin false n 0
/-- An integer as a value; 0 is +0. -/
def Num.ofInt (n : Int) : Num := .fin (decide (n < 0)) n.natAbs 0

/-- Conversion to an integer of `w` bits (R45): the result as an integer, and the flags. -/
def toInteger (signed : Bool) (w : Nat) (mode : RMode) (x : Num) : Int × FFlags :=
  let lo : Int := if signed then -(2 ^ (w - 1) : Nat) else 0
  let hi : Int := if signed then ((2 ^ (w - 1) : Nat) : Int) - 1 else ((2 ^ w : Nat) : Int) - 1
  match x with
  | .nan _ => (0, flagNV)
  | .inf neg => (if neg then lo else hi, flagNV)
  | .fin neg m e =>
    let (k, inexact) := roundAt mode 0 neg m e 0
    let v : Int := if neg then -(k : Int) else k
    if v < lo then (lo, flagNV)
    else if hi < v then (hi, flagNV)
    else (v, if inexact then flagNX else 0)

/-- The quotient ± num / den × 2^e as an exact value for every rounding: 80 bits and a place more than the
mantissa of any format, and a last bit that is set when the division left a remainder. -/
def quotient (neg : Bool) (num den : Nat) (e : Int) : Num :=
  let k := 80 + 64 + den.log2
  let n := num * 2 ^ k
  .fin neg (2 * (n / den) + (if n % den = 0 then 0 else 1)) (e - k - 1)

/-- The integer square root, one bit a step from bit `fuel` down. -/
def isqrtFrom (n : Nat) : Nat → Nat → Nat
  | 0, r => if (r + 1) * (r + 1) ≤ n then r + 1 else r
  | k + 1, r =>
    let t := r + 2 ^ (k + 1)
    isqrtFrom n k (if t * t ≤ n then t else r)

/-- The integer square root. -/
def isqrt (n : Nat) : Nat := isqrtFrom n (n.log2 / 2) 0

/-- The square root of num / den × 2^e, with a last bit that is set when it is inexact. -/
def sqrtQuotient (num den : Nat) (e : Int) : Num :=
  -- √(num/den × 2^e) = √(num × den × 2^e) / den
  let par : Nat := (e % 2).toNat
  let k := 2 * (144 + den.log2)
  let n := num * den * 2 ^ (par + k)
  let r := isqrt n
  let h : Int := (e - par) / 2 - (k / 2 : Nat)
  let q := r / den
  .fin false (2 * q + (if r * r = n ∧ r % den = 0 then 0 else 1)) (h - 1)

/-! ## Orders -/

/-- The key of a pattern that is not a NaN in the order of R59: −∞ < … < −0 < +0 < … < +∞. -/
def Fmt.key (f : Fmt) (bits : Nat) : Int :=
  let mag : Nat := bits % f.signBit
  if bits.testBit (f.eb + f.mb) then -(mag : Int) - 1 else mag

/-- Numerical comparison of two values that are not NaN: −1, 0 or 1, with −0 equal to +0 (R190). -/
def cmpNum (x y : Num) : Int :=
  let sgn (v : Int) : Int := if v < 0 then -1 else if v = 0 then 0 else 1
  match x, y with
  | .inf a, .inf b => sgn ((if a then -1 else 1) - (if b then -1 else 1))
  | .inf a, _ => if a then -1 else 1
  | _, .inf b => if b then 1 else -1
  | .fin n1 m1 e1, .fin n2 m2 e2 =>
    let q := min e1 e2
    sgn (scaled n1 m1 e1 q - scaled n2 m2 e2 q)
  | _, _ => 0

/-! ## Rounding modes of an instruction -/

/-- The mode an rm3 value from 001 to 110 names (Table 2.3); 000 and 111 are RNE here and never asked. -/
def rmodeOf (rm3 : BitVec 3) : RMode :=
  match rm3.toNat with
  | 2 => .rtz
  | 3 => .rup
  | 4 => .rdn
  | 5 => .rna
  | 6 => .sr
  | _ => .rne

/-- `round_mode` of R186 after its traps: the field, replaced by a bound RND word, and FPM.RM for 000;
dynamic SR rounds RNE where SR is not admitted (R39). -/
def roundMode (rm3 : BitVec 3) (rnd : Option (BitVec 3)) (fpmRm : BitVec 3) (srAllowed : Bool) : RMode :=
  let m := rnd.getD rm3
  if m = 0 then (if fpmRm = 6 ∧ !srAllowed then .rne else rmodeOf fpmRm) else rmodeOf m

end Sys2Proof.Machine
end

