-- ==== Sys2Proof/Machine/Stipple.lean ====
section
/-! DEFINITION. The Stipple hash (R288) and the random bits of stochastic rounding (R291). -/

namespace Sys2Proof.Machine

/-- `mix64` (R288). -/
def mix64 (x : BitVec 64) : BitVec 64 :=
  let x1 := (x ^^^ (x >>> 31)) * 0xB54F29D16A3C9E47
  let x2 := (x1 ^^^ (x1 >>> 29)) * 0xD1C37A854E9B2F63
  x2 ^^^ (x2 >>> 32)

/-- `stipple64` (R288). -/
def stipple64 (seed : BitVec 128) (sv : BitVec 64) (u v : BitVec 32) : BitVec 64 :=
  let x1 := mix64 (seed.extractLsb' 0 64 ^^^ 0x5C2E91A73D04F86B)
  let x2 := mix64 (x1 ^^^ sv)
  mix64 (x2 ^^^ (u ++ v) ^^^ seed.extractLsb' 64 64)

/-- `stipple_sr24` (R291). -/
def stippleSr24 (seed : BitVec 128) (seedix pos grp lane mem : Nat) (addr : VAddr) (j : Nat) : Nat :=
  let x := stipple64 seed (BitVec.ofNat 32 seedix ++ BitVec.ofNat 32 pos) (BitVec.ofNat 32 (grp * 32 + lane)) (BitVec.ofNat 32 mem)
  ((mix64 (x ^^^ addr.setWidth 64 ^^^ BitVec.ofNat 64 (j * 2 ^ 58))).extractLsb' 40 24).toNat

end Sys2Proof.Machine
end

