-- ==== Sys2Proof/Syntax.lean ====
section
/-! DEFINITION. The syntax of the Turyden instruction set and of the events of the Renyth package:
one constructor of `Instr` per row of the opcode table. A constructor of an encoded row carries the
fields the table gives it, at their widths, under the table's field letters; an event row (a row without
an encoding) has no fields, and what an event is about stands beside it as an `EventArg`. -/

namespace Sys2Proof

/-- The unit an error is found in (R27, Tables 1.9 and 15.7): an SRAM of a core; a layer, or with 4 the vertical bus, of a
column; the L2 line of an address; a row or bank of an HBM4E stack, with the 64 KiB frames it holds; a stack reducer; a Scrim
port; a CXL link; another unit of a base die. -/
inductive FaultUnit where
  | coreSram (core : Nat) (what : BitVec 3)
  | column (core layer : Nat)
  | l2Line (addr : Nat)
  | hbm (stack : Nat) (frames : List Nat)
  | reducer (n : Nat)
  | scrimPort (n : Nat)
  | cxlLink (n : Nat)
  | baseDie (tower : Nat) (what : BitVec 3)
  deriving DecidableEq, Repr

/-- The header of a Lath frame (Table 22.6). -/
structure LathHdr where
  ty : BitVec 8
  rsv1 : BitVec 8 := 0
  seq : BitVec 16
  len : BitVec 16
  rsv2 : BitVec 16 := 0
  addr : BitVec 64 := 0
  deriving DecidableEq, Repr

/-- A Lath frame as it arrives (R430): its header, its payload, and the CRC-32C that follows them. -/
structure LathIn where
  hdr : LathHdr
  payload : List (BitVec 8) := []
  crc : BitVec 32
  deriving DecidableEq, Repr

/-- The outcomes of bring-up that the outside world and the silicon decide (R424, R434, R435): the strap, the units that fail
BIST, the stacks and links that train, and the cores whose array fails calibration. -/
structure BringUp where
  recov : Bool
  bistFail : List FaultUnit
  hbmUp : BitVec 12
  cxlUp : BitVec 8
  scrimUp : BitVec 48
  arrayFail : BitVec 64
  deriving DecidableEq, Repr

/-- A window reflection as a flit carries it (R340, R346). `serial` numbers the reflections a package
sends; `core` and `tx` name the flow; `offset` is the window offset o of R346. `stale` tells, of one that arrives
from another package, that it was in flight when EN of its receive entry was last cleared (R349). -/
structure Flit where
  serial : Nat
  dchip : BitVec 10
  schip : BitVec 10
  core : Nat
  tx : Nat
  rxIdx : Nat
  offset : Nat
  data : List (BitVec 8)
  stale : Bool := false
  deriving DecidableEq, Repr

/-- The header a fired chunk carries (R353). `listCrc` is the CRC-32C of the participant list;
`valid` tells whether the sender's own checks of R350 and R358 passed; `second` marks the one that an
ENS participant sends once it has checked its result area (R358). -/
structure CollHeader where
  collId : Nat
  inst : Nat
  op : BitVec 4
  ty : BitVec 4
  mode : Bool
  count : BitVec 32
  npart : Nat
  teams : Nat
  listCrc : BitVec 32
  rank : Nat
  nq : Nat
  quant : List (BitVec 16)
  members : Nat
  valid : Bool
  second : Bool := false
  deriving DecidableEq, Repr

/-- One chunk of a collective on its way (R352, R359): the elements rank `rank` fired, or a result
for this package when it arrives as COLL_RESULT_WRITE. `flags` are the rounding flags of a result. -/
structure CollChunk where
  collId : Nat
  inst : Nat
  chunk : Nat
  rank : Nat
  data : List (BitVec 8)
  flags : BitVec 5
  last : Bool
  deriving DecidableEq, Repr

/-- What a collective sends to another participant (R353, R358, R360): a fired chunk under its header, the second header
of an ENS participant, or an abort. -/
inductive CollMsg where
  | chunk (hd : CollHeader) (c : CollChunk)
  | area (hd : CollHeader)
  | abort (collId inst : Nat) (code : BitVec 16)
  deriving DecidableEq, Repr

/-- A collective step on its way to one participant, with its flow number COLLID + chunk index (R340, R342). -/
structure CollFlit where
  dchip : BitVec 10
  schip : BitVec 10
  flow : Nat
  msg : CollMsg
  deriving DecidableEq, Repr

/-- What an event is about: nothing, a numbered thing (a queue, core, team, grid, graph or flit), a
numbered thing of another, a gang of a group of a team, a graph node, bring-up, a Lath frame (with the
bring-up that a recovery frame starts), a Scrim port or CXL link, a walk for a team, a
reflection, a collective header or chunk, a collective step to forward, or a unit found in error (`good`: ECC corrects it,
or the second read is right). -/
inductive EventArg where
  | nothing
  | one (n : Nat)
  | two (n k : Nat)
  | gang (team group gang : Nat)
  | node (graph : Nat) (node : BitVec 64)
  | boot (b : BringUp)
  | frame (f : LathIn)
  | recover (f : LathIn) (b : BringUp)
  | link (cxl : Bool) (n : Nat) (up : Bool)
  | walk (team : Nat) (va : BitVec 57) (write : Bool)
  | flit (f : Flit)
  | header (hd : CollHeader)
  | chunk (c : CollChunk)
  | coll (f : CollFlit)
  | unit (u : FaultUnit) (good : Bool)
  | repair (core : Nat) (repaired : Bool)
  deriving DecidableEq, Repr

/-- The instructions, hint words and events of the opcode table, one constructor per row. -/
inductive Instr where
  /-- R154: Conditional branch resolved in each slice over its live pairs, deferring taken pairs when the slice divides. -/
  | bra (c : BitVec 4) (o : BitVec 22)
  /-- R155: Branch that writes the return link into s6:s7 of the taking pairs. -/
  | call (c : BitVec 4) (o : BitVec 22)
  /-- R156: Pushes a region entry holding the JOIN address and the current active set. -/
  | rpush (o : BitVec 22)
  /-- R157: Indirect branch that splits pairs by target, deferring all but the lowest target. -/
  | bri (a : BitVec 7)
  /-- R158: Indirect call that checks targets and budgets, writes the link, pushes a region entry and branches per target. -/
  | calli (d : BitVec 7) (a : BitVec 7)
  /-- R157: Return with the effect of BRI. -/
  | ret (a : BitVec 7)
  /-- R138: Waits until every live slice reaches the same REGANG, then forms one gang. -/
  | regang
  /-- R161: Ends every live pair of the issuing slices and unwinds the emptied slices. -/
  | exit
  /-- R162: Raises BREAKPOINT. -/
  | brk
  /-- R160: Takes one issue step and has no other effect. -/
  | nop
  /-- R162: Raises SOFT_TRAP with number n. -/
  | trap (n : BitVec 12)
  /-- R164: Reads a special register into d. -/
  | mfs (d : BitVec 7) (i : BitVec 12)
  /-- R164: Writes FPM of each live member context. -/
  | mts (a : BitVec 7) (i : BitVec 12)
  /-- R122: Privileged load of a 132-byte macro image that rebinds a macro index for the team. -/
  | mstld (a : BitVec 7)
  /-- R163: Leaves privileged state, restores the saved slice state and resumes by cause. -/
  | hret
  /-- R165: Integer add modulo 2^w, 32-bit or on pairs. -/
  | add (w : BitVec 1) (d : BitVec 7) (a : BitVec 7) (b : BitVec 7)
  /-- R165: Integer subtract modulo 2^w. -/
  | sub (w : BitVec 1) (d : BitVec 7) (a : BitVec 7) (b : BitVec 7)
  /-- R165: Saturating add, signed or unsigned. -/
  | addsat (w : BitVec 1) (u : BitVec 1) (d : BitVec 7) (a : BitVec 7) (b : BitVec 7)
  /-- R165: Saturating subtract, signed or unsigned. -/
  | subsat (w : BitVec 1) (u : BitVec 1) (d : BitVec 7) (a : BitVec 7) (b : BitVec 7)
  /-- R165: Integer minimum, signed or unsigned. -/
  | min (w : BitVec 1) (u : BitVec 1) (d : BitVec 7) (a : BitVec 7) (b : BitVec 7)
  /-- R165: Integer maximum, signed or unsigned. -/
  | max (w : BitVec 1) (u : BitVec 1) (d : BitVec 7) (a : BitVec 7) (b : BitVec 7)
  /-- R165: Integer absolute value modulo 2^w. -/
  | abs (w : BitVec 1) (d : BitVec 7) (a : BitVec 7)
  /-- R165: Integer negation modulo 2^w. -/
  | neg (w : BitVec 1) (d : BitVec 7) (a : BitVec 7)
  /-- R165: Register move. -/
  | mov (w : BitVec 1) (d : BitVec 7) (a : BitVec 7)
  /-- R166: Adds a sign-extended 12-bit immediate. -/
  | addi (d : BitVec 7) (a : BitVec 7) (i : BitVec 12)
  /-- R168: Bitwise and. -/
  | and (d : BitVec 7) (a : BitVec 7) (b : BitVec 7)
  /-- R168: Bitwise or. -/
  | or (d : BitVec 7) (a : BitVec 7) (b : BitVec 7)
  /-- R168: Bitwise exclusive or. -/
  | xor (d : BitVec 7) (a : BitVec 7) (b : BitVec 7)
  /-- R168: a and not b. -/
  | andn (d : BitVec 7) (a : BitVec 7) (b : BitVec 7)
  /-- R168: a or not b. -/
  | orn (d : BitVec 7) (a : BitVec 7) (b : BitVec 7)
  /-- R168: Bitwise complement. -/
  | not (d : BitVec 7) (a : BitVec 7)
  /-- R168: Shift left, giving 0 for shifts of 32 or more. -/
  | shl (d : BitVec 7) (a : BitVec 7) (b : BitVec 7)
  /-- R168: Logical shift right. -/
  | shrU (d : BitVec 7) (a : BitVec 7) (b : BitVec 7)
  /-- R168: Arithmetic shift right. -/
  | shrS (d : BitVec 7) (a : BitVec 7) (b : BitVec 7)
  /-- R168: Rotate left by n mod 32. -/
  | rol (d : BitVec 7) (a : BitVec 7) (b : BitVec 7)
  /-- R168: Rotate right by n mod 32. -/
  | ror (d : BitVec 7) (a : BitVec 7) (b : BitVec 7)
  /-- R168: 64-bit shift left. -/
  | shl64 (d : BitVec 7) (a : BitVec 7) (b : BitVec 7)
  /-- R168: 64-bit logical shift right. -/
  | shr64U (d : BitVec 7) (a : BitVec 7) (b : BitVec 7)
  /-- R168: 64-bit arithmetic shift right. -/
  | shr64S (d : BitVec 7) (a : BitVec 7) (b : BitVec 7)
  /-- R168: Population count. -/
  | popc (d : BitVec 7) (a : BitVec 7)
  /-- R168: Count leading zeros. -/
  | clz (d : BitVec 7) (a : BitVec 7)
  /-- R168: Count trailing zeros. -/
  | ctz (d : BitVec 7) (a : BitVec 7)
  /-- R168: Bit reverse. -/
  | brev (d : BitVec 7) (a : BitVec 7)
  /-- R169: Zero-extended field extract. -/
  | fldxU (d : BitVec 7) (a : BitVec 7) (b : BitVec 7)
  /-- R169: Sign-extended field extract. -/
  | fldxS (d : BitVec 7) (a : BitVec 7) (b : BitVec 7)
  /-- R169: Field insert into d, or into an optional SRC3 base. -/
  | fldi (d : BitVec 7) (a : BitVec 7) (b : BitVec 7)
  /-- R169: Byte select with zero and sign fill. -/
  | bysel (d : BitVec 7) (a : BitVec 7) (b : BitVec 7)
  /-- R170: 32-bit multiply modulo 2^32. -/
  | mul (d : BitVec 7) (a : BitVec 7) (b : BitVec 7)
  /-- R170: High half of the signed 64-bit product. -/
  | mulhiS (d : BitVec 7) (a : BitVec 7) (b : BitVec 7)
  /-- R170: High half of the unsigned 64-bit product. -/
  | mulhiU (d : BitVec 7) (a : BitVec 7) (b : BitVec 7)
  /-- R170: Full signed 64-bit product. -/
  | mulwS (d : BitVec 7) (a : BitVec 7) (b : BitVec 7)
  /-- R170: Full unsigned 64-bit product. -/
  | mulwU (d : BitVec 7) (a : BitVec 7) (b : BitVec 7)
  /-- R170: Multiply-add modulo 2^32, with optional SRC3 addend. -/
  | mad (d : BitVec 7) (a : BitVec 7) (b : BitVec 7)
  /-- R170: 64-bit multiply modulo 2^64. -/
  | mul64 (d : BitVec 7) (a : BitVec 7) (b : BitVec 7)
  /-- R170: High half of the signed 128-bit product. -/
  | mulhi64S (d : BitVec 7) (a : BitVec 7) (b : BitVec 7)
  /-- R170: High half of the unsigned 128-bit product. -/
  | mulhi64U (d : BitVec 7) (a : BitVec 7) (b : BitVec 7)
  /-- R171: Signed 32-bit divide toward zero. -/
  | divS (d : BitVec 7) (a : BitVec 7) (b : BitVec 7)
  /-- R171: Unsigned 32-bit divide. -/
  | divU (d : BitVec 7) (a : BitVec 7) (b : BitVec 7)
  /-- R171: Signed 32-bit remainder. -/
  | remS (d : BitVec 7) (a : BitVec 7) (b : BitVec 7)
  /-- R171: Unsigned 32-bit remainder. -/
  | remU (d : BitVec 7) (a : BitVec 7) (b : BitVec 7)
  /-- R171: Signed 64-bit divide. -/
  | div64S (d : BitVec 7) (a : BitVec 7) (b : BitVec 7)
  /-- R171: Unsigned 64-bit divide. -/
  | div64U (d : BitVec 7) (a : BitVec 7) (b : BitVec 7)
  /-- R171: Signed 64-bit remainder. -/
  | rem64S (d : BitVec 7) (a : BitVec 7) (b : BitVec 7)
  /-- R171: Unsigned 64-bit remainder. -/
  | rem64U (d : BitVec 7) (a : BitVec 7) (b : BitVec 7)
  /-- R172: Integer compare of typed operands into a predicate. -/
  | icmp (t : BitVec 2) (r : BitVec 3) (p : BitVec 3) (a : BitVec 7) (b : BitVec 7)
  /-- R167: 64-bit address from a pair plus a scaled, sign- or zero-extended index. -/
  | lea (s : BitVec 5) (d : BitVec 7) (a : BitVec 7) (b : BitVec 7)
  /-- R173: Predicate and. -/
  | pand (d : BitVec 3) (n : BitVec 1) (a : BitVec 3) (m : BitVec 1) (b : BitVec 3)
  /-- R173: Predicate or. -/
  | por (d : BitVec 3) (n : BitVec 1) (a : BitVec 3) (m : BitVec 1) (b : BitVec 3)
  /-- R173: Predicate exclusive or. -/
  | pxor (d : BitVec 3) (n : BitVec 1) (a : BitVec 3) (m : BitVec 1) (b : BitVec 3)
  /-- R173: Predicate move. -/
  | pmov (d : BitVec 3) (n : BitVec 1) (a : BitVec 3)
  /-- R173: Predicate to register, 1 or 0. -/
  | ptov (d : BitVec 7) (n : BitVec 1) (a : BitVec 3)
  /-- R173: Register nonzero to predicate. -/
  | vtop (d : BitVec 3) (a : BitVec 7)
  /-- R174: Gang-wide lane exchange from a selected lane. -/
  | lxgSel (d : BitVec 7) (a : BitVec 7) (b : BitVec 7)
  /-- R174: Lane exchange from lane l − b. -/
  | lxgBelow (d : BitVec 7) (a : BitVec 7) (b : BitVec 7)
  /-- R174: Lane exchange from lane l + b. -/
  | lxgAbove (d : BitVec 7) (a : BitVec 7) (b : BitVec 7)
  /-- R174: Lane exchange from lane l xor b. -/
  | lxgFlip (d : BitVec 7) (a : BitVec 7) (b : BitVec 7)
  /-- R175: Predicate holds in every contributing lane. -/
  | ltestAll (d : BitVec 3) (n : BitVec 1) (a : BitVec 3)
  /-- R175: Predicate holds in some contributing lane. -/
  | ltestAny (d : BitVec 3) (n : BitVec 1) (a : BitVec 3)
  /-- R175: Predicate is the same in every contributing lane. -/
  | ltestSame (d : BitVec 3) (n : BitVec 1) (a : BitVec 3)
  /-- R175: Gathers a predicate into a lane bit mask. -/
  | pgath (d : BitVec 7) (n : BitVec 1) (a : BitVec 3)
  /-- R175: Mask of contributing lanes whose value equals the receiver's. -/
  | leqm (d : BitVec 7) (a : BitVec 7)
  /-- R175: Sum of a over the contributing lanes modulo 2^32. -/
  | lfoldAdd (d : BitVec 7) (a : BitVec 7)
  /-- R175: Signed or unsigned minimum over the contributing lanes. -/
  | lfoldMin (u : BitVec 1) (d : BitVec 7) (a : BitVec 7)
  /-- R175: Signed or unsigned maximum over the contributing lanes. -/
  | lfoldMax (u : BitVec 1) (d : BitVec 7) (a : BitVec 7)
  /-- R176: Reads the member mask. -/
  | mmaskr (d : BitVec 7)
  /-- R176: Defers the pairs whose member bit is clear to the region's JOIN. -/
  | mmaskw (a : BitVec 7)
  /-- R177: Predicate holds in every live member slot of the lane. -/
  | mtestAll (d : BitVec 3) (n : BitVec 1) (a : BitVec 3)
  /-- R177: Predicate holds in some live member slot of the lane. -/
  | mtestAny (d : BitVec 3) (n : BitVec 1) (a : BitVec 3)
  /-- R177: Reads a from a selected member slot of the same lane. -/
  | mpick (d : BitVec 7) (a : BitVec 7) (b : BitVec 7)
  /-- R178: Stable-sorts the sibling set's member contexts by key and redistributes them across the siblings. -/
  | regroup (a : BitVec 7)
  /-- R179: Sets the group's ROLEID. -/
  | role (a : BitVec 7)
  /-- R180: Gives register budget to a role's pool. -/
  | regsGive (a : BitVec 7) (b : BitVec 7)
  /-- R180: Claims register budget from the group's role pool, waiting in arrival order. -/
  | regsClaim (a : BitVec 7)
  /-- R187: Floating-point add rounded once. -/
  | fadd (t : BitVec 2) (m : BitVec 3) (d : BitVec 7) (a : BitVec 7) (b : BitVec 7)
  /-- R187: Floating-point subtract. -/
  | fsub (t : BitVec 2) (m : BitVec 3) (d : BitVec 7) (a : BitVec 7) (b : BitVec 7)
  /-- R187: Floating-point multiply. -/
  | fmul (t : BitVec 2) (m : BitVec 3) (d : BitVec 7) (a : BitVec 7) (b : BitVec 7)
  /-- R187: Fused multiply-add into d or an SRC3 addend. -/
  | fma (t : BitVec 2) (m : BitVec 3) (d : BitVec 7) (a : BitVec 7) (b : BitVec 7)
  /-- R189: Floating-point minimum. -/
  | fmin (t : BitVec 2) (d : BitVec 7) (a : BitVec 7) (b : BitVec 7)
  /-- R189: Floating-point maximum. -/
  | fmax (t : BitVec 2) (d : BitVec 7) (a : BitVec 7) (b : BitVec 7)
  /-- R189: Clears the sign bit. -/
  | fabs (t : BitVec 2) (d : BitVec 7) (a : BitVec 7)
  /-- R189: Inverts the sign bit. -/
  | fneg (t : BitVec 2) (d : BitVec 7) (a : BitVec 7)
  /-- R189: Copies the sign of b onto a. -/
  | fcpys (t : BitVec 2) (d : BitVec 7) (a : BitVec 7) (b : BitVec 7)
  /-- R189: Classifies a into a one-hot mask. -/
  | fclass (t : BitVec 2) (d : BitVec 7) (a : BitVec 7)
  /-- R189: Multiplies by 2^n and rounds. -/
  | fscale (t : BitVec 2) (d : BitVec 7) (a : BitVec 7) (b : BitVec 7)
  /-- R190: Floating-point compare into a predicate. -/
  | fcmp (r : BitVec 3) (t : BitVec 2) (p : BitVec 3) (a : BitVec 7) (b : BitVec 7)
  /-- R191: Converts between floating-point and integer formats. -/
  | cvt (g : BitVec 4) (d : BitVec 7) (a : BitVec 7) (s : BitVec 4) (m : BitVec 3)
  /-- R193: Packs a 32-lane block to MXFP8, choosing the E8M0 scale. -/
  | packMx8 (e : BitVec 1) (d : BitVec 7) (a : BitVec 7) (m : BitVec 3)
  /-- R193: Packs a 32-lane block to MXFP4. -/
  | packMx4 (d : BitVec 7) (a : BitVec 7) (m : BitVec 3)
  /-- R193: Packs an 8-lane block to TB4 with an E3M5 scale. -/
  | packTb4 (d : BitVec 7) (a : BitVec 7) (m : BitVec 3)
  /-- R194: Unpacks an MXFP8 lane word to binary32. -/
  | unpkMx8 (e : BitVec 1) (d : BitVec 7) (a : BitVec 7) (m : BitVec 3)
  /-- R194: Unpacks an MXFP4 lane word. -/
  | unpkMx4 (d : BitVec 7) (a : BitVec 7) (m : BitVec 3)
  /-- R194: Unpacks a TB4 lane word. -/
  | unpkTb4 (d : BitVec 7) (a : BitVec 7) (m : BitVec 3)
  /-- R195: Correctly rounded binary32 reciprocal. -/
  | rcp (d : BitVec 7) (a : BitVec 7) (m : BitVec 3)
  /-- R195: Reciprocal square root. -/
  | rsq (d : BitVec 7) (a : BitVec 7) (m : BitVec 3)
  /-- R195: Square root. -/
  | sqrt (d : BitVec 7) (a : BitVec 7) (m : BitVec 3)
  /-- R195: Base-2 exponential. -/
  | exp2 (d : BitVec 7) (a : BitVec 7) (m : BitVec 3)
  /-- R195: Base-2 logarithm. -/
  | log2 (d : BitVec 7) (a : BitVec 7) (m : BitVec 3)
  /-- R195: sin(πx). -/
  | sinpi (d : BitVec 7) (a : BitVec 7) (m : BitVec 3)
  /-- R195: cos(πx). -/
  | cospi (d : BitVec 7) (a : BitVec 7) (m : BitVec 3)
  /-- R198: Adds each live lane's value exactly into the bound long accumulator. -/
  | lacAdd (t : BitVec 2) (x : BitVec 2) (a : BitVec 7)
  /-- R198: Clears the bound long accumulator. -/
  | lacClr (x : BitVec 2)
  /-- R198: Binds a pool entry to the binding and clears it. -/
  | lacClrBind (x : BitVec 2) (a : BitVec 7)
  /-- R198: Merges one accumulator into another. -/
  | lacMrg (x : BitVec 2) (y : BitVec 2)
  /-- R198: Reads an accumulator out with one rounding. -/
  | lacRnd (d : BitVec 7) (x : BitVec 2) (f : BitVec 4) (m : BitVec 3)
  /-- R198: Loads a 288-byte accumulator image. -/
  | lacLd (x : BitVec 2) (a : BitVec 7)
  /-- R198: Stores a 288-byte accumulator image. -/
  | lacSt (x : BitVec 2) (a : BitVec 7)
  /-- R202: Per-lane running maximum with index. -/
  | maxi (t : BitVec 3) (d : BitVec 7) (a : BitVec 7) (b : BitVec 7)
  /-- R202: Per-lane running minimum with index. -/
  | mini (t : BitVec 3) (d : BitVec 7) (a : BitVec 7) (b : BitVec 7)
  /-- R203: Gang-wide top-k selection over a member context's row. -/
  | topk (t : BitVec 3) (d : BitVec 7) (a : BitVec 7) (b : BitVec 7)
  /-- R203: Merges candidates into a 64-entry top-k list. -/
  | topkm (t : BitVec 3) (d : BitVec 7) (a : BitVec 7) (b : BitVec 7)
  /-- R205: Ensemble mean across the sibling set's members per lane. -/
  | estatMean (d : BitVec 7) (a : BitVec 7) (f : BitVec 1) (m : BitVec 3)
  /-- R205: Ensemble population standard deviation. -/
  | estatSprd (d : BitVec 7) (a : BitVec 7) (f : BitVec 1) (m : BitVec 3)
  /-- R205: Count of members below a verifying value. -/
  | estatRank (d : BitVec 7) (a : BitVec 7) (f : BitVec 1)
  /-- R205: Ensemble quantile element. -/
  | estatQnt (d : BitVec 7) (a : BitVec 7) (f : BitVec 1)
  /-- R237: Global load on path V. -/
  | ld (f : BitVec 3) (d : BitVec 7) (b : BitVec 7) (o : BitVec 9)
  /-- R237: Global store on path V. -/
  | st (f : BitVec 3) (d : BitVec 7) (b : BitVec 7) (o : BitVec 9)
  /-- R238: Load with acquire at a scope. -/
  | ldAcq (f : BitVec 3) (d : BitVec 7) (b : BitVec 7) (s : BitVec 3) (o : BitVec 6)
  /-- R238: Store with release at a scope. -/
  | stRel (f : BitVec 3) (d : BitVec 7) (b : BitVec 7) (s : BitVec 3) (o : BitVec 6)
  /-- R239: Plain load from the team's Hawk or column. -/
  | ldh (f : BitVec 3) (d : BitVec 7) (b : BitVec 7) (o : BitVec 7)
  /-- R239: Local load that waits until its granules are full and leaves them full. -/
  | ldhWfKeep (f : BitVec 3) (d : BitVec 7) (b : BitVec 7) (o : BitVec 7)
  /-- R239: Local load that waits until its granules are full and empties them. -/
  | ldhWfClr (f : BitVec 3) (d : BitVec 7) (b : BitVec 7) (o : BitVec 7)
  /-- R239: Plain store to the team's Hawk or column. -/
  | sth (f : BitVec 3) (d : BitVec 7) (b : BitVec 7) (o : BitVec 7)
  /-- R239: Local store that sets the full bits after the data. -/
  | sthF (f : BitVec 3) (d : BitVec 7) (b : BitVec 7) (o : BitVec 7)
  /-- R242: Atomic add at the home L2. -/
  | atomAdd (w : BitVec 1) (d : BitVec 7) (a : BitVec 7) (b : BitVec 7)
  /-- R242: Atomic signed minimum. -/
  | atomMinS (w : BitVec 1) (d : BitVec 7) (a : BitVec 7) (b : BitVec 7)
  /-- R242: Atomic unsigned minimum. -/
  | atomMinU (w : BitVec 1) (d : BitVec 7) (a : BitVec 7) (b : BitVec 7)
  /-- R242: Atomic signed maximum. -/
  | atomMaxS (w : BitVec 1) (d : BitVec 7) (a : BitVec 7) (b : BitVec 7)
  /-- R242: Atomic unsigned maximum. -/
  | atomMaxU (w : BitVec 1) (d : BitVec 7) (a : BitVec 7) (b : BitVec 7)
  /-- R242: Atomic exchange. -/
  | atomExch (w : BitVec 1) (d : BitVec 7) (a : BitVec 7) (b : BitVec 7)
  /-- R242: Atomic compare-and-swap with SRC3 new value. -/
  | atomCas (w : BitVec 1) (d : BitVec 7) (a : BitVec 7) (b : BitVec 7)
  /-- R242: Atomic and. -/
  | atomAnd (w : BitVec 1) (d : BitVec 7) (a : BitVec 7) (b : BitVec 7)
  /-- R242: Atomic or. -/
  | atomOr (w : BitVec 1) (d : BitVec 7) (a : BitVec 7) (b : BitVec 7)
  /-- R242: Atomic exclusive or. -/
  | atomXor (w : BitVec 1) (d : BitVec 7) (a : BitVec 7) (b : BitVec 7)
  /-- R243: Atomic floating-point add rounded once. -/
  | atomFadd (w : BitVec 1) (d : BitVec 7) (a : BitVec 7) (b : BitVec 7)
  /-- R244: Reserved load that sets a line reservation. -/
  | lr (w : BitVec 1) (d : BitVec 7) (a : BitVec 7)
  /-- R244: Conditional store that succeeds only with the reservation held. -/
  | sc (w : BitVec 1) (d : BitVec 7) (a : BitVec 7) (b : BitVec 7)
  /-- R241: Global block load of an MXFP8 block. -/
  | ldbMx8 (d : BitVec 7) (a : BitVec 7) (b : BitVec 7)
  /-- R241: Global block load of an MXFP4 block. -/
  | ldbMx4 (d : BitVec 7) (a : BitVec 7) (b : BitVec 7)
  /-- R241: Global block load of four TB4 blocks. -/
  | ldbTb4 (d : BitVec 7) (a : BitVec 7) (b : BitVec 7)
  /-- R241: Global block store of an MXFP8 block. -/
  | stbMx8 (d : BitVec 7) (a : BitVec 7) (b : BitVec 7)
  /-- R241: Global block store of an MXFP4 block. -/
  | stbMx4 (d : BitVec 7) (a : BitVec 7) (b : BitVec 7)
  /-- R241: Global block store of TB4 blocks. -/
  | stbTb4 (d : BitVec 7) (a : BitVec 7) (b : BitVec 7)
  /-- R241: Local MXFP8 block load with optional .wf qualifier. -/
  | ldhbMx8 (d : BitVec 7) (a : BitVec 7) (q : BitVec 2)
  /-- R241: Local MXFP4 block load. -/
  | ldhbMx4 (d : BitVec 7) (a : BitVec 7) (q : BitVec 2)
  /-- R241: Local TB4 block load. -/
  | ldhbTb4 (d : BitVec 7) (a : BitVec 7) (q : BitVec 2)
  /-- R241: Local MXFP8 block store with optional .f. -/
  | sthbMx8 (d : BitVec 7) (a : BitVec 7) (q : BitVec 2)
  /-- R241: Local MXFP4 block store. -/
  | sthbMx4 (d : BitVec 7) (a : BitVec 7) (q : BitVec 2)
  /-- R241: Local TB4 block store. -/
  | sthbTb4 (d : BitVec 7) (a : BitVec 7) (q : BitVec 2)
  /-- R248: Orders later accesses after every earlier path-V access is performed at the scope, cumulatively. -/
  | fence (s : BitVec 3)
  /-- R248: Cross-path fence from path p to path q at a scope. -/
  | fenceX (s : BitVec 3) (p : BitVec 6) (q : BitVec 6)
  /-- R248: Waits until every earlier WST is written and visible at .sys. -/
  | fenceW
  /-- R249: Writes an L1 line's dirty bytes to the home L2. -/
  | cwbL1 (a : BitVec 7)
  /-- R249: Writes back and invalidates an L1 line, or the whole L1. -/
  | cinvL1 (a : BitVec 7)
  /-- R249: Writes an L2 line's dirty sectors to memory. -/
  | cwbL2 (a : BitVec 7)
  /-- R249: Prefetches a line to L1. -/
  | prefL1 (a : BitVec 7)
  /-- R249: Prefetches a line to L2. -/
  | prefL2 (a : BitVec 7)
  /-- R246: Window store that writes locally and reflects the bytes on path W to the mapped receive window. -/
  | wst (f : BitVec 3) (d : BitVec 7) (b : BitVec 7) (o : BitVec 9)
  /-- R251: Places one Hod record per member context in the team's command slots. -/
  | hod (a : BitVec 7) (b : BitVec 7)
  /-- R252: Starts the team's Hod channel walking a chain. -/
  | hodChain (a : BitVec 7)
  /-- R253: Loads a halo descriptor into m registers and starts a Bead operation. -/
  | bead (m : BitVec 2) (a : BitVec 7)
  /-- R254: Appends one entry per live member context to the vertical FIFO towards the partner core. -/
  | vsend (a : BitVec 7)
  /-- R254: Takes entries of its grid from the vertical FIFO. -/
  | vrecv (d : BitVec 7)
  /-- R181: Places one task per live pair into the core's spawn bins. -/
  | spawn (a : BitVec 7) (b : BitVec 7)
  /-- R182: Submits a launch record per live pair to a queue and writes a status. -/
  | launch (d : BitVec 7) (a : BitVec 7) (b : BitVec 7)
  /-- R183: Atomically ORs a value into a condition word with release at .sys. -/
  | cwset (a : BitVec 7) (b : BitVec 7)
  /-- R256: Arrives once on a barrier with a count. -/
  | barArv (n : BitVec 4) (a : BitVec 7)
  /-- R256: Gathers and waits for the phase last arrived on. -/
  | barWt (n : BitVec 4)
  /-- R256: Gathers, arrives once and waits. -/
  | barSync (n : BitVec 4) (a : BitVec 7)
  /-- R257: Barrier sync restricted to the lanes of a mask. -/
  | barSyncm (n : BitVec 4) (a : BitVec 7) (b : BitVec 7)
  /-- R258: Snapshot barrier of all groups and the Trowel, copying state for snapshot grids. -/
  | snap (n : BitVec 4)
  /-- R120: Runs a bound microprogram as one interlocked instruction with parameter substitution. -/
  | runMacro (i : BitVec 8) (a : BitVec 6) (b : BitVec 6) (c : BitVec 6)
  /-- R112: Hint that sets empty issue steps before the following words. -/
  | stall (c : BitVec 21)
  /-- R109: Hint that supplies literal bits to the next instruction's 0x7F fields. -/
  | imm (i : BitVec 22)
  /-- R110: Hint that supplies a third source operand. -/
  | src3 (s : BitVec 7)
  /-- R111: Hint that opens a predicated window over the next 1 to 8 words. -/
  | guard (n : BitVec 3) (g : BitVec 1) (p : BitVec 3)
  /-- R133: Reconvergence point that pops the top stack entry and resumes deferred or enclosing pairs. -/
  | join
  /-- R113: Hint that brings a line to L1, L2 or both. -/
  | prefetch (l : BitVec 2) (b : BitVec 7) (o : BitVec 13)
  /-- R110: Hint that replaces the rounding mode of the next instruction. -/
  | rnd (m : BitVec 3)
  /-- R275: Loads a tile from memory into an accumulator tile. -/
  | tld (t : BitVec 4) (s : BitVec 3) (m : BitVec 4)
  /-- R268: Tile copy whose source read may be shared across the cluster. -/
  | tldm (d : BitVec 4) (s : BitVec 4) (f : BitVec 1) (t : BitVec 4)
  /-- R276: Rounds and stores an accumulator tile to memory. -/
  | tst (m : BitVec 4) (t : BitVec 4) (s : BitVec 3) (f : BitVec 1) (k : BitVec 1) (r : BitVec 3)
  /-- R277: Copies a tile between descriptors. -/
  | tcpy (d : BitVec 4) (s : BitVec 4) (f : BitVec 1) (t : BitVec 4)
  /-- R274: Zeroes a named tile in F32, F64 or EXACT mode and sets FIRST. -/
  | tzero (s : BitVec 3) (m : BitVec 2)
  /-- R279: Multiplies A by B into an accumulator tile, exactly or in canonical order. -/
  | mma (f : BitVec 4) (t : BitVec 4) (s : BitVec 3) (a : BitVec 5) (b : BitVec 5)
  /-- R281: Scales every element of a tile. -/
  | tscl (s : BitVec 3) (x : BitVec 7)
  /-- R281: Adds a row or column bias vector to a tile. -/
  | tbias (s : BitVec 3) (m : BitVec 4) (r : BitVec 1)
  /-- R282: Applies relu, silu or square to every element. -/
  | tact (s : BitVec 3) (k : BitVec 2)
  /-- R281: Transposes a tile. -/
  | txpose (s : BitVec 3)
  /-- R283: Rounds an EXACT or F64 tile to an F32 tile. -/
  | tcvt (s : BitVec 3) (m : BitVec 3)
  /-- R284: Reduces a tile's columns or rows. -/
  | tred (s : BitVec 3) (r : BitVec 1)
  /-- R286: Writes a generator's control fields. -/
  | gset (g : BitVec 3) (x : BitVec 7)
  /-- R286: Writes a generator's 128-bit seed. -/
  | gseed (g : BitVec 3) (a : BitVec 7) (b : BitVec 7)
  /-- R286: Writes a generator's row and column origins. -/
  | gorg (g : BitVec 3) (a : BitVec 7) (b : BitVec 7)
  /-- R270: Trowel scalar move, including writes to TFLAGS. -/
  | tmov (d : BitVec 7) (a : BitVec 7)
  /-- R270: Trowel 64-bit add. -/
  | tadd (d : BitVec 7) (a : BitVec 7) (b : BitVec 7)
  /-- R270: Trowel 64-bit subtract. -/
  | tsub (d : BitVec 7) (a : BitVec 7) (b : BitVec 7)
  /-- R270: Trowel 64-bit multiply. -/
  | tmul (d : BitVec 7) (a : BitVec 7) (b : BitVec 7)
  /-- R271: Trowel branch when a t register is nonzero. -/
  | tbrnz (t : BitVec 4) (o : BitVec 14)
  /-- R271: Trowel unconditional branch. -/
  | tbra (o : BitVec 14)
  /-- R272: Trowel arrival on a team barrier. -/
  | tbarArv (b : BitVec 4) (c : BitVec 7)
  /-- R272: Trowel wait on a team barrier. -/
  | tbarWt (b : BitVec 4)
  /-- R271: The Trowel finishes. -/
  | tend
  /-- R273: Writes a descriptor register from two scalars. -/
  | mset (m : BitVec 4) (a : BitVec 7) (b : BitVec 7)
  /-- R273: Advances a descriptor's OFF and SOFF. -/
  | madv (m : BitVec 4) (a : BitVec 7) (b : BitVec 7)
  /-- R273: Loads 1 to 4 descriptor registers from local memory. -/
  | mcpy (m : BitVec 4) (a : BitVec 7) (n : BitVec 2)
  /-- R298: Starts recording on a tape segment with its save policy. -/
  | trecOn (b : BitVec 7) (l : BitVec 7) (x : BitVec 1) (m : BitVec 1)
  /-- R298: Ends recording and holds the tape when it has records. -/
  | trecOff
  /-- R298: Arms the next tape segment in the current trailer. -/
  | trecExt (b : BitVec 7) (l : BitVec 7)
  /-- R309: Walks the tape backwards applying each record's adjoint into the mapped and bound tiles. -/
  | trev (m : BitVec 7) (b : BitVec 7) (k : BitVec 1) (r : BitVec 1) (p : BitVec 1)
  /-- R424: Release of PERST_N after the rails and reference clock are stable runs the bring-up steps from boot ROM through firmware verification, BIST, link training and calibration up to service level L3. -/
  | perstNRelease
  /-- R422: A package reset loses every register, log, counter and fuse-derived value and returns each map to its Reset values. -/
  | packageReset
  /-- R422: Removal of power loses all package state except the fuses. -/
  | powerRemoved
  /-- R437: A junction sensor reading 105 °C makes the package assert ALERT_N so that the module removes VCOMP, VHBM and VBASE. -/
  | junctionOvertemp
  /-- R428: A Lath recovery frame resets the package and boots the read-only recovery image, which brings the package to L1 with Scrim untrained. -/
  | recovery
  /-- R427: A Lath firmware-load frame makes Svaoc write the image to the primary slot when R426 passes and switch the slot pointer after the last byte is written. -/
  | firmwareLoad
  /-- R429: A Lath attestation request with a 32-byte nonce makes Svaoc return the signed attestation report. -/
  | attestationRequest
  /-- R440: A Lath register write frame to a register with no row of its own updates that register per its map, and a write to an unoccupied offset draws a response with status 2. -/
  | lathRegisterWrite
  /-- R430: A Lath memory read frame reads physical memory through the home L2, waits on LOCK, and draws status 3 for an address without backing. -/
  | lathMemoryRead
  /-- R430: A Lath memory write frame writes physical memory and is performed at .sys before its ACK is sent. -/
  | lathMemoryWrite
  /-- R430: A Lath memory 8-byte compare-and-swap frame performs an atomic compare-and-swap at a physical address. -/
  | lathMemoryCas
  /-- R430: A received ACK frame retires the acknowledged frames from the sender's list of unacknowledged frames. -/
  | lathAck
  /-- R430: A received NAK frame makes the sender resend from the expected SEQ it carries. -/
  | lathNak
  /-- R430: When 10 µs pass without an ACK, the sender resends its oldest unacknowledged frame and the resend counter rises. -/
  | lathResendTimeout
  /-- R20: A write to COLCLK is rejected with ERR for RATIO 11 or while BUSY, and otherwise sets BUSY and begins draining every column's crossing FIFOs. -/
  | colclkWrite
  /-- R231: When the column drains have completed, the new memory-layer ratio is applied, the waiting requests are admitted and BUSY clears. -/
  | colclkRatioApply
  /-- R76: A write of TAIL submits records to the queue, or is rejected with QCTL.ERR when it overfills the ring or PROD = 1. -/
  | qptrTailWrite
  /-- R80: CMD = RETRY in LWAIT resumes leasing at the faulting page, and has no effect in any other state. -/
  | qctlRetry
  /-- R80: CMD = CANCEL in LWAIT releases the record's pins, writes its completion record with LEASE_FAULT and starts no team. -/
  | qctlCancel
  /-- R89: XLATINV SCOPE 01 invalidates every page size containing PAGEVA in ASID from all TLBs and the RTT. -/
  | xlatinvPage
  /-- R89: XLATINV SCOPE 10 invalidates every translation of ASID. -/
  | xlatinvAsid
  /-- R89: XLATINV SCOPE 11 invalidates every translation in the package. -/
  | xlatinvAll
  /-- R89: When the invalidation completes, BUSY clears, and matching walks in flight have restarted from QROOT. -/
  | xlatinvDone
  /-- R91: A write of GO to SWAPCTL checks both leaf entries and sets LOCK on both, or sets STATUS 1 to 4. -/
  | swapGo
  /-- R91: When the frame exchange through the swap buffer has completed, the two leaves swap PPN and TIER, LOCK clears, STATUS becomes 0 and waiting accesses resume. -/
  | swapDone
  /-- R372: XCTL OP PREEMPT stops the queue's grid, saves each placed team's context image in ascending TEAMID and frees its resources. -/
  | xctlPreempt
  /-- R376: XCTL OP RESTORE verifies each suspended team's image and places it on a core with the capacity it needs. -/
  | xctlRestore
  /-- R372: XCTL OP ABORT ends the grid's running and suspended teams with TEAM_ABORTED, or IMAGE_CORRUPT, and discards their images. -/
  | xctlAbort
  /-- R229: Writing REQ = 1 takes an idle core out of placement, or is rejected with ERR while the core holds a team. -/
  | vgateRequest
  /-- R229: Once both vertical FIFOs of the pair are empty, GATED rises and the core reads offline in COREMAP. -/
  | vgateGated
  /-- R229: Writing REQ = 0 begins ungating the core. -/
  | vgateUngate
  /-- R229: Within 20 µs GATED clears and the core returns to placement and to COREMAP. -/
  | vgateUngateDone
  /-- R341: A write that changes ID is accepted only while every Scrim port is down, and is otherwise rejected with ERR. -/
  | scrimidWrite
  /-- R345: A write to a transmit or receive window entry is rejected with ERR when it changes an enabled entry, leaves an out-of-range field or overlaps another transmit range of the same ASID. -/
  | windowEntryWrite
  /-- R445: Writing EN = 0 takes the Scrim port or CXL link to STATE 0 and holds it down. -/
  | linkstEnClear
  /-- R445: Writing EN = 1 while STATE = 0 starts training. -/
  | linkstEnSet
  /-- R445: Training ends within 500 ms with STATE 2 (up) or 3 (failed). -/
  | linkTrainingEnd
  /-- R445: A link error takes an up port or link out of STATE 2 into retraining and counts RETRAINS. -/
  | linkError
  /-- R436: A write of LIMIT sets the package power limit, or is rejected with ERR outside 1,000 to 3,400 W. -/
  | pwrlimWrite
  /-- R29: At the end of each 1 ms interval at L3, the power controller lowers or raises the arithmetic clock by 25 MHz, and at L1 and L2 it counts an over-limit interval. -/
  | powerIntervalEnd
  /-- R66: The Dispatcher copies a queue's next launch record with its tables, advances HEAD and checks the copy. -/
  | dispatcherTakeRecord
  /-- R79: The Dispatcher tries a compare-and-swap that adds 1 to PIN of a leased page's leaf, retrying on LOCK or a full PIN, or faulting into LWAIT. -/
  | leasePinAttempt
  /-- R78: Once per base-die clock, the placement arbiter selects a record by priority and rotation and places its next team on a chosen core with room. -/
  | placeTeam
  /-- R85: On a TLB and RTT miss, the tower walker walks the radix table from QROOT, inserts the leaf into the RTT, fills the TLB and sets A, and D for a write. -/
  | translationWalk
  /-- R97: A spawn bin launches a group when it holds 32 tasks, when TIMEOUT clocks have passed since its first task, or when room appears. -/
  | spawnBinLaunch
  /-- R145: When ring occupancy has been low or high for RINGCLK consecutive clocks, a computer group waiting at the role barrier becomes a loader, or a reassigned group becomes a computer again. -/
  | roleReassignment
  /-- R149: At the end of each detector window, LIMIT halves, returns to MAXLD or stays unchanged by the event count. -/
  | localityWindowEnd
  /-- R150: A group returns its load token after 64 clocks without a load or 4,096 clocks of holding, and the oldest waiting group receives it. -/
  | loadTokenReturn
  /-- R212: When all granules of a waiting .WF access are full, the access proceeds, reads its data and under .CLR empties them; one .WF.CLR is released per fill. -/
  | wfRelease
  /-- R213: A .WF access or vertical-FIFO wait that has waited FEWAIT clocks traps FE_TIMEOUT with no granule or entry changed. -/
  | feTimeout
  /-- R96: A SPAWN that has waited FEWAIT clocks for a bin traps SPAWN_STALL. -/
  | spawnStall
  /-- R180: A waiting register claim at the head of its role's queue is served once the pool holds enough units, zeroing the new registers. -/
  | regsClaimGrant
  /-- R180: A register claim that has waited FEWAIT clocks traps REGS_TIMEOUT with REGBUD and the pools unchanged. -/
  | regsTimeout
  /-- R251: A HOD or HOD.CHAIN that has waited FEWAIT clocks for a slot or the channel traps HOD_BUSY. -/
  | hodBusy
  /-- R253: A BEAD that has waited FEWAIT clocks for a slot traps BEAD_BUSY. -/
  | beadBusy
  /-- R229: A VSEND towards a gated partner that has waited FEWAIT clocks traps VFIFO_GATED. -/
  | vfifoGated
  /-- R254: A waiting VSEND appends its m entries once m entries are free, or a waiting VRECV takes its m entries once they are present. -/
  | vfifoWaitEnd
  /-- R221: A Hod command slot checks its record, moves its valid rows, sets full bits and arrives on the destination barrier when ARV = 1. -/
  | hodCommandRun
  /-- R223: The Hod channel reads the next owned record, moves it, clears OWN by an atomic AND and follows the returned LINK. -/
  | hodChainRecord
  /-- R227: A Bead slot checks the halo descriptor and fills the enabled strips from resident neighbours, mirrors or FILL, then sets full bits and arrives. -/
  | beadOperationRun
  /-- R365: A group takes a cause at an instruction boundary: it saves the slice state, writes TRAPCTX, enters privileged state and runs the handler as one gang. -/
  | trapEntry
  /-- R258: A SNAP phase releases once no spawned group, bin task or engine work remains, and after the snapshot copy for a snapshot grid. -/
  | snapRelease
  /-- R384: When all its groups, bin tasks and engine work have ended and its Trowel has finished, the team performs its .sys release, fires its collective chunk and frees its resources. -/
  | teamEnd
  /-- R385: When every team has ended and any bound collective is in DONE or ABORT, the Dispatcher discards FIFO entries and held reflections, releases pins, writes the completion record, updates QSTAT and sends a completion notice. -/
  | gridEnd
  /-- R71: The graph walker starts a reached node by its KIND: launch, copy, collective, condition, while or join, or ends the graph with GRAPH_FAULT or GRAPH_LIMIT. -/
  | graphNodeStart
  /-- R72: A copy node retires when every byte of its Hod transfer is visible at .sys, and its successors start. -/
  | graphCopyRetire
  /-- R74: When no node is running or waiting, the walker writes the graph's completion record with the first error or success. -/
  | graphEnd
  /-- R342: A package that receives a flit addressed to another chip forwards it by its ROUTE table. -/
  | flitForward
  /-- R347: A reflection arriving at its destination is written, held, made to wait on LOCK or discarded with DROP set by the receive entry. -/
  | reflectionArrival
  /-- R348: A reflection not delivered within 1 ms is discarded by its sender, which sets TXDROP and counts it as written for FENCE.W. -/
  | reflectionTimeout
  /-- R353: Rank 0's stack reducer checks arriving chunk headers and moves the instance to RUN, or ends it with COLL_MISMATCH. -/
  | collHeaderCheck
  /-- R359: A stack reducer takes one collective step from its command queue and reduces it by the tree, merge or selection rule of the operation. -/
  | collChunkStep
  /-- R361: Result elements arriving at a participant are written on path C, and the instance moves to DONE when every chunk is written. -/
  | collResultWrite
  /-- R360: A received collective abort ends the instance with COLL_TIMEOUT at a participant that has not reached DONE. -/
  | collAbortReceive
  /-- R360: An instance in CHECK or RUN longer than COLLTMO ends with COLL_TIMEOUT and sends an abort to every participant. -/
  | collTimeout
  /-- R230: The device begins a repair of a column's vertical bus, freezing it for at most 4,096 clocks, and logs the repair. -/
  | verticalRepair
  /-- R230: At the end of a freeze, each end replays its in-flight transfers, and accesses to the column resume. -/
  | repairFreezeEnd
  /-- R378: An uncorrectable ECC error on a read makes the unit read the location once more. -/
  | uncorrectableRead
  /-- R378: A correct second read completes the access and logs a transient error; a failed second read is a lasting fault that fences the unit. -/
  | retryReadResult
  /-- R329: An L1 line that has been dirty for 65,536 clocks is written back to its home L2, and a clean line filled from L2 65,536 clocks ago is invalidated. -/
  | l1LineAgeExpiry
  deriving DecidableEq, Repr

end Sys2Proof
end

