-- ==== Sys2Proof/Machine/Shape.lean ====
section
/-! DEFINITION. The operand fields of every encoded instruction (R101 to R104, Tables 5.2, 8.1, 10.1
to 10.6, 11.2), which third source it takes, whether it rounds, and its architectural latency
(Table 5.5). The static checks of encodings, literal binding, register budgets, the checking
scoreboard and macro parameters are all computed from these lists. -/

namespace Sys2Proof.Machine

/-- One operand-code field of a word: its low bit, its code, the size and alignment of the register
group it names, the registers of it that are touched, whether it is written and whether it is read,
and whether it may hold the literal code. -/
structure OpField where
  pos : Nat
  code : BitVec 7
  group : Nat
  touched : Nat
  dst : Bool
  src : Bool
  lit : Bool
  deriving DecidableEq, Repr

/-- A source of `n` registers at bit `pos`. -/
def srcF (pos : Nat) (c : BitVec 7) (n : Nat := 1) : OpField := ⟨pos, c, n, n, false, true, decide (n ≤ 2)⟩
/-- A destination of `n` registers at bit `pos`. -/
def dstF (pos : Nat) (c : BitVec 7) (n : Nat := 1) : OpField := ⟨pos, c, n, n, true, false, false⟩
/-- A destination that is also read. -/
def bothF (pos : Nat) (c : BitVec 7) (n : Nat := 1) : OpField := ⟨pos, c, n, n, true, true, false⟩

/-- 1 or 2 registers, by a one-bit field that selects 64-bit operands. -/
def regsOf (w : BitVec 1) : Nat := if w = 1 then 2 else 1
/-- The register count of a floating-point type code 00 F32, 01 F64, 10 F16, 11 BF16 (R185, R189). -/
def regsOfType (t : BitVec 2) : Nat := if t = 1 then 2 else 1
/-- The register count of a type code of majors 0x14 to 0x17 (F32, F64, F16, BF16 in order, R187). -/
def regsOfArith (t : BitVec 2) : Nat := if t = 1 then 2 else 1
/-- The register count of a format or integer code of Table 5.13 (R185). -/
def regsOfCode (c : BitVec 4) : Nat := if c = 0 ∨ c = 14 ∨ c = 15 then 2 else 1
/-- The register count of a load or store width (Table 10.2) from the load's fn. -/
def regsOfLoad (f : BitVec 3) : Nat := if f = 6 then 4 else if f = 5 then 2 else 1
/-- The register count of a store width (Table 10.2). -/
def regsOfStore (f : BitVec 3) : Nat := if f = 4 then 4 else if f = 3 then 2 else 1
/-- The width in registers of special register `i` (Table 5.3), or 0 when no register has the number. -/
def specialRegs (i : BitVec 12) : Nat :=
  let n := i.toNat
  if n ≤ 0x13 then 1
  else if n = 0x14 then 2
  else if 0x18 ≤ n ∧ n ≤ 0x1B then 2
  else if 0x100 ≤ n ∧ n ≤ 0x11F then 2
  else 0
/-- The registers of a selection entry of a type (R201). -/
def entryRegs (t : BitVec 3) : Nat := if t = 1 then 4 else 2
/-- The entry group of MAXI, MINI and TOPK: `n` entries of `w` registers, of which the last of an F64
entry is not touched (R201). -/
def entryF (d : BitVec 7) (t : BitVec 3) (n : Nat) (rd : Bool) : OpField :=
  let w := entryRegs t
  ⟨14, d, n * w, if w = 4 then n * w - 1 else n * w, true, rd, false⟩
/-- The candidate value of a selection (R201). -/
def selRegs (t : BitVec 3) : Nat := if t = 1 then 2 else 1

/-- Three-operand form d, a, b at bits 14, 7, 0. -/
def dab (d a b : BitVec 7) (nd : Nat := 1) (na : Nat := 1) (nb : Nat := 1) : List OpField :=
  [dstF 14 d nd, srcF 7 a na, srcF 0 b nb]
/-- Two-operand form d, a at bits 14, 7. -/
def da (d a : BitVec 7) (nd : Nat := 1) (na : Nat := 1) : List OpField := [dstF 14 d nd, srcF 7 a na]

/-- The operand-code fields of an instruction of the group stream. `s3` tells whether an SRC3 word is
bound: without it FMA, MAD and FLDI read their destination (R169, R170, R187). -/
def operands (i : Instr) (s3 : Bool) : List OpField :=
  match i with
  | .bri a | .ret a => [srcF 7 a 2]
  | .calli d a => [dstF 14 d 2, srcF 7 a 2]
  | .mfs d i => [dstF 19 d (specialRegs i)]
  | .mts a _ => [srcF 12 a]
  | .mstld a => [⟨7, a, 2, 2, false, true, false⟩]
  | .add w d a b | .sub w d a b => dab d a b (regsOf w) (regsOf w) (regsOf w)
  | .addsat w _ d a b | .subsat w _ d a b | .min w _ d a b | .max w _ d a b => dab d a b (regsOf w) (regsOf w) (regsOf w)
  | .abs w d a | .neg w d a | .mov w d a => da d a (regsOf w) (regsOf w)
  | .addi d a _ => [dstF 19 d, srcF 12 a]
  | .and d a b | .or d a b | .xor d a b | .andn d a b | .orn d a b | .shl d a b | .shrU d a b | .shrS d a b
  | .rol d a b | .ror d a b | .fldxU d a b | .fldxS d a b | .bysel d a b => dab d a b
  | .not d a | .popc d a | .clz d a | .ctz d a | .brev d a => da d a
  | .shl64 d a b | .shr64U d a b | .shr64S d a b => dab d a b 2 2 1
  | .fldi d a b | .mad d a b => [if s3 then dstF 14 d else bothF 14 d, srcF 7 a, srcF 0 b]
  | .mul d a b | .mulhiS d a b | .mulhiU d a b | .divS d a b | .divU d a b | .remS d a b | .remU d a b => dab d a b
  | .mulwS d a b | .mulwU d a b => dab d a b 2 1 1
  | .mul64 d a b | .mulhi64S d a b | .mulhi64U d a b | .div64S d a b | .div64U d a b | .rem64S d a b
  | .rem64U d a b => dab d a b 2 2 2
  | .icmp t _ _ a b => let n := if t.getLsbD 1 then 2 else 1; [srcF 7 a n, srcF 0 b n]
  | .lea _ d a b => dab d a b 2 2 1
  | .ptov d _ _ => [dstF 14 d]
  | .vtop _ a => [srcF 7 a]
  | .lxgSel d a b | .lxgBelow d a b | .lxgAbove d a b | .lxgFlip d a b => dab d a b
  | .pgath d _ _ => [dstF 14 d]
  | .leqm d a | .lfoldAdd d a => da d a
  | .lfoldMin _ d a | .lfoldMax _ d a => da d a
  | .mmaskr d => [dstF 14 d]
  | .mmaskw a | .regroup a | .role a | .regsClaim a => [srcF 7 a]
  | .mpick d a b => dab d a b
  | .regsGive a b => [srcF 7 a, srcF 0 b]
  | .fadd t _ d a b | .fsub t _ d a b | .fmul t _ d a b =>
      dab d a b (regsOfArith t) (regsOfArith t) (regsOfArith t)
  | .fma t _ d a b => let n := regsOfArith t; [if s3 then dstF 14 d n else bothF 14 d n, srcF 7 a n, srcF 0 b n]
  | .fmin t d a b | .fmax t d a b | .fcpys t d a b => dab d a b (regsOfType t) (regsOfType t) (regsOfType t)
  | .fabs t d a | .fneg t d a => da d a (regsOfType t) (regsOfType t)
  | .fclass t d a => da d a 1 (regsOfType t)
  | .fscale t d a b => dab d a b (regsOfType t) (regsOfType t) 1
  | .fcmp _ t _ a b => [srcF 7 a (regsOfType t), srcF 0 b (regsOfType t)]
  | .cvt g d a s _ => da d a (regsOfCode g) (regsOfCode s)
  | .packMx8 _ d a _ | .unpkMx8 _ d a _ => da d a
  | .packMx4 d a _ | .packTb4 d a _ | .unpkMx4 d a _ | .unpkTb4 d a _ => da d a
  | .rcp d a _ | .rsq d a _ | .sqrt d a _ | .exp2 d a _ | .log2 d a _ | .sinpi d a _ | .cospi d a _ => da d a
  | .lacAdd t _ a => [srcF 7 a (if t = 0 then 2 else 1)]
  | .lacClrBind _ a => [srcF 7 a]
  | .lacRnd d _ f _ => [dstF 14 d (if f = 0 then 2 else 1)]
  | .lacLd _ a | .lacSt _ a => [srcF 7 a 2]
  | .maxi t d a b | .mini t d a b => [entryF d t 1 true, srcF 7 a (selRegs t), srcF 0 b]
  | .topk t d a b => [entryF d t 1 false, srcF 7 a (selRegs t), srcF 0 b]
  | .topkm t d a b => [entryF d t 2 true, srcF 7 a (selRegs t), srcF 0 b]
  | .estatMean d a f _ | .estatSprd d a f _ => let n := if f = 0 then 2 else 1; da d a n n
  | .estatRank d a f => da d a 1 (if f = 0 then 2 else 1)
  | .estatQnt d a f => let n := if f = 0 then 2 else 1; da d a n n
  | .ld f d b _ | .ldAcq f d b _ _ => [dstF 16 d (regsOfLoad f), srcF 9 b 2]
  | .st f d b _ | .stRel f d b _ _ | .wst f d b _ => [srcF 16 d (regsOfStore f), srcF 9 b 2]
  | .ldh f d b _ | .ldhWfKeep f d b _ | .ldhWfClr f d b _ => [dstF 16 d (regsOfLoad f), srcF 9 b]
  | .sth f d b _ | .sthF f d b _ => [srcF 16 d (regsOfStore f), srcF 9 b]
  | .atomAdd w d a b | .atomMinS w d a b | .atomMinU w d a b | .atomMaxS w d a b | .atomMaxU w d a b
  | .atomExch w d a b | .atomCas w d a b | .atomAnd w d a b | .atomOr w d a b | .atomXor w d a b
  | .atomFadd w d a b => dab d a b (regsOf w) 2 (regsOf w)
  | .lr w d a => da d a (regsOf w) 2
  | .sc w d a b => dab d a b 1 2 (regsOf w)
  | .ldbMx8 d a b | .ldbMx4 d a b | .ldbTb4 d a b => dab d a b 1 2 2
  | .stbMx8 d a b | .stbMx4 d a b | .stbTb4 d a b => [srcF 14 d, srcF 7 a 2, srcF 0 b 2]
  | .ldhbMx8 d a _ | .ldhbMx4 d a _ | .ldhbTb4 d a _ => da d a 1 2
  | .sthbMx8 d a _ | .sthbMx4 d a _ | .sthbTb4 d a _ => [srcF 14 d, srcF 7 a 2]
  | .cwbL1 a | .cinvL1 a | .cwbL2 a | .prefL1 a | .prefL2 a => [srcF 7 a 2]
  | .hod a b => [srcF 7 a 2, srcF 0 b]
  | .hodChain a => [srcF 7 a 2]
  | .bead _ a => [srcF 7 a]
  | .vsend a => [⟨7, a, 1, 1, false, true, false⟩]
  | .vrecv d => [dstF 14 d]
  | .spawn a b | .cwset a b => [srcF 7 a 2, srcF 0 b 2]
  | .launch d a b => dab d a b 1 2 1
  | .barArv _ a | .barSync _ a => [srcF 7 a]
  | .barSyncm _ a b => [srcF 7 a, srcF 0 b]
  | .src3 c => [⟨0, c, 1, 1, false, true, true⟩]
  | .prefetch _ b _ => [⟨13, b, 2, 2, false, true, false⟩]
  | _ => []

/-- The predicate fields an instruction reads (R104), as register numbers. -/
def predSources (i : Instr) : List (BitVec 3) :=
  match i with
  | .pand _ _ a _ b | .por _ _ a _ b | .pxor _ _ a _ b => [a, b]
  | .pmov _ _ a | .ptov _ _ a | .ltestAll _ _ a | .ltestAny _ _ a | .ltestSame _ _ a | .pgath _ _ a
  | .mtestAll _ _ a | .mtestAny _ _ a => [a]
  | .bra c _ | .call c _ => [c.extractLsb' 0 3]
  | _ => []

/-- How an instruction stands to SRC3 (R108, R110): none, optional or required, with the number of
registers the operand takes. -/
inductive Third where
  | no
  | optional (n : Nat)
  | required (n : Nat)
  deriving DecidableEq, Repr

/-- The third source of an instruction (R110, Table 8.1, R242). -/
def thirdSource (i : Instr) : Third :=
  match i with
  | .fma t _ _ _ _ => .optional (regsOfArith t)
  | .mad _ _ _ | .fldi _ _ _ => .optional 1
  | .atomCas w _ _ _ => .required (regsOf w)
  | .topk _ _ _ _ | .topkm _ _ _ _ | .estatQnt _ _ _ => .required 1
  | .estatRank _ _ f => .required (if f = 0 then 2 else 1)
  | _ => .no

/-- Whether stochastic rounding is legal on the instruction (R39, R186). -/
def srOk (i : Instr) : Bool :=
  match i with
  | .cvt g _ _ _ _ => decide (2 ≤ g.toNat ∧ g.toNat ≤ 6)
  | .packMx8 _ _ _ _ | .packMx4 _ _ _ | .packTb4 _ _ _ => true
  | _ => false

/-- The rounding field of an instruction that rounds (R38, R186, R189, R243); `none` when it does not
round. FSCALE and ATOM.FADD have no field and round as rm3 = 000. -/
def roundField (i : Instr) : Option (BitVec 3) :=
  match i with
  | .fadd _ m _ _ _ | .fsub _ m _ _ _ | .fmul _ m _ _ _ | .fma _ m _ _ _ => some m
  | .fscale _ _ _ _ => some 0
  | .cvt _ _ _ _ m => some m
  | .packMx8 _ _ _ m | .unpkMx8 _ _ _ m => some m
  | .packMx4 _ _ m | .packTb4 _ _ m | .unpkMx4 _ _ m | .unpkTb4 _ _ m => some m
  | .rcp _ _ m | .rsq _ _ m | .sqrt _ _ m | .exp2 _ _ m | .log2 _ _ m | .sinpi _ _ m | .cospi _ _ m => some m
  | .lacRnd _ _ _ m => some m
  | .estatMean _ _ _ m | .estatSprd _ _ _ m => some m
  | .atomFadd _ _ _ _ => some 0
  | _ => none

/-- The architectural latency in issue steps (Table 5.5), or `none` for an interlocked instruction and
for one that writes no register. -/
def latency (i : Instr) : Option Nat :=
  match i with
  | .pand _ _ _ _ _ | .por _ _ _ _ _ | .pxor _ _ _ _ _ | .pmov _ _ _ | .ptov _ _ _ | .vtop _ _ => some 1
  | .add w _ _ _ | .sub w _ _ _ => some (if w = 1 then 3 else 2)
  | .addsat w _ _ _ _ | .subsat w _ _ _ _ | .min w _ _ _ _ | .max w _ _ _ _ => some (if w = 1 then 3 else 2)
  | .abs w _ _ | .neg w _ _ | .mov w _ _ => some (if w = 1 then 3 else 2)
  | .addi _ _ _ | .lea _ _ _ _ => some 2
  | .and _ _ _ | .or _ _ _ | .xor _ _ _ | .andn _ _ _ | .orn _ _ _ | .not _ _ | .shl _ _ _ | .shrU _ _ _ | .shrS _ _ _
  | .rol _ _ _ | .ror _ _ _ | .shl64 _ _ _ | .shr64U _ _ _ | .shr64S _ _ _ | .popc _ _ | .clz _ _ | .ctz _ _
  | .brev _ _ | .fldxU _ _ _ | .fldxS _ _ _ | .fldi _ _ _ | .bysel _ _ _ => some 2
  | .icmp _ _ _ _ _ => some 2
  | .mul _ _ _ | .mulhiS _ _ _ | .mulhiU _ _ _ | .mad _ _ _ => some 4
  | .mulwS _ _ _ | .mulwU _ _ _ | .mul64 _ _ _ | .mulhi64S _ _ _ | .mulhi64U _ _ _ => some 6
  | .divS _ _ _ | .divU _ _ _ | .remS _ _ _ | .remU _ _ _ => some 20
  | .div64S _ _ _ | .div64U _ _ _ | .rem64S _ _ _ | .rem64U _ _ _ => some 36
  | .mfs _ _ | .mts _ _ => some 2
  | .call _ _ => some 2
  | .lxgSel _ _ _ | .lxgBelow _ _ _ | .lxgAbove _ _ _ | .lxgFlip _ _ _ | .ltestAll _ _ _ | .ltestAny _ _ _
  | .ltestSame _ _ _ | .pgath _ _ _ | .leqm _ _ | .lfoldAdd _ _ | .lfoldMin _ _ _ | .lfoldMax _ _ _ => some 4
  | .mmaskr _ | .mtestAll _ _ _ | .mtestAny _ _ _ | .mpick _ _ _ => some 4
  | .fadd t _ _ _ _ | .fsub t _ _ _ _ | .fmul t _ _ _ _ | .fma t _ _ _ _ => some (if t = 1 then 6 else 4)
  | .fmin t _ _ _ | .fmax t _ _ _ | .fcpys t _ _ _ | .fscale t _ _ _ => some (if t = 1 then 3 else 2)
  | .fabs t _ _ | .fneg t _ _ | .fclass t _ _ => some (if t = 1 then 3 else 2)
  | .fcmp _ _ _ _ _ => some 2
  | .cvt _ _ _ _ _ => some 4
  | .packMx8 _ _ _ _ | .unpkMx8 _ _ _ _ => some 6
  | .packMx4 _ _ _ | .packTb4 _ _ _ | .unpkMx4 _ _ _ | .unpkTb4 _ _ _ => some 6
  | .rcp _ _ _ | .rsq _ _ _ | .sqrt _ _ _ | .exp2 _ _ _ | .log2 _ _ _ | .sinpi _ _ _ | .cospi _ _ _ => some 8
  | .maxi _ _ _ _ | .mini _ _ _ _ => some 4
  | _ => none

/-! ## Static legality -/

/-- The register kind of an operand code and the index within it: 0 v, 1 k, 2 s, 3 q (Table 5.2). -/
def kindIndex (c : BitVec 7) : Nat × Nat × Nat :=
  let n := c.toNat
  if n < 0x60 then (0, n, 96) else if n < 0x70 then (1, n - 0x60, 16) else if n < 0x78 then (2, n - 0x70, 8)
  else (3, n - 0x78, 6)

/-- R102, R103, R234: an operand code names a register group that is aligned and inside its kind; zero
is always legal; the literal only where the field may hold one. -/
def fieldLegal (f : OpField) : Bool :=
  if f.code = 0x7F then f.lit
  else if f.code = 0x7E then true
  else
    let (_, idx, size) := kindIndex f.code
    decide (f.group ≠ 0) && decide (idx % f.group = 0) && decide (idx + f.group ≤ size)

/-- A T-source code (Table 11.2). -/
def tsrcLegal (c : BitVec 7) : Bool :=
  decide (c.toNat ≤ 0x0F) || decide (0x20 ≤ c.toNat ∧ c.toNat ≤ 0x24) || c == 0x7E || c == 0x7F
/-- A T-dest code (Table 11.2). -/
def tdstLegal (c : BitVec 7) : Bool := decide (c.toNat ≤ 0x0F) || c == 0x20 || c == 0x7E
/-- The T-source fields of a Trowel instruction. -/
def tSources (i : Instr) : List (BitVec 7) :=
  match i with
  | .tmov _ a => [a]
  | .tadd _ a b | .tsub _ a b | .tmul _ a b => [a, b]
  | .tbarArv _ c => [c]
  | .mset _ a b | .madv _ a b => [a, b]
  | .mcpy _ a _ => [a]
  | .tscl _ x => [x]
  | .gset _ x => [x]
  | .gseed _ a b | .gorg _ a b => [a, b]
  | .trecOn b l _ _ | .trecExt b l => [b, l]
  | .trev m b _ _ _ => [m, b]
  | _ => []
/-- The T-dest fields of a Trowel instruction. -/
def tDests (i : Instr) : List (BitVec 7) :=
  match i with
  | .tmov d _ => [d]
  | .tadd d _ _ | .tsub d _ _ | .tmul d _ _ => [d]
  | _ => []

/-- Exactly one of six path bits is set (R247). -/
def oneBit6 (p : BitVec 6) : Bool := p == 1 || p == 2 || p == 4 || p == 8 || p == 16 || p == 32
/-- An operand code of a v or k register (R254). -/
def isVK (c : BitVec 7) : Bool := decide (c.toNat < 0x70)
/-- A code that names a register group (R201). -/
def namesGroup (c : BitVec 7) : Bool := decide (c.toNat < 0x7E)
/-- A rounding field without SR (R38, R39). -/
def rm3Plain (m : BitVec 3) : Bool := !(m == 6 || m == 7)

/-- The checks of an encoding beyond operand codes: field values the opcode map does not list
(R99, R104, R105, R122, R123, R191, R197, R201, R204, R234, R238 to R240, R247, R253, R254, R261). -/
def valuesLegal (i : Instr) : Bool :=
  match i with
  | .bra c _ | .call c _ => !(c == 8)
  | .mfs _ i => decide (specialRegs i ≠ 0)
  | .mts _ i => i == 0x010
  | .mstld a => a == 0x78 || a == 0x7A || a == 0x7C
  | .icmp _ r _ _ _ => decide (r.toNat < 6)
  | .lea s _ _ _ => decide (s.toNat < 10)
  | .fadd _ m _ _ _ | .fsub _ m _ _ _ | .fmul _ m _ _ _ | .fma _ m _ _ _ => rm3Plain m
  | .cvt g _ _ s m =>
      !(g == 7) && !(s == 7) && !(g == s) && !(decide (8 ≤ g.toNat) && decide (8 ≤ s.toNat)) && !(m == 7) &&
        (!(m == 6) || srOk i)
  | .packMx8 _ _ _ m => !(m == 7)
  | .packMx4 _ _ m | .packTb4 _ _ m => !(m == 7)
  | .unpkMx8 _ _ _ m => rm3Plain m
  | .unpkMx4 _ _ m | .unpkTb4 _ _ m => rm3Plain m
  | .rcp _ _ m | .rsq _ _ m | .sqrt _ _ m | .exp2 _ _ m | .log2 _ _ m | .sinpi _ _ m | .cospi _ _ m => rm3Plain m
  | .lacRnd _ _ f m => decide (f.toNat ≤ 3) && rm3Plain m
  | .maxi t d _ _ | .mini t d _ _ | .topk t d _ _ | .topkm t d _ _ => decide (t.toNat ≤ 5) && namesGroup d
  | .estatMean _ _ _ m | .estatSprd _ _ _ m => rm3Plain m
  | .ld f _ _ _ | .ldh f _ _ _ | .ldhWfKeep f _ _ _ | .ldhWfClr f _ _ _ => !(f == 7)
  | .ldAcq f _ _ s _ => !(f == 7) && !(s == 7)
  | .st f _ _ _ | .sth f _ _ _ | .sthF f _ _ _ | .wst f _ _ _ => decide (f.toNat ≤ 4)
  | .stRel f _ _ s _ => decide (f.toNat ≤ 4) && !(s == 7)
  | .ldhbMx8 _ _ q | .ldhbMx4 _ _ q | .ldhbTb4 _ _ q => !(q == 3)
  | .sthbMx8 _ _ q | .sthbMx4 _ _ q | .sthbTb4 _ _ q => decide (q.toNat ≤ 1)
  | .fence s => !(s == 7)
  | .fenceX s p q => !(s == 7) && oneBit6 p && oneBit6 q
  | .vsend a => isVK a
  | .vrecv d => isVK d
  | .prefetch l _ _ => !(l == 3)
  | .tst _ _ _ _ _ r => rm3Plain r
  | .tzero _ m => !(m == 3)
  | .mma _ _ _ a b => decide (a.toNat < 0x18) && decide (b.toNat < 0x18)
  | .tact _ k => !(k == 3)
  | .tcvt _ m => rm3Plain m
  | _ => true

/-- The operand fields whose codes the encoding itself checks; the code in an SRC3 word is checked by
the instruction it binds to (R110). -/
def checkedFields (i : Instr) : List OpField :=
  match i with
  | .src3 _ => []
  | _ => operands i true

/-- An instruction the opcode map lists, with legal field values and operand codes. -/
def legal (i : Instr) : Bool :=
  valuesLegal i && (checkedFields i).all fieldLegal && (tSources i).all tsrcLegal && (tDests i).all tdstLegal

end Sys2Proof.Machine
end

