-- ==== Sys2Proof/Decode.lean ====
section
/-! DEFINITION. The decoder, total on any bytes, and the encoder after it, both from the opcode map
(R98 to R124, Tables 5.1 to 5.13) and the encodings of each instruction. A word whose major, minor
value or reserved bits the map does not list is rejected by name (R123); operand codes and field values
of a listed word are judged when it issues (`Sys2Proof.Machine.legal`). -/

namespace Sys2Proof

/-- Why a word is not an instruction (R123). -/
inductive DecodeError where
  /-- Majors 0x0F, 0x1D to 0x1F, 0x23, 0x2F and 0x3B. -/
  | unassignedMajor
  /-- Majors 0x3D and 0x3E, function header words included (R62). -/
  | notAnInstruction
  /-- An unlisted fn, sub-field, cond or kind value, or a nonzero reserved bit, under an assigned major. -/
  | unlistedValue
  /-- Fewer than four bytes. -/
  | tooShort
  deriving DecidableEq, Repr

/-- `len` bits of a word from bit `lo` up. -/
def fld (w : Word) (lo len : Nat) : BitVec len := w.extractLsb' lo len

/-- The words of major 0x00 (Tables 5.7 to 5.12). -/
def decodeMajor00 (w : Word) : Option Instr :=
  some (.bra (fld w 22 4) (fld w 0 22))

/-- The words of major 0x01 (Tables 5.7 to 5.12). -/
def decodeMajor01 (w : Word) : Option Instr :=
  some (.call (fld w 22 4) (fld w 0 22))

/-- The words of major 0x02 (Tables 5.7 to 5.12). -/
def decodeMajor02 (w : Word) : Option Instr :=
  if fld w 22 4 = 0#4 then some (.rpush (fld w 0 22)) else
  none

/-- The words of major 0x03 (Tables 5.7 to 5.12). -/
def decodeMajor03 (w : Word) : Option Instr :=
  if fld w 0 7 = 0#7 ∧ fld w 14 12 = 0#12 then some (.bri (fld w 7 7)) else
  if fld w 0 7 = 0#7 ∧ fld w 21 5 = 1#5 then some (.calli (fld w 14 7) (fld w 7 7)) else
  if fld w 0 7 = 0#7 ∧ fld w 14 12 = 256#12 then some (.ret (fld w 7 7)) else
  if fld w 0 26 = 6291456#26 then some .regang else
  if fld w 0 26 = 8388608#26 then some .exit else
  if fld w 0 26 = 10485760#26 then some .brk else
  if fld w 0 26 = 12582912#26 then some .nop else
  none

/-- The words of major 0x04 (Tables 5.7 to 5.12). -/
def decodeMajor04 (w : Word) : Option Instr :=
  if fld w 12 14 = 0#14 then some (.trap (fld w 0 12)) else
  none

/-- The words of major 0x05 (Tables 5.7 to 5.12). -/
def decodeMajor05 (w : Word) : Option Instr :=
  if fld w 12 7 = 0#7 then some (.mfs (fld w 19 7) (fld w 0 12)) else
  none

/-- The words of major 0x06 (Tables 5.7 to 5.12). -/
def decodeMajor06 (w : Word) : Option Instr :=
  if fld w 19 7 = 0#7 then some (.mts (fld w 12 7) (fld w 0 12)) else
  none

/-- The words of major 0x07 (Tables 5.7 to 5.12). -/
def decodeMajor07 (w : Word) : Option Instr :=
  if fld w 0 7 = 0#7 ∧ fld w 14 12 = 0#12 then some (.mstld (fld w 7 7)) else
  if fld w 0 26 = 2097152#26 then some .hret else
  none

/-- The words of major 0x08 (Tables 5.7 to 5.12). -/
def decodeMajor08 (w : Word) : Option Instr :=
  if fld w 21 5 = 0#5 then some (.add (fld w 26 1) (fld w 14 7) (fld w 7 7) (fld w 0 7)) else
  if fld w 21 5 = 1#5 then some (.sub (fld w 26 1) (fld w 14 7) (fld w 7 7) (fld w 0 7)) else
  if fld w 22 4 = 1#4 then some (.addsat (fld w 26 1) (fld w 21 1) (fld w 14 7) (fld w 7 7) (fld w 0 7)) else
  if fld w 22 4 = 2#4 then some (.subsat (fld w 26 1) (fld w 21 1) (fld w 14 7) (fld w 7 7) (fld w 0 7)) else
  if fld w 22 4 = 3#4 then some (.min (fld w 26 1) (fld w 21 1) (fld w 14 7) (fld w 7 7) (fld w 0 7)) else
  if fld w 22 4 = 4#4 then some (.max (fld w 26 1) (fld w 21 1) (fld w 14 7) (fld w 7 7) (fld w 0 7)) else
  if fld w 0 7 = 0#7 ∧ fld w 21 5 = 10#5 then some (.abs (fld w 26 1) (fld w 14 7) (fld w 7 7)) else
  if fld w 0 7 = 0#7 ∧ fld w 21 5 = 11#5 then some (.neg (fld w 26 1) (fld w 14 7) (fld w 7 7)) else
  if fld w 0 7 = 0#7 ∧ fld w 21 5 = 12#5 then some (.mov (fld w 26 1) (fld w 14 7) (fld w 7 7)) else
  none

/-- The words of major 0x09 (Tables 5.7 to 5.12). -/
def decodeMajor09 (w : Word) : Option Instr :=
  if fld w 21 5 = 0#5 then some (.add (fld w 26 1) (fld w 14 7) (fld w 7 7) (fld w 0 7)) else
  if fld w 21 5 = 1#5 then some (.sub (fld w 26 1) (fld w 14 7) (fld w 7 7) (fld w 0 7)) else
  if fld w 22 4 = 1#4 then some (.addsat (fld w 26 1) (fld w 21 1) (fld w 14 7) (fld w 7 7) (fld w 0 7)) else
  if fld w 22 4 = 2#4 then some (.subsat (fld w 26 1) (fld w 21 1) (fld w 14 7) (fld w 7 7) (fld w 0 7)) else
  if fld w 22 4 = 3#4 then some (.min (fld w 26 1) (fld w 21 1) (fld w 14 7) (fld w 7 7) (fld w 0 7)) else
  if fld w 22 4 = 4#4 then some (.max (fld w 26 1) (fld w 21 1) (fld w 14 7) (fld w 7 7) (fld w 0 7)) else
  if fld w 0 7 = 0#7 ∧ fld w 21 5 = 10#5 then some (.abs (fld w 26 1) (fld w 14 7) (fld w 7 7)) else
  if fld w 0 7 = 0#7 ∧ fld w 21 5 = 11#5 then some (.neg (fld w 26 1) (fld w 14 7) (fld w 7 7)) else
  if fld w 0 7 = 0#7 ∧ fld w 21 5 = 12#5 then some (.mov (fld w 26 1) (fld w 14 7) (fld w 7 7)) else
  none

/-- The words of major 0x0A (Tables 5.7 to 5.12). -/
def decodeMajor0A (w : Word) : Option Instr :=
  some (.addi (fld w 19 7) (fld w 12 7) (fld w 0 12))

/-- The words of major 0x0B (Tables 5.7 to 5.12). -/
def decodeMajor0B (w : Word) : Option Instr :=
  if fld w 21 5 = 0#5 then some (.and (fld w 14 7) (fld w 7 7) (fld w 0 7)) else
  if fld w 21 5 = 1#5 then some (.or (fld w 14 7) (fld w 7 7) (fld w 0 7)) else
  if fld w 21 5 = 2#5 then some (.xor (fld w 14 7) (fld w 7 7) (fld w 0 7)) else
  if fld w 21 5 = 3#5 then some (.andn (fld w 14 7) (fld w 7 7) (fld w 0 7)) else
  if fld w 21 5 = 4#5 then some (.orn (fld w 14 7) (fld w 7 7) (fld w 0 7)) else
  if fld w 0 7 = 0#7 ∧ fld w 21 5 = 5#5 then some (.not (fld w 14 7) (fld w 7 7)) else
  if fld w 21 5 = 6#5 then some (.shl (fld w 14 7) (fld w 7 7) (fld w 0 7)) else
  if fld w 21 5 = 7#5 then some (.shrU (fld w 14 7) (fld w 7 7) (fld w 0 7)) else
  if fld w 21 5 = 8#5 then some (.shrS (fld w 14 7) (fld w 7 7) (fld w 0 7)) else
  if fld w 21 5 = 9#5 then some (.rol (fld w 14 7) (fld w 7 7) (fld w 0 7)) else
  if fld w 21 5 = 10#5 then some (.ror (fld w 14 7) (fld w 7 7) (fld w 0 7)) else
  if fld w 21 5 = 11#5 then some (.shl64 (fld w 14 7) (fld w 7 7) (fld w 0 7)) else
  if fld w 21 5 = 12#5 then some (.shr64U (fld w 14 7) (fld w 7 7) (fld w 0 7)) else
  if fld w 21 5 = 13#5 then some (.shr64S (fld w 14 7) (fld w 7 7) (fld w 0 7)) else
  if fld w 0 7 = 0#7 ∧ fld w 21 5 = 14#5 then some (.popc (fld w 14 7) (fld w 7 7)) else
  if fld w 0 7 = 0#7 ∧ fld w 21 5 = 15#5 then some (.clz (fld w 14 7) (fld w 7 7)) else
  if fld w 0 7 = 0#7 ∧ fld w 21 5 = 16#5 then some (.ctz (fld w 14 7) (fld w 7 7)) else
  if fld w 0 7 = 0#7 ∧ fld w 21 5 = 17#5 then some (.brev (fld w 14 7) (fld w 7 7)) else
  if fld w 21 5 = 18#5 then some (.fldxU (fld w 14 7) (fld w 7 7) (fld w 0 7)) else
  if fld w 21 5 = 19#5 then some (.fldxS (fld w 14 7) (fld w 7 7) (fld w 0 7)) else
  if fld w 21 5 = 20#5 then some (.fldi (fld w 14 7) (fld w 7 7) (fld w 0 7)) else
  if fld w 21 5 = 21#5 then some (.bysel (fld w 14 7) (fld w 7 7) (fld w 0 7)) else
  none

/-- The words of major 0x0C (Tables 5.7 to 5.12). -/
def decodeMajor0C (w : Word) : Option Instr :=
  if fld w 21 5 = 0#5 then some (.mul (fld w 14 7) (fld w 7 7) (fld w 0 7)) else
  if fld w 21 5 = 1#5 then some (.mulhiS (fld w 14 7) (fld w 7 7) (fld w 0 7)) else
  if fld w 21 5 = 2#5 then some (.mulhiU (fld w 14 7) (fld w 7 7) (fld w 0 7)) else
  if fld w 21 5 = 3#5 then some (.mulwS (fld w 14 7) (fld w 7 7) (fld w 0 7)) else
  if fld w 21 5 = 4#5 then some (.mulwU (fld w 14 7) (fld w 7 7) (fld w 0 7)) else
  if fld w 21 5 = 5#5 then some (.mad (fld w 14 7) (fld w 7 7) (fld w 0 7)) else
  if fld w 21 5 = 6#5 then some (.mul64 (fld w 14 7) (fld w 7 7) (fld w 0 7)) else
  if fld w 21 5 = 7#5 then some (.mulhi64S (fld w 14 7) (fld w 7 7) (fld w 0 7)) else
  if fld w 21 5 = 8#5 then some (.mulhi64U (fld w 14 7) (fld w 7 7) (fld w 0 7)) else
  if fld w 21 5 = 9#5 then some (.divS (fld w 14 7) (fld w 7 7) (fld w 0 7)) else
  if fld w 21 5 = 10#5 then some (.divU (fld w 14 7) (fld w 7 7) (fld w 0 7)) else
  if fld w 21 5 = 11#5 then some (.remS (fld w 14 7) (fld w 7 7) (fld w 0 7)) else
  if fld w 21 5 = 12#5 then some (.remU (fld w 14 7) (fld w 7 7) (fld w 0 7)) else
  if fld w 21 5 = 13#5 then some (.div64S (fld w 14 7) (fld w 7 7) (fld w 0 7)) else
  if fld w 21 5 = 14#5 then some (.div64U (fld w 14 7) (fld w 7 7) (fld w 0 7)) else
  if fld w 21 5 = 15#5 then some (.rem64S (fld w 14 7) (fld w 7 7) (fld w 0 7)) else
  if fld w 21 5 = 16#5 then some (.rem64U (fld w 14 7) (fld w 7 7) (fld w 0 7)) else
  none

/-- The words of major 0x0D (Tables 5.7 to 5.12). -/
def decodeMajor0D (w : Word) : Option Instr :=
  if fld w 17 4 = 0#4 then some (.icmp (fld w 24 2) (fld w 21 3) (fld w 14 3) (fld w 7 7) (fld w 0 7)) else
  none

/-- The words of major 0x0E (Tables 5.7 to 5.12). -/
def decodeMajor0E (w : Word) : Option Instr :=
  some (.lea (fld w 21 5) (fld w 14 7) (fld w 7 7) (fld w 0 7))

/-- The words of major 0x10 (Tables 5.7 to 5.12). -/
def decodeMajor10 (w : Word) : Option Instr :=
  if fld w 4 3 = 0#3 ∧ fld w 11 3 = 0#3 ∧ fld w 17 9 = 0#9 then some (.pand (fld w 14 3) (fld w 10 1) (fld w 7 3) (fld w 3 1) (fld w 0 3)) else
  if fld w 4 3 = 0#3 ∧ fld w 11 3 = 0#3 ∧ fld w 17 9 = 16#9 then some (.por (fld w 14 3) (fld w 10 1) (fld w 7 3) (fld w 3 1) (fld w 0 3)) else
  if fld w 4 3 = 0#3 ∧ fld w 11 3 = 0#3 ∧ fld w 17 9 = 32#9 then some (.pxor (fld w 14 3) (fld w 10 1) (fld w 7 3) (fld w 3 1) (fld w 0 3)) else
  if fld w 0 7 = 0#7 ∧ fld w 11 3 = 0#3 ∧ fld w 17 9 = 48#9 then some (.pmov (fld w 14 3) (fld w 10 1) (fld w 7 3)) else
  if fld w 0 7 = 0#7 ∧ fld w 11 3 = 0#3 ∧ fld w 21 5 = 4#5 then some (.ptov (fld w 14 7) (fld w 10 1) (fld w 7 3)) else
  if fld w 0 7 = 0#7 ∧ fld w 17 9 = 80#9 then some (.vtop (fld w 14 3) (fld w 7 7)) else
  none

/-- The words of major 0x11 (Tables 5.7 to 5.12). -/
def decodeMajor11 (w : Word) : Option Instr :=
  if fld w 21 5 = 0#5 then some (.lxgSel (fld w 14 7) (fld w 7 7) (fld w 0 7)) else
  if fld w 21 5 = 1#5 then some (.lxgBelow (fld w 14 7) (fld w 7 7) (fld w 0 7)) else
  if fld w 21 5 = 2#5 then some (.lxgAbove (fld w 14 7) (fld w 7 7) (fld w 0 7)) else
  if fld w 21 5 = 3#5 then some (.lxgFlip (fld w 14 7) (fld w 7 7) (fld w 0 7)) else
  if fld w 0 7 = 0#7 ∧ fld w 11 3 = 0#3 ∧ fld w 17 9 = 64#9 then some (.ltestAll (fld w 14 3) (fld w 10 1) (fld w 7 3)) else
  if fld w 0 7 = 0#7 ∧ fld w 11 3 = 0#3 ∧ fld w 17 9 = 80#9 then some (.ltestAny (fld w 14 3) (fld w 10 1) (fld w 7 3)) else
  if fld w 0 7 = 0#7 ∧ fld w 11 3 = 0#3 ∧ fld w 17 9 = 96#9 then some (.ltestSame (fld w 14 3) (fld w 10 1) (fld w 7 3)) else
  if fld w 0 7 = 0#7 ∧ fld w 11 3 = 0#3 ∧ fld w 21 5 = 7#5 then some (.pgath (fld w 14 7) (fld w 10 1) (fld w 7 3)) else
  if fld w 0 7 = 0#7 ∧ fld w 21 5 = 8#5 then some (.leqm (fld w 14 7) (fld w 7 7)) else
  if fld w 0 7 = 0#7 ∧ fld w 21 5 = 9#5 then some (.lfoldAdd (fld w 14 7) (fld w 7 7)) else
  if fld w 0 7 = 0#7 ∧ fld w 22 4 = 5#4 then some (.lfoldMin (fld w 21 1) (fld w 14 7) (fld w 7 7)) else
  if fld w 0 7 = 0#7 ∧ fld w 22 4 = 6#4 then some (.lfoldMax (fld w 21 1) (fld w 14 7) (fld w 7 7)) else
  none

/-- The words of major 0x12 (Tables 5.7 to 5.12). -/
def decodeMajor12 (w : Word) : Option Instr :=
  if fld w 0 14 = 0#14 ∧ fld w 21 5 = 0#5 then some (.mmaskr (fld w 14 7)) else
  if fld w 0 7 = 0#7 ∧ fld w 14 12 = 128#12 then some (.mmaskw (fld w 7 7)) else
  if fld w 0 7 = 0#7 ∧ fld w 11 3 = 0#3 ∧ fld w 17 9 = 32#9 then some (.mtestAll (fld w 14 3) (fld w 10 1) (fld w 7 3)) else
  if fld w 0 7 = 0#7 ∧ fld w 11 3 = 0#3 ∧ fld w 17 9 = 48#9 then some (.mtestAny (fld w 14 3) (fld w 10 1) (fld w 7 3)) else
  if fld w 21 5 = 4#5 then some (.mpick (fld w 14 7) (fld w 7 7) (fld w 0 7)) else
  if fld w 0 7 = 0#7 ∧ fld w 14 12 = 640#12 then some (.regroup (fld w 7 7)) else
  none

/-- The words of major 0x13 (Tables 5.7 to 5.12). -/
def decodeMajor13 (w : Word) : Option Instr :=
  if fld w 0 7 = 0#7 ∧ fld w 14 12 = 0#12 then some (.role (fld w 7 7)) else
  if fld w 14 12 = 128#12 then some (.regsGive (fld w 7 7) (fld w 0 7)) else
  if fld w 0 7 = 0#7 ∧ fld w 14 12 = 256#12 then some (.regsClaim (fld w 7 7)) else
  none

/-- The words of major 0x14 (Tables 5.7 to 5.12). -/
def decodeMajor14 (w : Word) : Option Instr :=
  if fld w 24 2 = 0#2 then some (.fadd (fld w 26 2) (fld w 21 3) (fld w 14 7) (fld w 7 7) (fld w 0 7)) else
  if fld w 24 2 = 1#2 then some (.fsub (fld w 26 2) (fld w 21 3) (fld w 14 7) (fld w 7 7) (fld w 0 7)) else
  if fld w 24 2 = 2#2 then some (.fmul (fld w 26 2) (fld w 21 3) (fld w 14 7) (fld w 7 7) (fld w 0 7)) else
  if fld w 24 2 = 3#2 then some (.fma (fld w 26 2) (fld w 21 3) (fld w 14 7) (fld w 7 7) (fld w 0 7)) else
  none

/-- The words of major 0x15 (Tables 5.7 to 5.12). -/
def decodeMajor15 (w : Word) : Option Instr :=
  if fld w 24 2 = 0#2 then some (.fadd (fld w 26 2) (fld w 21 3) (fld w 14 7) (fld w 7 7) (fld w 0 7)) else
  if fld w 24 2 = 1#2 then some (.fsub (fld w 26 2) (fld w 21 3) (fld w 14 7) (fld w 7 7) (fld w 0 7)) else
  if fld w 24 2 = 2#2 then some (.fmul (fld w 26 2) (fld w 21 3) (fld w 14 7) (fld w 7 7) (fld w 0 7)) else
  if fld w 24 2 = 3#2 then some (.fma (fld w 26 2) (fld w 21 3) (fld w 14 7) (fld w 7 7) (fld w 0 7)) else
  none

/-- The words of major 0x16 (Tables 5.7 to 5.12). -/
def decodeMajor16 (w : Word) : Option Instr :=
  if fld w 24 2 = 0#2 then some (.fadd (fld w 26 2) (fld w 21 3) (fld w 14 7) (fld w 7 7) (fld w 0 7)) else
  if fld w 24 2 = 1#2 then some (.fsub (fld w 26 2) (fld w 21 3) (fld w 14 7) (fld w 7 7) (fld w 0 7)) else
  if fld w 24 2 = 2#2 then some (.fmul (fld w 26 2) (fld w 21 3) (fld w 14 7) (fld w 7 7) (fld w 0 7)) else
  if fld w 24 2 = 3#2 then some (.fma (fld w 26 2) (fld w 21 3) (fld w 14 7) (fld w 7 7) (fld w 0 7)) else
  none

/-- The words of major 0x17 (Tables 5.7 to 5.12). -/
def decodeMajor17 (w : Word) : Option Instr :=
  if fld w 24 2 = 0#2 then some (.fadd (fld w 26 2) (fld w 21 3) (fld w 14 7) (fld w 7 7) (fld w 0 7)) else
  if fld w 24 2 = 1#2 then some (.fsub (fld w 26 2) (fld w 21 3) (fld w 14 7) (fld w 7 7) (fld w 0 7)) else
  if fld w 24 2 = 2#2 then some (.fmul (fld w 26 2) (fld w 21 3) (fld w 14 7) (fld w 7 7) (fld w 0 7)) else
  if fld w 24 2 = 3#2 then some (.fma (fld w 26 2) (fld w 21 3) (fld w 14 7) (fld w 7 7) (fld w 0 7)) else
  none

/-- The words of major 0x18 (Tables 5.7 to 5.12). -/
def decodeMajor18 (w : Word) : Option Instr :=
  if fld w 23 3 = 0#3 then some (.fmin (fld w 21 2) (fld w 14 7) (fld w 7 7) (fld w 0 7)) else
  if fld w 23 3 = 1#3 then some (.fmax (fld w 21 2) (fld w 14 7) (fld w 7 7) (fld w 0 7)) else
  if fld w 0 7 = 0#7 ∧ fld w 23 3 = 2#3 then some (.fabs (fld w 21 2) (fld w 14 7) (fld w 7 7)) else
  if fld w 0 7 = 0#7 ∧ fld w 23 3 = 3#3 then some (.fneg (fld w 21 2) (fld w 14 7) (fld w 7 7)) else
  if fld w 23 3 = 4#3 then some (.fcpys (fld w 21 2) (fld w 14 7) (fld w 7 7) (fld w 0 7)) else
  if fld w 0 7 = 0#7 ∧ fld w 23 3 = 5#3 then some (.fclass (fld w 21 2) (fld w 14 7) (fld w 7 7)) else
  if fld w 23 3 = 6#3 then some (.fscale (fld w 21 2) (fld w 14 7) (fld w 7 7) (fld w 0 7)) else
  none

/-- The words of major 0x19 (Tables 5.7 to 5.12). -/
def decodeMajor19 (w : Word) : Option Instr :=
  if fld w 17 4 = 0#4 then some (.fcmp (fld w 23 3) (fld w 21 2) (fld w 14 3) (fld w 7 7) (fld w 0 7)) else
  none

/-- The words of major 0x1A (Tables 5.7 to 5.12). -/
def decodeMajor1A (w : Word) : Option Instr :=
  if fld w 25 1 = 0#1 then some (.cvt (fld w 21 4) (fld w 14 7) (fld w 7 7) (fld w 3 4) (fld w 0 3)) else
  none

/-- The words of major 0x1B (Tables 5.7 to 5.12). -/
def decodeMajor1B (w : Word) : Option Instr :=
  if fld w 3 4 = 0#4 ∧ fld w 22 4 = 0#4 then some (.packMx8 (fld w 21 1) (fld w 14 7) (fld w 7 7) (fld w 0 3)) else
  if fld w 3 4 = 0#4 ∧ fld w 21 5 = 2#5 then some (.packMx4 (fld w 14 7) (fld w 7 7) (fld w 0 3)) else
  if fld w 3 4 = 0#4 ∧ fld w 21 5 = 3#5 then some (.packTb4 (fld w 14 7) (fld w 7 7) (fld w 0 3)) else
  if fld w 3 4 = 0#4 ∧ fld w 22 4 = 2#4 then some (.unpkMx8 (fld w 21 1) (fld w 14 7) (fld w 7 7) (fld w 0 3)) else
  if fld w 3 4 = 0#4 ∧ fld w 21 5 = 6#5 then some (.unpkMx4 (fld w 14 7) (fld w 7 7) (fld w 0 3)) else
  if fld w 3 4 = 0#4 ∧ fld w 21 5 = 7#5 then some (.unpkTb4 (fld w 14 7) (fld w 7 7) (fld w 0 3)) else
  none

/-- The words of major 0x1C (Tables 5.7 to 5.12). -/
def decodeMajor1C (w : Word) : Option Instr :=
  if fld w 3 4 = 0#4 ∧ fld w 21 5 = 0#5 then some (.rcp (fld w 14 7) (fld w 7 7) (fld w 0 3)) else
  if fld w 3 4 = 0#4 ∧ fld w 21 5 = 1#5 then some (.rsq (fld w 14 7) (fld w 7 7) (fld w 0 3)) else
  if fld w 3 4 = 0#4 ∧ fld w 21 5 = 2#5 then some (.sqrt (fld w 14 7) (fld w 7 7) (fld w 0 3)) else
  if fld w 3 4 = 0#4 ∧ fld w 21 5 = 3#5 then some (.exp2 (fld w 14 7) (fld w 7 7) (fld w 0 3)) else
  if fld w 3 4 = 0#4 ∧ fld w 21 5 = 4#5 then some (.log2 (fld w 14 7) (fld w 7 7) (fld w 0 3)) else
  if fld w 3 4 = 0#4 ∧ fld w 21 5 = 5#5 then some (.sinpi (fld w 14 7) (fld w 7 7) (fld w 0 3)) else
  if fld w 3 4 = 0#4 ∧ fld w 21 5 = 6#5 then some (.cospi (fld w 14 7) (fld w 7 7) (fld w 0 3)) else
  none

/-- The words of major 0x20 (Tables 5.7 to 5.12). -/
def decodeMajor20 (w : Word) : Option Instr :=
  if fld w 0 7 = 0#7 ∧ fld w 16 5 = 0#5 ∧ fld w 23 3 = 0#3 then some (.lacAdd (fld w 21 2) (fld w 14 2) (fld w 7 7)) else
  if fld w 0 14 = 0#14 ∧ fld w 16 10 = 128#10 then some (.lacClr (fld w 14 2)) else
  if fld w 0 7 = 1#7 ∧ fld w 16 10 = 128#10 then some (.lacClrBind (fld w 14 2) (fld w 7 7)) else
  if fld w 0 7 = 0#7 ∧ fld w 9 5 = 0#5 ∧ fld w 16 10 = 160#10 then some (.lacMrg (fld w 14 2) (fld w 7 2)) else
  if fld w 9 5 = 0#5 ∧ fld w 21 5 = 6#5 then some (.lacRnd (fld w 14 7) (fld w 7 2) (fld w 3 4) (fld w 0 3)) else
  if fld w 0 7 = 0#7 ∧ fld w 16 10 = 224#10 then some (.lacLd (fld w 14 2) (fld w 7 7)) else
  if fld w 0 7 = 0#7 ∧ fld w 16 10 = 256#10 then some (.lacSt (fld w 14 2) (fld w 7 7)) else
  none

/-- The words of major 0x21 (Tables 5.7 to 5.12). -/
def decodeMajor21 (w : Word) : Option Instr :=
  if fld w 24 2 = 0#2 then some (.maxi (fld w 21 3) (fld w 14 7) (fld w 7 7) (fld w 0 7)) else
  if fld w 24 2 = 1#2 then some (.mini (fld w 21 3) (fld w 14 7) (fld w 7 7) (fld w 0 7)) else
  if fld w 24 2 = 2#2 then some (.topk (fld w 21 3) (fld w 14 7) (fld w 7 7) (fld w 0 7)) else
  if fld w 24 2 = 3#2 then some (.topkm (fld w 21 3) (fld w 14 7) (fld w 7 7) (fld w 0 7)) else
  none

/-- The words of major 0x22 (Tables 5.7 to 5.12). -/
def decodeMajor22 (w : Word) : Option Instr :=
  if fld w 4 3 = 0#3 ∧ fld w 21 5 = 0#5 then some (.estatMean (fld w 14 7) (fld w 7 7) (fld w 3 1) (fld w 0 3)) else
  if fld w 4 3 = 0#3 ∧ fld w 21 5 = 1#5 then some (.estatSprd (fld w 14 7) (fld w 7 7) (fld w 3 1) (fld w 0 3)) else
  if fld w 0 3 = 0#3 ∧ fld w 4 3 = 0#3 ∧ fld w 21 5 = 2#5 then some (.estatRank (fld w 14 7) (fld w 7 7) (fld w 3 1)) else
  if fld w 0 3 = 0#3 ∧ fld w 4 3 = 0#3 ∧ fld w 21 5 = 3#5 then some (.estatQnt (fld w 14 7) (fld w 7 7) (fld w 3 1)) else
  none

/-- The words of major 0x24 (Tables 5.7 to 5.12). -/
def decodeMajor24 (w : Word) : Option Instr :=
  some (.ld (fld w 23 3) (fld w 16 7) (fld w 9 7) (fld w 0 9))

/-- The words of major 0x25 (Tables 5.7 to 5.12). -/
def decodeMajor25 (w : Word) : Option Instr :=
  some (.st (fld w 23 3) (fld w 16 7) (fld w 9 7) (fld w 0 9))

/-- The words of major 0x26 (Tables 5.7 to 5.12). -/
def decodeMajor26 (w : Word) : Option Instr :=
  some (.ldAcq (fld w 23 3) (fld w 16 7) (fld w 9 7) (fld w 6 3) (fld w 0 6))

/-- The words of major 0x27 (Tables 5.7 to 5.12). -/
def decodeMajor27 (w : Word) : Option Instr :=
  some (.stRel (fld w 23 3) (fld w 16 7) (fld w 9 7) (fld w 6 3) (fld w 0 6))

/-- The words of major 0x28 (Tables 5.7 to 5.12). -/
def decodeMajor28 (w : Word) : Option Instr :=
  if fld w 7 2 = 0#2 then some (.ldh (fld w 23 3) (fld w 16 7) (fld w 9 7) (fld w 0 7)) else
  if fld w 7 2 = 1#2 then some (.ldhWfKeep (fld w 23 3) (fld w 16 7) (fld w 9 7) (fld w 0 7)) else
  if fld w 7 2 = 2#2 then some (.ldhWfClr (fld w 23 3) (fld w 16 7) (fld w 9 7) (fld w 0 7)) else
  none

/-- The words of major 0x29 (Tables 5.7 to 5.12). -/
def decodeMajor29 (w : Word) : Option Instr :=
  if fld w 7 2 = 0#2 then some (.sth (fld w 23 3) (fld w 16 7) (fld w 9 7) (fld w 0 7)) else
  if fld w 7 2 = 1#2 then some (.sthF (fld w 23 3) (fld w 16 7) (fld w 9 7) (fld w 0 7)) else
  none

/-- The words of major 0x2A (Tables 5.7 to 5.12). -/
def decodeMajor2A (w : Word) : Option Instr :=
  if fld w 22 4 = 0#4 then some (.atomAdd (fld w 21 1) (fld w 14 7) (fld w 7 7) (fld w 0 7)) else
  if fld w 22 4 = 1#4 then some (.atomMinS (fld w 21 1) (fld w 14 7) (fld w 7 7) (fld w 0 7)) else
  if fld w 22 4 = 2#4 then some (.atomMinU (fld w 21 1) (fld w 14 7) (fld w 7 7) (fld w 0 7)) else
  if fld w 22 4 = 3#4 then some (.atomMaxS (fld w 21 1) (fld w 14 7) (fld w 7 7) (fld w 0 7)) else
  if fld w 22 4 = 4#4 then some (.atomMaxU (fld w 21 1) (fld w 14 7) (fld w 7 7) (fld w 0 7)) else
  if fld w 22 4 = 5#4 then some (.atomExch (fld w 21 1) (fld w 14 7) (fld w 7 7) (fld w 0 7)) else
  if fld w 22 4 = 6#4 then some (.atomCas (fld w 21 1) (fld w 14 7) (fld w 7 7) (fld w 0 7)) else
  if fld w 22 4 = 7#4 then some (.atomAnd (fld w 21 1) (fld w 14 7) (fld w 7 7) (fld w 0 7)) else
  if fld w 22 4 = 8#4 then some (.atomOr (fld w 21 1) (fld w 14 7) (fld w 7 7) (fld w 0 7)) else
  if fld w 22 4 = 9#4 then some (.atomXor (fld w 21 1) (fld w 14 7) (fld w 7 7) (fld w 0 7)) else
  if fld w 22 4 = 10#4 then some (.atomFadd (fld w 21 1) (fld w 14 7) (fld w 7 7) (fld w 0 7)) else
  none

/-- The words of major 0x2B (Tables 5.7 to 5.12). -/
def decodeMajor2B (w : Word) : Option Instr :=
  if fld w 0 7 = 0#7 ∧ fld w 22 4 = 0#4 then some (.lr (fld w 21 1) (fld w 14 7) (fld w 7 7)) else
  if fld w 22 4 = 1#4 then some (.sc (fld w 21 1) (fld w 14 7) (fld w 7 7) (fld w 0 7)) else
  none

/-- The words of major 0x2C (Tables 5.7 to 5.12). -/
def decodeMajor2C (w : Word) : Option Instr :=
  if fld w 21 5 = 0#5 then some (.ldbMx8 (fld w 14 7) (fld w 7 7) (fld w 0 7)) else
  if fld w 21 5 = 1#5 then some (.ldbMx4 (fld w 14 7) (fld w 7 7) (fld w 0 7)) else
  if fld w 21 5 = 2#5 then some (.ldbTb4 (fld w 14 7) (fld w 7 7) (fld w 0 7)) else
  if fld w 21 5 = 3#5 then some (.stbMx8 (fld w 14 7) (fld w 7 7) (fld w 0 7)) else
  if fld w 21 5 = 4#5 then some (.stbMx4 (fld w 14 7) (fld w 7 7) (fld w 0 7)) else
  if fld w 21 5 = 5#5 then some (.stbTb4 (fld w 14 7) (fld w 7 7) (fld w 0 7)) else
  if fld w 2 5 = 0#5 ∧ fld w 21 5 = 6#5 then some (.ldhbMx8 (fld w 14 7) (fld w 7 7) (fld w 0 2)) else
  if fld w 2 5 = 0#5 ∧ fld w 21 5 = 7#5 then some (.ldhbMx4 (fld w 14 7) (fld w 7 7) (fld w 0 2)) else
  if fld w 2 5 = 0#5 ∧ fld w 21 5 = 8#5 then some (.ldhbTb4 (fld w 14 7) (fld w 7 7) (fld w 0 2)) else
  if fld w 2 5 = 0#5 ∧ fld w 21 5 = 9#5 then some (.sthbMx8 (fld w 14 7) (fld w 7 7) (fld w 0 2)) else
  if fld w 2 5 = 0#5 ∧ fld w 21 5 = 10#5 then some (.sthbMx4 (fld w 14 7) (fld w 7 7) (fld w 0 2)) else
  if fld w 2 5 = 0#5 ∧ fld w 21 5 = 11#5 then some (.sthbTb4 (fld w 14 7) (fld w 7 7) (fld w 0 2)) else
  none

/-- The words of major 0x2D (Tables 5.7 to 5.12). -/
def decodeMajor2D (w : Word) : Option Instr :=
  if fld w 0 21 = 0#21 ∧ fld w 24 2 = 0#2 then some (.fence (fld w 21 3)) else
  if fld w 6 1 = 0#1 ∧ fld w 13 8 = 0#8 ∧ fld w 24 2 = 1#2 then some (.fenceX (fld w 21 3) (fld w 7 6) (fld w 0 6)) else
  if fld w 0 26 = 33554432#26 then some .fenceW else
  if fld w 0 7 = 0#7 ∧ fld w 14 12 = 3072#12 then some (.cwbL1 (fld w 7 7)) else
  if fld w 0 7 = 0#7 ∧ fld w 14 12 = 3200#12 then some (.cinvL1 (fld w 7 7)) else
  if fld w 0 7 = 0#7 ∧ fld w 14 12 = 3328#12 then some (.cwbL2 (fld w 7 7)) else
  if fld w 0 7 = 0#7 ∧ fld w 14 12 = 3456#12 then some (.prefL1 (fld w 7 7)) else
  if fld w 0 7 = 0#7 ∧ fld w 14 12 = 3584#12 then some (.prefL2 (fld w 7 7)) else
  none

/-- The words of major 0x2E (Tables 5.7 to 5.12). -/
def decodeMajor2E (w : Word) : Option Instr :=
  some (.wst (fld w 23 3) (fld w 16 7) (fld w 9 7) (fld w 0 9))

/-- The words of major 0x30 (Tables 5.7 to 5.12). -/
def decodeMajor30 (w : Word) : Option Instr :=
  if fld w 14 12 = 0#12 then some (.hod (fld w 7 7) (fld w 0 7)) else
  if fld w 0 7 = 0#7 ∧ fld w 14 12 = 128#12 then some (.hodChain (fld w 7 7)) else
  if fld w 0 7 = 0#7 ∧ fld w 14 2 = 0#2 ∧ fld w 18 8 = 16#8 then some (.bead (fld w 16 2) (fld w 7 7)) else
  none

/-- The words of major 0x31 (Tables 5.7 to 5.12). -/
def decodeMajor31 (w : Word) : Option Instr :=
  if fld w 0 7 = 0#7 ∧ fld w 14 12 = 0#12 then some (.vsend (fld w 7 7)) else
  if fld w 0 14 = 0#14 ∧ fld w 21 5 = 1#5 then some (.vrecv (fld w 14 7)) else
  none

/-- The words of major 0x32 (Tables 5.7 to 5.12). -/
def decodeMajor32 (w : Word) : Option Instr :=
  if fld w 14 12 = 0#12 then some (.spawn (fld w 7 7) (fld w 0 7)) else
  if fld w 21 5 = 1#5 then some (.launch (fld w 14 7) (fld w 7 7) (fld w 0 7)) else
  if fld w 14 12 = 256#12 then some (.cwset (fld w 7 7) (fld w 0 7)) else
  none

/-- The words of major 0x33 (Tables 5.7 to 5.12). -/
def decodeMajor33 (w : Word) : Option Instr :=
  if fld w 0 7 = 0#7 ∧ fld w 18 8 = 0#8 then some (.barArv (fld w 14 4) (fld w 7 7)) else
  if fld w 0 14 = 0#14 ∧ fld w 18 8 = 8#8 then some (.barWt (fld w 14 4)) else
  if fld w 0 7 = 0#7 ∧ fld w 18 8 = 16#8 then some (.barSync (fld w 14 4) (fld w 7 7)) else
  if fld w 18 8 = 24#8 then some (.barSyncm (fld w 14 4) (fld w 7 7) (fld w 0 7)) else
  if fld w 0 14 = 0#14 ∧ fld w 18 8 = 32#8 then some (.snap (fld w 14 4)) else
  none

/-- The words of major 0x34 (Tables 5.7 to 5.12). -/
def decodeMajor34 (w : Word) : Option Instr :=
  if fld w 0 7 = 0#7 ∧ fld w 11 3 = 0#3 ∧ fld w 21 5 = 0#5 then some (.tld (fld w 17 4) (fld w 14 3) (fld w 7 4)) else
  if fld w 5 2 = 0#2 ∧ fld w 11 3 = 0#3 ∧ fld w 18 8 = 8#8 then some (.tldm (fld w 14 4) (fld w 7 4) (fld w 4 1) (fld w 0 4)) else
  if fld w 5 2 = 0#2 ∧ fld w 18 8 = 16#8 then some (.tst (fld w 14 4) (fld w 10 4) (fld w 7 3) (fld w 4 1) (fld w 3 1) (fld w 0 3)) else
  if fld w 5 2 = 0#2 ∧ fld w 11 3 = 0#3 ∧ fld w 18 8 = 24#8 then some (.tcpy (fld w 14 4) (fld w 7 4) (fld w 4 1) (fld w 0 4)) else
  if fld w 0 7 = 0#7 ∧ fld w 9 5 = 0#5 ∧ fld w 17 9 = 64#9 then some (.tzero (fld w 14 3) (fld w 7 2)) else
  none

/-- The words of major 0x35 (Tables 5.7 to 5.12). -/
def decodeMajor35 (w : Word) : Option Instr :=
  if fld w 5 2 = 0#2 ∧ fld w 12 2 = 0#2 ∧ fld w 25 1 = 0#1 then some (.mma (fld w 21 4) (fld w 17 4) (fld w 14 3) (fld w 7 5) (fld w 0 5)) else
  none

/-- The words of major 0x36 (Tables 5.7 to 5.12). -/
def decodeMajor36 (w : Word) : Option Instr :=
  if fld w 0 7 = 0#7 ∧ fld w 17 9 = 0#9 then some (.tscl (fld w 14 3) (fld w 7 7)) else
  if fld w 1 6 = 0#6 ∧ fld w 11 3 = 0#3 ∧ fld w 17 9 = 16#9 then some (.tbias (fld w 14 3) (fld w 7 4) (fld w 0 1)) else
  if fld w 0 7 = 0#7 ∧ fld w 9 5 = 0#5 ∧ fld w 17 9 = 32#9 then some (.tact (fld w 14 3) (fld w 7 2)) else
  if fld w 0 14 = 0#14 ∧ fld w 17 9 = 48#9 then some (.txpose (fld w 14 3)) else
  if fld w 0 7 = 0#7 ∧ fld w 10 4 = 0#4 ∧ fld w 17 9 = 64#9 then some (.tcvt (fld w 14 3) (fld w 7 3)) else
  if fld w 0 7 = 0#7 ∧ fld w 8 6 = 0#6 ∧ fld w 17 9 = 80#9 then some (.tred (fld w 14 3) (fld w 7 1)) else
  none

/-- The words of major 0x37 (Tables 5.7 to 5.12). -/
def decodeMajor37 (w : Word) : Option Instr :=
  if fld w 0 7 = 0#7 ∧ fld w 17 9 = 0#9 then some (.gset (fld w 14 3) (fld w 7 7)) else
  if fld w 17 9 = 16#9 then some (.gseed (fld w 14 3) (fld w 7 7) (fld w 0 7)) else
  if fld w 17 9 = 32#9 then some (.gorg (fld w 14 3) (fld w 7 7) (fld w 0 7)) else
  none

/-- The words of major 0x38 (Tables 5.7 to 5.12). -/
def decodeMajor38 (w : Word) : Option Instr :=
  if fld w 0 7 = 0#7 ∧ fld w 21 5 = 0#5 then some (.tmov (fld w 14 7) (fld w 7 7)) else
  if fld w 21 5 = 1#5 then some (.tadd (fld w 14 7) (fld w 7 7) (fld w 0 7)) else
  if fld w 21 5 = 2#5 then some (.tsub (fld w 14 7) (fld w 7 7) (fld w 0 7)) else
  if fld w 21 5 = 3#5 then some (.tmul (fld w 14 7) (fld w 7 7) (fld w 0 7)) else
  if fld w 18 8 = 32#8 then some (.tbrnz (fld w 14 4) (fld w 0 14)) else
  if fld w 14 12 = 640#12 then some (.tbra (fld w 0 14)) else
  if fld w 0 7 = 0#7 ∧ fld w 18 8 = 48#8 then some (.tbarArv (fld w 14 4) (fld w 7 7)) else
  if fld w 0 14 = 0#14 ∧ fld w 18 8 = 56#8 then some (.tbarWt (fld w 14 4)) else
  if fld w 0 26 = 16777216#26 then some .tend else
  none

/-- The words of major 0x39 (Tables 5.7 to 5.12). -/
def decodeMajor39 (w : Word) : Option Instr :=
  if fld w 18 8 = 0#8 then some (.mset (fld w 14 4) (fld w 7 7) (fld w 0 7)) else
  if fld w 18 8 = 8#8 then some (.madv (fld w 14 4) (fld w 7 7) (fld w 0 7)) else
  if fld w 2 5 = 0#5 ∧ fld w 18 8 = 16#8 then some (.mcpy (fld w 14 4) (fld w 7 7) (fld w 0 2)) else
  none

/-- The words of major 0x3A (Tables 5.7 to 5.12). -/
def decodeMajor3A (w : Word) : Option Instr :=
  if fld w 2 5 = 0#5 ∧ fld w 21 5 = 0#5 then some (.trecOn (fld w 14 7) (fld w 7 7) (fld w 1 1) (fld w 0 1)) else
  if fld w 0 26 = 2097152#26 then some .trecOff else
  if fld w 0 7 = 0#7 ∧ fld w 21 5 = 2#5 then some (.trecExt (fld w 14 7) (fld w 7 7)) else
  if fld w 3 4 = 0#4 ∧ fld w 21 5 = 3#5 then some (.trev (fld w 14 7) (fld w 7 7) (fld w 2 1) (fld w 1 1) (fld w 0 1)) else
  none

/-- The words of major 0x3C (Tables 5.7 to 5.12). -/
def decodeMajor3C (w : Word) : Option Instr :=
  some (.runMacro (fld w 18 8) (fld w 12 6) (fld w 6 6) (fld w 0 6))

/-- The words of major 0x3F (Tables 5.7 to 5.12). -/
def decodeMajor3F (w : Word) : Option Instr :=
  if fld w 21 5 = 0#5 then some (.stall (fld w 0 21)) else
  if fld w 22 4 = 1#4 then some (.imm (fld w 0 22)) else
  if fld w 7 19 = 65536#19 then some (.src3 (fld w 0 7)) else
  if fld w 7 19 = 98304#19 then some (.guard (fld w 4 3) (fld w 3 1) (fld w 0 3)) else
  if fld w 0 26 = 16777216#26 then some .join else
  if fld w 22 4 = 5#4 then some (.prefetch (fld w 20 2) (fld w 13 7) (fld w 0 13)) else
  if fld w 3 23 = 3145728#23 then some (.rnd (fld w 0 3)) else
  none

/-- The instruction a word's fields spell, before the checks of its operand codes and field values:
the major selects the table, and a word that no row matches is none. -/
def decodeRaw (w : Word) : Option Instr :=
  match (fld w 26 6).toNat with
  | 0x00 => decodeMajor00 w
  | 0x01 => decodeMajor01 w
  | 0x02 => decodeMajor02 w
  | 0x03 => decodeMajor03 w
  | 0x04 => decodeMajor04 w
  | 0x05 => decodeMajor05 w
  | 0x06 => decodeMajor06 w
  | 0x07 => decodeMajor07 w
  | 0x08 => decodeMajor08 w
  | 0x09 => decodeMajor09 w
  | 0x0A => decodeMajor0A w
  | 0x0B => decodeMajor0B w
  | 0x0C => decodeMajor0C w
  | 0x0D => decodeMajor0D w
  | 0x0E => decodeMajor0E w
  | 0x10 => decodeMajor10 w
  | 0x11 => decodeMajor11 w
  | 0x12 => decodeMajor12 w
  | 0x13 => decodeMajor13 w
  | 0x14 => decodeMajor14 w
  | 0x15 => decodeMajor15 w
  | 0x16 => decodeMajor16 w
  | 0x17 => decodeMajor17 w
  | 0x18 => decodeMajor18 w
  | 0x19 => decodeMajor19 w
  | 0x1A => decodeMajor1A w
  | 0x1B => decodeMajor1B w
  | 0x1C => decodeMajor1C w
  | 0x20 => decodeMajor20 w
  | 0x21 => decodeMajor21 w
  | 0x22 => decodeMajor22 w
  | 0x24 => decodeMajor24 w
  | 0x25 => decodeMajor25 w
  | 0x26 => decodeMajor26 w
  | 0x27 => decodeMajor27 w
  | 0x28 => decodeMajor28 w
  | 0x29 => decodeMajor29 w
  | 0x2A => decodeMajor2A w
  | 0x2B => decodeMajor2B w
  | 0x2C => decodeMajor2C w
  | 0x2D => decodeMajor2D w
  | 0x2E => decodeMajor2E w
  | 0x30 => decodeMajor30 w
  | 0x31 => decodeMajor31 w
  | 0x32 => decodeMajor32 w
  | 0x33 => decodeMajor33 w
  | 0x34 => decodeMajor34 w
  | 0x35 => decodeMajor35 w
  | 0x36 => decodeMajor36 w
  | 0x37 => decodeMajor37 w
  | 0x38 => decodeMajor38 w
  | 0x39 => decodeMajor39 w
  | 0x3A => decodeMajor3A w
  | 0x3C => decodeMajor3C w
  | 0x3F => decodeMajor3F w
  | _ => none

/-- The word of an instruction: the fixed fields and the operand fields of its row, from bit 31 down.
An event has no word. -/
def encode (i : Instr) : Option Word :=
  match i with
  | .bra c o => some (0#6 ++ c ++ o)
  | .call c o => some (1#6 ++ c ++ o)
  | .rpush o => some (32#10 ++ o)
  | .bri a => some (12288#18 ++ a ++ 0#7)
  | .calli d a => some (97#11 ++ d ++ a ++ 0#7)
  | .ret a => some (12544#18 ++ a ++ 0#7)
  | .regang => some (207618048#32)
  | .exit => some (209715200#32)
  | .brk => some (211812352#32)
  | .nop => some (213909504#32)
  | .trap n => some (65536#20 ++ n)
  | .mfs d i₀ => some (5#6 ++ d ++ 0#7 ++ i₀)
  | .mts a i₀ => some (768#13 ++ a ++ i₀)
  | .mstld a => some (28672#18 ++ a ++ 0#7)
  | .hret => some (471859200#32)
  | .add w₀ d a b => some (4#5 ++ w₀ ++ 0#5 ++ d ++ a ++ b)
  | .sub w₀ d a b => some (4#5 ++ w₀ ++ 1#5 ++ d ++ a ++ b)
  | .addsat w₀ u d a b => some (4#5 ++ w₀ ++ 1#4 ++ u ++ d ++ a ++ b)
  | .subsat w₀ u d a b => some (4#5 ++ w₀ ++ 2#4 ++ u ++ d ++ a ++ b)
  | .min w₀ u d a b => some (4#5 ++ w₀ ++ 3#4 ++ u ++ d ++ a ++ b)
  | .max w₀ u d a b => some (4#5 ++ w₀ ++ 4#4 ++ u ++ d ++ a ++ b)
  | .abs w₀ d a => some (4#5 ++ w₀ ++ 10#5 ++ d ++ a ++ 0#7)
  | .neg w₀ d a => some (4#5 ++ w₀ ++ 11#5 ++ d ++ a ++ 0#7)
  | .mov w₀ d a => some (4#5 ++ w₀ ++ 12#5 ++ d ++ a ++ 0#7)
  | .addi d a i₀ => some (10#6 ++ d ++ a ++ i₀)
  | .and d a b => some (352#11 ++ d ++ a ++ b)
  | .or d a b => some (353#11 ++ d ++ a ++ b)
  | .xor d a b => some (354#11 ++ d ++ a ++ b)
  | .andn d a b => some (355#11 ++ d ++ a ++ b)
  | .orn d a b => some (356#11 ++ d ++ a ++ b)
  | .not d a => some (357#11 ++ d ++ a ++ 0#7)
  | .shl d a b => some (358#11 ++ d ++ a ++ b)
  | .shrU d a b => some (359#11 ++ d ++ a ++ b)
  | .shrS d a b => some (360#11 ++ d ++ a ++ b)
  | .rol d a b => some (361#11 ++ d ++ a ++ b)
  | .ror d a b => some (362#11 ++ d ++ a ++ b)
  | .shl64 d a b => some (363#11 ++ d ++ a ++ b)
  | .shr64U d a b => some (364#11 ++ d ++ a ++ b)
  | .shr64S d a b => some (365#11 ++ d ++ a ++ b)
  | .popc d a => some (366#11 ++ d ++ a ++ 0#7)
  | .clz d a => some (367#11 ++ d ++ a ++ 0#7)
  | .ctz d a => some (368#11 ++ d ++ a ++ 0#7)
  | .brev d a => some (369#11 ++ d ++ a ++ 0#7)
  | .fldxU d a b => some (370#11 ++ d ++ a ++ b)
  | .fldxS d a b => some (371#11 ++ d ++ a ++ b)
  | .fldi d a b => some (372#11 ++ d ++ a ++ b)
  | .bysel d a b => some (373#11 ++ d ++ a ++ b)
  | .mul d a b => some (384#11 ++ d ++ a ++ b)
  | .mulhiS d a b => some (385#11 ++ d ++ a ++ b)
  | .mulhiU d a b => some (386#11 ++ d ++ a ++ b)
  | .mulwS d a b => some (387#11 ++ d ++ a ++ b)
  | .mulwU d a b => some (388#11 ++ d ++ a ++ b)
  | .mad d a b => some (389#11 ++ d ++ a ++ b)
  | .mul64 d a b => some (390#11 ++ d ++ a ++ b)
  | .mulhi64S d a b => some (391#11 ++ d ++ a ++ b)
  | .mulhi64U d a b => some (392#11 ++ d ++ a ++ b)
  | .divS d a b => some (393#11 ++ d ++ a ++ b)
  | .divU d a b => some (394#11 ++ d ++ a ++ b)
  | .remS d a b => some (395#11 ++ d ++ a ++ b)
  | .remU d a b => some (396#11 ++ d ++ a ++ b)
  | .div64S d a b => some (397#11 ++ d ++ a ++ b)
  | .div64U d a b => some (398#11 ++ d ++ a ++ b)
  | .rem64S d a b => some (399#11 ++ d ++ a ++ b)
  | .rem64U d a b => some (400#11 ++ d ++ a ++ b)
  | .icmp t r p a b => some (13#6 ++ t ++ r ++ 0#4 ++ p ++ a ++ b)
  | .lea s d a b => some (14#6 ++ s ++ d ++ a ++ b)
  | .pand d n a m b => some (8192#15 ++ d ++ 0#3 ++ n ++ a ++ 0#3 ++ m ++ b)
  | .por d n a m b => some (8208#15 ++ d ++ 0#3 ++ n ++ a ++ 0#3 ++ m ++ b)
  | .pxor d n a m b => some (8224#15 ++ d ++ 0#3 ++ n ++ a ++ 0#3 ++ m ++ b)
  | .pmov d n a => some (8240#15 ++ d ++ 0#3 ++ n ++ a ++ 0#7)
  | .ptov d n a => some (516#11 ++ d ++ 0#3 ++ n ++ a ++ 0#7)
  | .vtop d a => some (8272#15 ++ d ++ a ++ 0#7)
  | .lxgSel d a b => some (544#11 ++ d ++ a ++ b)
  | .lxgBelow d a b => some (545#11 ++ d ++ a ++ b)
  | .lxgAbove d a b => some (546#11 ++ d ++ a ++ b)
  | .lxgFlip d a b => some (547#11 ++ d ++ a ++ b)
  | .ltestAll d n a => some (8768#15 ++ d ++ 0#3 ++ n ++ a ++ 0#7)
  | .ltestAny d n a => some (8784#15 ++ d ++ 0#3 ++ n ++ a ++ 0#7)
  | .ltestSame d n a => some (8800#15 ++ d ++ 0#3 ++ n ++ a ++ 0#7)
  | .pgath d n a => some (551#11 ++ d ++ 0#3 ++ n ++ a ++ 0#7)
  | .leqm d a => some (552#11 ++ d ++ a ++ 0#7)
  | .lfoldAdd d a => some (553#11 ++ d ++ a ++ 0#7)
  | .lfoldMin u d a => some (277#10 ++ u ++ d ++ a ++ 0#7)
  | .lfoldMax u d a => some (278#10 ++ u ++ d ++ a ++ 0#7)
  | .mmaskr d => some (576#11 ++ d ++ 0#14)
  | .mmaskw a => some (73856#18 ++ a ++ 0#7)
  | .mtestAll d n a => some (9248#15 ++ d ++ 0#3 ++ n ++ a ++ 0#7)
  | .mtestAny d n a => some (9264#15 ++ d ++ 0#3 ++ n ++ a ++ 0#7)
  | .mpick d a b => some (580#11 ++ d ++ a ++ b)
  | .regroup a => some (74368#18 ++ a ++ 0#7)
  | .role a => some (77824#18 ++ a ++ 0#7)
  | .regsGive a b => some (77952#18 ++ a ++ b)
  | .regsClaim a => some (78080#18 ++ a ++ 0#7)
  | .fadd t m d a b => some (5#4 ++ t ++ 0#2 ++ m ++ d ++ a ++ b)
  | .fsub t m d a b => some (5#4 ++ t ++ 1#2 ++ m ++ d ++ a ++ b)
  | .fmul t m d a b => some (5#4 ++ t ++ 2#2 ++ m ++ d ++ a ++ b)
  | .fma t m d a b => some (5#4 ++ t ++ 3#2 ++ m ++ d ++ a ++ b)
  | .fmin t d a b => some (192#9 ++ t ++ d ++ a ++ b)
  | .fmax t d a b => some (193#9 ++ t ++ d ++ a ++ b)
  | .fabs t d a => some (194#9 ++ t ++ d ++ a ++ 0#7)
  | .fneg t d a => some (195#9 ++ t ++ d ++ a ++ 0#7)
  | .fcpys t d a b => some (196#9 ++ t ++ d ++ a ++ b)
  | .fclass t d a => some (197#9 ++ t ++ d ++ a ++ 0#7)
  | .fscale t d a b => some (198#9 ++ t ++ d ++ a ++ b)
  | .fcmp r t p a b => some (25#6 ++ r ++ t ++ 0#4 ++ p ++ a ++ b)
  | .cvt g d a s m => some (52#7 ++ g ++ d ++ a ++ s ++ m)
  | .packMx8 e d a m => some (432#10 ++ e ++ d ++ a ++ 0#4 ++ m)
  | .packMx4 d a m => some (866#11 ++ d ++ a ++ 0#4 ++ m)
  | .packTb4 d a m => some (867#11 ++ d ++ a ++ 0#4 ++ m)
  | .unpkMx8 e d a m => some (434#10 ++ e ++ d ++ a ++ 0#4 ++ m)
  | .unpkMx4 d a m => some (870#11 ++ d ++ a ++ 0#4 ++ m)
  | .unpkTb4 d a m => some (871#11 ++ d ++ a ++ 0#4 ++ m)
  | .rcp d a m => some (896#11 ++ d ++ a ++ 0#4 ++ m)
  | .rsq d a m => some (897#11 ++ d ++ a ++ 0#4 ++ m)
  | .sqrt d a m => some (898#11 ++ d ++ a ++ 0#4 ++ m)
  | .exp2 d a m => some (899#11 ++ d ++ a ++ 0#4 ++ m)
  | .log2 d a m => some (900#11 ++ d ++ a ++ 0#4 ++ m)
  | .sinpi d a m => some (901#11 ++ d ++ a ++ 0#4 ++ m)
  | .cospi d a m => some (902#11 ++ d ++ a ++ 0#4 ++ m)
  | .lacAdd t x a => some (256#9 ++ t ++ 0#5 ++ x ++ a ++ 0#7)
  | .lacClr x => some (32896#16 ++ x ++ 0#14)
  | .lacClrBind x a => some (32896#16 ++ x ++ a ++ 1#7)
  | .lacMrg x y => some (32928#16 ++ x ++ 0#5 ++ y ++ 0#7)
  | .lacRnd d x f m => some (1030#11 ++ d ++ 0#5 ++ x ++ f ++ m)
  | .lacLd x a => some (32992#16 ++ x ++ a ++ 0#7)
  | .lacSt x a => some (33024#16 ++ x ++ a ++ 0#7)
  | .maxi t d a b => some (132#8 ++ t ++ d ++ a ++ b)
  | .mini t d a b => some (133#8 ++ t ++ d ++ a ++ b)
  | .topk t d a b => some (134#8 ++ t ++ d ++ a ++ b)
  | .topkm t d a b => some (135#8 ++ t ++ d ++ a ++ b)
  | .estatMean d a f m => some (1088#11 ++ d ++ a ++ 0#3 ++ f ++ m)
  | .estatSprd d a f m => some (1089#11 ++ d ++ a ++ 0#3 ++ f ++ m)
  | .estatRank d a f => some (1090#11 ++ d ++ a ++ 0#3 ++ f ++ 0#3)
  | .estatQnt d a f => some (1091#11 ++ d ++ a ++ 0#3 ++ f ++ 0#3)
  | .ld f d b o => some (36#6 ++ f ++ d ++ b ++ o)
  | .st f d b o => some (37#6 ++ f ++ d ++ b ++ o)
  | .ldAcq f d b s o => some (38#6 ++ f ++ d ++ b ++ s ++ o)
  | .stRel f d b s o => some (39#6 ++ f ++ d ++ b ++ s ++ o)
  | .ldh f d b o => some (40#6 ++ f ++ d ++ b ++ 0#2 ++ o)
  | .ldhWfKeep f d b o => some (40#6 ++ f ++ d ++ b ++ 1#2 ++ o)
  | .ldhWfClr f d b o => some (40#6 ++ f ++ d ++ b ++ 2#2 ++ o)
  | .sth f d b o => some (41#6 ++ f ++ d ++ b ++ 0#2 ++ o)
  | .sthF f d b o => some (41#6 ++ f ++ d ++ b ++ 1#2 ++ o)
  | .atomAdd w₀ d a b => some (672#10 ++ w₀ ++ d ++ a ++ b)
  | .atomMinS w₀ d a b => some (673#10 ++ w₀ ++ d ++ a ++ b)
  | .atomMinU w₀ d a b => some (674#10 ++ w₀ ++ d ++ a ++ b)
  | .atomMaxS w₀ d a b => some (675#10 ++ w₀ ++ d ++ a ++ b)
  | .atomMaxU w₀ d a b => some (676#10 ++ w₀ ++ d ++ a ++ b)
  | .atomExch w₀ d a b => some (677#10 ++ w₀ ++ d ++ a ++ b)
  | .atomCas w₀ d a b => some (678#10 ++ w₀ ++ d ++ a ++ b)
  | .atomAnd w₀ d a b => some (679#10 ++ w₀ ++ d ++ a ++ b)
  | .atomOr w₀ d a b => some (680#10 ++ w₀ ++ d ++ a ++ b)
  | .atomXor w₀ d a b => some (681#10 ++ w₀ ++ d ++ a ++ b)
  | .atomFadd w₀ d a b => some (682#10 ++ w₀ ++ d ++ a ++ b)
  | .lr w₀ d a => some (688#10 ++ w₀ ++ d ++ a ++ 0#7)
  | .sc w₀ d a b => some (689#10 ++ w₀ ++ d ++ a ++ b)
  | .ldbMx8 d a b => some (1408#11 ++ d ++ a ++ b)
  | .ldbMx4 d a b => some (1409#11 ++ d ++ a ++ b)
  | .ldbTb4 d a b => some (1410#11 ++ d ++ a ++ b)
  | .stbMx8 d a b => some (1411#11 ++ d ++ a ++ b)
  | .stbMx4 d a b => some (1412#11 ++ d ++ a ++ b)
  | .stbTb4 d a b => some (1413#11 ++ d ++ a ++ b)
  | .ldhbMx8 d a q => some (1414#11 ++ d ++ a ++ 0#5 ++ q)
  | .ldhbMx4 d a q => some (1415#11 ++ d ++ a ++ 0#5 ++ q)
  | .ldhbTb4 d a q => some (1416#11 ++ d ++ a ++ 0#5 ++ q)
  | .sthbMx8 d a q => some (1417#11 ++ d ++ a ++ 0#5 ++ q)
  | .sthbMx4 d a q => some (1418#11 ++ d ++ a ++ 0#5 ++ q)
  | .sthbTb4 d a q => some (1419#11 ++ d ++ a ++ 0#5 ++ q)
  | .fence s => some (180#8 ++ s ++ 0#21)
  | .fenceX s p q => some (181#8 ++ s ++ 0#8 ++ p ++ 0#1 ++ q)
  | .fenceW => some (3053453312#32)
  | .cwbL1 a => some (187392#18 ++ a ++ 0#7)
  | .cinvL1 a => some (187520#18 ++ a ++ 0#7)
  | .cwbL2 a => some (187648#18 ++ a ++ 0#7)
  | .prefL1 a => some (187776#18 ++ a ++ 0#7)
  | .prefL2 a => some (187904#18 ++ a ++ 0#7)
  | .wst f d b o => some (46#6 ++ f ++ d ++ b ++ o)
  | .hod a b => some (196608#18 ++ a ++ b)
  | .hodChain a => some (196736#18 ++ a ++ 0#7)
  | .bead m a => some (12304#14 ++ m ++ 0#2 ++ a ++ 0#7)
  | .vsend a => some (200704#18 ++ a ++ 0#7)
  | .vrecv d => some (1569#11 ++ d ++ 0#14)
  | .spawn a b => some (204800#18 ++ a ++ b)
  | .launch d a b => some (1601#11 ++ d ++ a ++ b)
  | .cwset a b => some (205056#18 ++ a ++ b)
  | .barArv n a => some (13056#14 ++ n ++ a ++ 0#7)
  | .barWt n => some (13064#14 ++ n ++ 0#14)
  | .barSync n a => some (13072#14 ++ n ++ a ++ 0#7)
  | .barSyncm n a b => some (13080#14 ++ n ++ a ++ b)
  | .snap n => some (13088#14 ++ n ++ 0#14)
  | .runMacro i₀ a b c => some (60#6 ++ i₀ ++ a ++ b ++ c)
  | .stall c => some (2016#11 ++ c)
  | .imm i₀ => some (1009#10 ++ i₀)
  | .src3 s => some (33095680#25 ++ s)
  | .guard n g p => some (33128448#25 ++ n ++ g ++ p)
  | .join => some (4244635648#32)
  | .prefetch l b o => some (1013#10 ++ l ++ b ++ o)
  | .rnd m => some (531628032#29 ++ m)
  | .tld t s m => some (1664#11 ++ t ++ s ++ 0#3 ++ m ++ 0#7)
  | .tldm d s f t => some (13320#14 ++ d ++ 0#3 ++ s ++ 0#2 ++ f ++ t)
  | .tst m t s f k r => some (13328#14 ++ m ++ t ++ s ++ 0#2 ++ f ++ k ++ r)
  | .tcpy d s f t => some (13336#14 ++ d ++ 0#3 ++ s ++ 0#2 ++ f ++ t)
  | .tzero s m => some (26688#15 ++ s ++ 0#5 ++ m ++ 0#7)
  | .mma f t s a b => some (106#7 ++ f ++ t ++ s ++ 0#2 ++ a ++ 0#2 ++ b)
  | .tscl s x => some (27648#15 ++ s ++ x ++ 0#7)
  | .tbias s m r => some (27664#15 ++ s ++ 0#3 ++ m ++ 0#6 ++ r)
  | .tact s k => some (27680#15 ++ s ++ 0#5 ++ k ++ 0#7)
  | .txpose s => some (27696#15 ++ s ++ 0#14)
  | .tcvt s m => some (27712#15 ++ s ++ 0#4 ++ m ++ 0#7)
  | .tred s r => some (27728#15 ++ s ++ 0#6 ++ r ++ 0#7)
  | .gset g x => some (28160#15 ++ g ++ x ++ 0#7)
  | .gseed g a b => some (28176#15 ++ g ++ a ++ b)
  | .gorg g a b => some (28192#15 ++ g ++ a ++ b)
  | .tmov d a => some (1792#11 ++ d ++ a ++ 0#7)
  | .tadd d a b => some (1793#11 ++ d ++ a ++ b)
  | .tsub d a b => some (1794#11 ++ d ++ a ++ b)
  | .tmul d a b => some (1795#11 ++ d ++ a ++ b)
  | .tbrnz t o => some (14368#14 ++ t ++ o)
  | .tbra o => some (230016#18 ++ o)
  | .tbarArv b c => some (14384#14 ++ b ++ c ++ 0#7)
  | .tbarWt b => some (14392#14 ++ b ++ 0#14)
  | .tend => some (3774873600#32)
  | .mset m a b => some (14592#14 ++ m ++ a ++ b)
  | .madv m a b => some (14600#14 ++ m ++ a ++ b)
  | .mcpy m a n => some (14608#14 ++ m ++ a ++ 0#5 ++ n)
  | .trecOn b l x m => some (1856#11 ++ b ++ l ++ 0#5 ++ x ++ m)
  | .trecOff => some (3894411264#32)
  | .trecExt b l => some (1858#11 ++ b ++ l ++ 0#7)
  | .trev m b k r p => some (1859#11 ++ m ++ b ++ 0#4 ++ k ++ r ++ p)
  | _ => none

/-- The instruction of a word, or the name of the reason why it is none (R123). -/
def decode (w : Word) : Except DecodeError Instr :=
  match decodeRaw w with
  | some j => .ok j
  | none =>
    let m := (fld w 26 6).toNat
    if m = 0x0F ∨ m = 0x1D ∨ m = 0x1E ∨ m = 0x1F ∨ m = 0x23 ∨ m = 0x2F ∨ m = 0x3B then .error .unassignedMajor
    else if m = 0x3D ∨ m = 0x3E then .error .notAnInstruction
    else .error .unlistedValue

/-- A word from its four bytes, the least significant at the lowest address (R5, R98). -/
def wordOfBytes (b0 b1 b2 b3 : Byte) : Word := b3 ++ b2 ++ b1 ++ b0

/-- The decoder on bytes: the instruction of the first word and the bytes after it. -/
def decodeBytes (bs : List Byte) : Except DecodeError (Instr × List Byte) :=
  match bs with
  | b0 :: b1 :: b2 :: b3 :: rest =>
    match decode (wordOfBytes b0 b1 b2 b3) with
    | .ok j => .ok (j, rest)
    | .error e => .error e
  | _ => .error .tooShort

/-- The four bytes of a word in the order memory holds them (R5). -/
def bytesOfWord (w : Word) : List Byte := [fld w 0 8, fld w 8 8, fld w 16 8, fld w 24 8]

/-- The instruction the decoder reads from the word whose low `nbits` bits are those of `w`, laid out in
memory as R5 and R98 say. -/
def decodeTableWord (nbits w : Nat) : Option Instr :=
  match decodeBytes (bytesOfWord (BitVec.ofNat 32 (w % 2 ^ nbits))) with
  | .ok (j, _) => some j
  | .error _ => none

end Sys2Proof
end

