-- ==== Sys2Proof/Config.lean ====
section
/-! DEFINITION. What the spec leaves to one part or leaves open: free values. None of these constants has
a body, so nothing can be proved of a value of theirs; each is named in an assumption of the log. -/

namespace Sys2Proof.Config

/-- STEPPING of PKGINFO, fixed per silicon (Table 1.7, assumption 9). -/
opaque stepping : BitVec 8
/-- Which of `n` agents that can move goes next at model step `tick` (assumption 2). -/
opaque pick : (tick n : Nat) → Nat
/-- How many arithmetic clocks model step `tick` takes (assumption 3). -/
opaque clocks : (tick : Nat) → Nat
/-- Which line of an L1 set is evicted at model step `tick` (R214, R148, assumption 5). -/
opaque l1Victim : (tick set : Nat) → Nat
/-- Which TLB entry is replaced: "its replacement is not architected" (R85, assumption 6). -/
opaque tlbVictim : (tick : Nat) → Nat
/-- SHAKE256 with 256 and with 512 bits of output, of a byte string (R374, R425, assumption 8). -/
opaque shake256 : List Byte → BitVec 256
/-- SHAKE256 with 512 bits of output (R425, assumption 8). -/
opaque shake512 : List Byte → BitVec 512
/-- Whether an Ed448 signature of a message verifies under a public key (R426, assumption 8). -/
opaque ed448Verify : (key message signature : List Byte) → Bool
/-- The Ed448 signature of the attestation report by the device key (R429, assumption 8). -/
opaque attestSign : (report : List Byte) → List Byte
/-- The SHAKE256 measurement of the boot ROM and Svaoc, by byte (Table 22.5, assumption 13). -/
opaque svaocMeasure : (offset : Nat) → Byte
/-- The identity public key of a package, by byte (Table 22.5, assumption 13). -/
opaque identityKey : (offset : Nat) → Byte
/-- The bytes of a context image after its header: their layout is an implementation's own (R375,
assumption 7). The argument is the model step that writes the image and the byte's offset. -/
opaque imageByte : (tick offset : Nat) → Byte
/-- The bytes of a tape record that no rule states: between the end of a saved region and the next 256-byte
boundary, and the scales of blocks that were not read (R302, assumption 18). -/
opaque tapeByte : (tick offset : Nat) → Byte

/-- What a collective's read of a byte whose page has lost its translation gives: the team ends with XLAT_LOST, and no
rule states the byte its chunk carries (assumption 20). -/
opaque lostByte : (tick offset : Nat) → Byte

/-- The temperature of a core's sensor in whole °C at a model step (R94, assumption 14). -/
opaque temp : (tick core : Nat) → Nat
/-- The droop events counted on a core in the last 1 ms at a model step (R94, assumption 14). -/
opaque droop : (tick core : Nat) → Nat
/-- The level of the radix table that holds a leaf entry: SWAPA and SWAPB give the swap engine the entry's physical
address alone, and R91 sizes a page by the level of its table; for an entry that no radix table in use holds the level is open
(assumption 19). -/
opaque tableLevel : (entry : Nat) → Nat

end Sys2Proof.Config
end

