-- ==== Sys2Proof/Machine/State.lean ====
section
/-! DEFINITION. The state of one Renyth package as plain data: the Lath registers, the Dispatcher, the
cores with their caches and FIFOs, the resident teams with their groups, slices, registers, Trowel
and tape, the memories, the window map, collectives, graphs and logs. Every field's default is its
value after package reset, or, for state that begins with a team or a group, its value at that start.
Sparse tables list only entries that differ from the value an unlisted key reads as. -/

namespace Sys2Proof.Machine

/-- Why the machine stops. All of them are SAFE: the model stops where the spec names no next state. -/
inductive Fault where
  /-- Raised by the meaning of a group instruction when the state names no group, or no gang, that
  issues it: the spec gives an instruction an effect only for a group that issues it. Safe. -/
  | noIssuingGang
  /-- Raised by the meaning of a Trowel instruction when the state names no Trowel context that
  executes it. Safe. -/
  | noIssuingTrowel
  deriving DecidableEq, Repr

/-- Why the model has no meaning to give. -/
inductive Refusal where
  /-- The row of this mnemonic has no meaning in this model yet; raised only by arms of `exec`. Safe. -/
  | notModelled (mnemonic : String)
  deriving DecidableEq, Repr

/-! ## Registers of a group -/

/-- The register cells of a group (Table 5.2, R101, R104, R140): `v n e l` register n of member slot e
in lane l; `k n l`; `s n e`; `q n`; predicate `p n e l` (1 true, 0 false); `fpm e`. -/
inductive Loc where
  | v (n e l : Nat)
  | k (n l : Nat)
  | s (n e : Nat)
  | q (n : Nat)
  | p (n e l : Nat)
  | fpm (e : Nat)
  deriving DecidableEq, Repr

/-- The write of a fixed-latency instruction that may not be visible yet (R115): `ready` is the issue
step at which it completes, `slices` the slices that issued it, `done` those of them for which a drain
boundary has already made it visible; `orIn` marks flags ORed into FPM (R42). -/
structure PendWrite where
  loc : Loc
  val : BitVec 32
  orIn : Bool
  ready : Nat
  slices : BitVec 8
  done : BitVec 8
  deriving DecidableEq, Repr

/-! ## Slices -/

/-- An entry of the reconvergence stack (Table 6.1). `bad` marks one refilled from the spill area with a
nonzero reserved field or a bit for a slot at or above E (R134). -/
structure StackEntry where
  mask : BitVec 64
  deferred : Bool
  addr : VAddr
  bad : Bool := false
  deriving DecidableEq, Repr

/-- An open GUARD window (R111): words left, NEG and the predicate. -/
structure GuardWin where
  left : Nat
  neg : Bool
  pred : BitVec 3
  deriving DecidableEq, Repr

/-- The instruction of a barrier wait: BAR.WT, BAR.SYNC or BAR.SYNCM, or SNAP. -/
inductive BarForm where
  | wt
  | sync
  | snap
  deriving DecidableEq, Repr

/-- What a slice waits for. `blocked` holds the instruction that has not issued, the clock at which the
wait began, and its place among waits; `barrier` the barrier,
the target phase (R323), and the instruction that waits; `parked` a slice that has
stopped gathering (R137) at its parked address; `regang` one that waits at REGANG (R138). -/
inductive Wait where
  | ready
  | blocked (i : Instr) (since order : Nat)
  | barrier (b : Nat) (target : BitVec 32) (form : BarForm)
  | parked
  | regang
  | finished
  deriving DecidableEq, Repr

/-- A MACRO in progress (R118 to R121): its slices, the operation words, the step to run next, the
operand codes its parameters stand for, the IMM payloads of the MACRO's prefix, the hints pending inside
the microprogram, the issue step of the MACRO, and the pairs (slot, lane) live when it issued. -/
structure MacroRun where
  slices : BitVec 8
  ops : List Word
  step : Nat
  p0 : BitVec 7
  p1 : BitVec 7
  p2 : BitVec 7
  lit : List (BitVec 22)
  imm : List (BitVec 22) := []
  src3 : Option (BitVec 7) := none
  rnd : Option (BitVec 3) := none
  dup : Bool := false
  guardWin : Option GuardWin := none
  issueStep : Nat := 0
  live : List (Nat × Nat) := []
  deriving DecidableEq, Repr

/-- The pairs a slice holds parked while it gathers (R137): the address they are parked at with its
instruction, the pairs, those of them a GUARD window turns off there (R111), the window as it stood, and
the hints bound to the instruction with their first address, and the MACRO it is a step of (R119). -/
structure Park where
  addr : VAddr
  instr : Instr
  mask : BitVec 64
  off : BitVec 64
  guardWin : Option GuardWin := none
  imm : List (BitVec 22) := []
  src3 : Option (BitVec 7) := none
  rnd : Option (BitVec 3) := none
  pfx : Option VAddr := none
  run : Option MacroRun := none
  deriving DecidableEq, Repr

/-- The state of one slice (R129 to R137, R107 to R115). `stack` is the hardware part, top first;
`spilled` counts the entries in the spill area below it. `step` is the issue-step count. `imm` holds
the pending IMM payloads, oldest first; `dup` tells that a second SRC3 or RND word stands in the prefix
(R108); `pfx` is the address of the first word of an open run of IMM, SRC3 and RND words. `gang` is the
label of the gang, its lowest slice. `progress` counts the tasks that a SPAWN which has not completed has
entered (R184). `redo` is the MACRO that a trap left at one of its steps, which its word, issued again, takes up (R121). -/
structure Slice where
  pc : VAddr := 0
  active : BitVec 64 := 0
  exited : BitVec 64 := 0
  stack : List StackEntry := []
  spilled : Nat := 0
  stall : List (BitVec 3) := []
  guardWin : Option GuardWin := none
  imm : List (BitVec 22) := []
  src3 : Option (BitVec 7) := none
  rnd : Option (BitVec 3) := none
  dup : Bool := false
  pfx : Option VAddr := none
  step : Nat := 0
  gang : Nat := 0
  park : Option Park := none
  progress : Nat := 0
  redo : Option MacroRun := none
  wait : Wait := .ready
  deriving DecidableEq, Repr

/-- A deferred cause held for a group (R363, R366): the numeric code, the source (0 to 15 a Hod slot,
16 the Hod channel, 17 to 20 a Bead slot, 21 the Trowel), and the address that failed. -/
structure HeldCause where
  code : BitVec 16
  src : Nat
  faddr : BitVec 64
  trw : Bool
  tpc : VAddr
  deriving DecidableEq, Repr

/-- An arrival record (Table 13.2). -/
structure ArrRec where
  arvd : Bool := false
  aphase : BitVec 32 := 0
  deriving DecidableEq, Repr

/-- What trap entry saves (R365): the slices as HRET restores them, the slices as they stood (R367), the depths of their
stacks (R368), and the cause with the clock it was raised at (R387). -/
structure TrapSave where
  slices : List Slice
  left : List Slice
  depths : List Nat
  cause : BitVec 16
  clk : Nat
  trw : Bool
  deriving DecidableEq, Repr

/-- One group of a team (R67, R129, R140, R144, R364). `e` is the number of member contexts E;
`vbud` the register budget it started with, which its footprint counts (R67).
`spill` is the SPILL bytes of the group, 0 for a spawned one. `members` gives MEMBERID by slot.
`xbind` gives the long-accumulator binding of slot e, index i at key 4e + i; no entry is unbound.
`resv` gives the line reserved by pair 32e + l (R244). `startRole` is the ROLEID the group started with (R145), `mac` the
MACROs its gangs run. `endCause` is the
cause a handler ended on, at clock `endClk`. -/
structure Group where
  gid : Nat
  role : BitVec 32
  startRole : BitVec 32 := 1
  regbud : Nat
  vbud : Nat := 0
  sibling : Nat
  e : Nat
  spawned : Bool := false
  spill : Nat := 0
  members : SMap Nat := []
  regs : List (Loc × BitVec 32) := []
  pend : List PendWrite := []
  xbind : SMap Nat := []
  resv : SMap Nat := []
  slices : List Slice := []
  arrivals : SMap ArrRec := []
  privileged : Bool := false
  saved : Option TrapSave := none
  trapctx : List (BitVec 64) := [0, 0, 0, 0]
  held : List HeldCause := []
  reassigned : Bool := false
  mac : List MacroRun := []
  ended : Bool := false
  endCause : Option (BitVec 16) := none
  endClk : Nat := 0
  deriving DecidableEq, Repr

/-! ## Engines, barriers and the Trowel of a team -/

/-- A Hod command in a slot (R251): the 64-byte record, the group that issued it, the MEMBERID its
addresses are mapped with (R69), and the record's address. -/
structure HodCmd where
  slot : Nat
  record : BitVec 512
  gid : Nat
  member : Nat
  addr : BitVec 64
  deriving DecidableEq, Repr

/-- The Hod channel HODCH (Table 9.5) with the group and MEMBERID it acts for. -/
structure HodCh where
  busy : Bool := false
  head : VAddr := 0
  gid : Nat := 0
  member : Nat := 0
  deriving DecidableEq, Repr

/-- A Bead operation in a slot (R253). -/
structure BeadCmd where
  slot : Nat
  desc : BitVec 512
  gid : Nat
  member : Nat
  off : BitVec 64
  deriving DecidableEq, Repr

/-- Barrier state (Table 13.1). `last` is the clock and the rank of the arrival applied last (R322). -/
structure Barrier where
  phase : BitVec 32 := 0
  expect : BitVec 13 := 0
  arrived : BitVec 16 := 0
  last : Option (Nat × Nat) := none
  deriving DecidableEq, Repr

/-- A long accumulator (R46). -/
structure Lacc where
  n : BitVec 2176 := 0
  pinf : Bool := false
  ninf : Bool := false
  nan : Bool := false
  ovf : Bool := false
  deriving DecidableEq, Repr

/-- The mode of a named tile (Table 11.6). -/
inductive TileMode where
  | f32
  | f64
  | exact
  deriving DecidableEq, Repr

/-- The chain class of a named tile (R269). -/
inductive ChainClass where
  | unset
  | float
  | intSat
  | intWrap
  deriving DecidableEq, Repr

/-- An element of a tile: the bits of a binary32 or binary64 value in the low bits of `a`, or the
96-bit accumulator A with exponent F and the flags of R443. -/
structure Elem where
  a : BitVec 96 := 0
  f : Int := 0
  pinf : Bool := false
  ninf : Bool := false
  nan : Bool := false
  deriving DecidableEq, Repr

/-- A named tile (R269): its named slot, mode, chain state, captured band scales (four of A rows, four
of B columns) and elements, element (i, j) at key 256 i + j; an unlisted key reads `dflt`. -/
structure Tile where
  slot : Nat
  mode : TileMode := .f32
  first : Bool := true
  cls : ChainClass := .unset
  bandsA : List (BitVec 16) := []
  bandsB : List (BitVec 16) := []
  dflt : Elem := {}
  cells : SMap Elem := []
  deriving DecidableEq, Repr

/-- The state of the tape (Table 12.1, STATE). -/
inductive TapeMode where
  | off
  | recording
  | held
  | reversing
  deriving DecidableEq, Repr

/-- The tape state TAPECTX (Table 12.1), the number of records written (SEQ, Table 12.4), the base of the segment
in use (R306), and what a TREV in progress has read of its operands: the map, the binding table, and the SEQ of
the record it processed last (R308, R309). -/
structure TapeCtx where
  mode : TapeMode := .off
  polm : Bool := false
  polx : Bool := false
  broken : Bool := false
  ptr : VAddr := 0
  limit : VAddr := 0
  last : VAddr := 0
  revptr : VAddr := 0
  started : BitVec 8 := 0
  seq : Nat := 0
  seg : VAddr := 0
  map : BitVec 32 := 0
  binds : List (BitVec 256) := []
  expect : Option Nat := none
  deriving DecidableEq, Repr

/-- What the Trowel context is doing: running, waiting for a phase, halted by a trap (R264) that has
not been resolved, or finished by TEND. -/
inductive TrowelStatus where
  | running
  | waiting (b : Nat) (target : BitVec 32)
  | halted (code : BitVec 16)
  | finished
  deriving DecidableEq, Repr

/-- A Trowel context (Table 11.1; the m registers are the team's). `haltClk` is the clock of the trap that halted it (R387). -/
structure Trowel where
  pc : VAddr := 0
  t : SMap (BitVec 64) := []
  g : SMap (BitVec 256) := []
  tiles : List Tile := []
  tflags : BitVec 32 := 0
  imm : List (BitVec 22) := []
  pfx : Option VAddr := none
  arrivals : SMap ArrRec := []
  status : TrowelStatus := .running
  haltClk : Nat := 0
  tape : TapeCtx := {}
  deriving DecidableEq, Repr

/-- A spawn bin of a core (R96): its key (team and entry), its tasks' argument record pointers in
order, and the clock of its first task. -/
structure Bin where
  team : Nat
  entry : VAddr
  tasks : List (BitVec 64)
  first : Nat
  deriving DecidableEq, Repr

/-- A lease of a record (R68). -/
structure Lease where
  base : Nat
  len : Nat
  r : Bool
  w : Bool
  x : Bool
  deriving DecidableEq, Repr

/-- A member segment of a record (R69). -/
structure Seg where
  alias_ : Nat
  len : Nat
  backing : Nat
  deriving DecidableEq, Repr

/-- How a team ended: with no cause, or with one (R384, R387). -/
structure TeamEnd where
  teamid : Nat
  code : BitVec 16
  clk : Nat
  deriving DecidableEq, Repr

/-- A resident team (R66, R67, R93, R196, R208, R320, R375). `mregs` are the descriptor registers
m0 to m15, which every team holds (R253). `hawk` and `column` hold the allocation's bytes by offset (an unlisted byte
reads zero, R208); `hawkFull` and `colFull` list the granules whose full bit is set, ascending.
`colBase` is the base of the column allocation in the core's column (R208).
`pools` are the three role pools of R180, and `lastClaims` the clock and GROUPID of each role's claim granted last.
`ending` is a team-ending cause taken but not yet completed, raised at clock `endClk`; `ringLow` and `ringHigh` the clocks since which the ring has been low or high (R145). -/
structure Team where
  uid : Nat
  grid : Nat
  teamid : Nat
  core : Nat
  groups : List Group := []
  barriers : SMap Barrier := []
  pools : List Nat := [0, 0, 0]
  lastClaims : SMap (Nat × Nat) := []
  hodch : HodCh := {}
  hods : List HodCmd := []
  beads : List BeadCmd := []
  macros : SMap VAddr := []
  lac : SMap Lacc := []
  mregs : SMap (BitVec 128) := []
  hawk : List Host.Cell := []
  hawkFull : List Nat := []
  colBase : Nat := 0
  column : List Host.Cell := []
  colFull : List Nat := []
  trowel : Option Trowel := none
  snaps : Nat := 0
  ending : Option (BitVec 16) := none
  endClk : Nat := 0
  ringLow : Option Nat := none
  ringHigh : Option Nat := none
  started : Nat := 0
  deriving DecidableEq, Repr

/-- A team saved by PREEMPT (R372, R374) or by a SNAP (R381): the image's address and length, its sequence number,
and what its sections hold (their layout is an implementation's own, R375): the team and its spawn bins. -/
structure SavedTeam where
  base : VAddr
  len : Nat
  seq : Nat
  team : Team
  bins : List Bin
  deriving DecidableEq, Repr

/-! ## Grids, queues and graphs -/

/-- Where a taken record stands (Table 4.5). `leasing` holds the lease and the page to pin next. -/
inductive GridStage where
  | leasing (lease page : Nat)
  | lwait (lease page : Nat)
  | placing
  | running
  | ended
  deriving DecidableEq, Repr

/-- A taken launch record and the grid it makes (R64, R66, R79, R81, R385). `record` holds the 256
bytes, byte 0 in the low bits. `pins` lists the physical addresses of the pinned leaf entries.
`glen` and `tlen` are the lengths of the streams of the code object. `cut` counts the teams that are never placed
because a lasting fault ended the grid, and `cutClk` is the clock of that fault (R379, R387). -/
structure Grid where
  uid : Nat
  queue : Nat
  asid : BitVec 12
  root : Nat
  record : BitVec 2048
  leases : List Lease
  segs : List Seg
  goff : Nat
  glen : Nat
  toff : Nat
  tlen : Nat
  macros : SMap VAddr
  stage : GridStage
  headSeq : BitVec 16
  pins : List Nat := []
  nextTeam : Nat := 0
  ends : List TeamEnd := []
  tflags : BitVec 8 := 0
  startClk : Nat := 0
  restarts : Nat := 0
  suspended : List SavedTeam := []
  held : Bool := false
  snapshots : List SavedTeam := []
  restartQ : List Nat := []
  node : Option (Nat × BitVec 64) := none
  cut : Nat := 0
  cutClk : Option Nat := none
  deriving DecidableEq, Repr

/-- A hardware work queue (Tables 4.1 to 4.6, 16.2). `pending` is the grid whose record is in LEASING,
LWAIT or PLACING. `updGrids` and `updFailed` are what the Dispatcher has added to QSTAT at clock `updClk` (R389). -/
structure Queue where
  base : BitVec 44 := 0
  log2n : BitVec 4 := 0
  asid : BitVec 12 := 0
  en : Bool := false
  prod : Bool := false
  serial : Bool := false
  err : Bool := false
  prio : BitVec 4 := 0
  head : BitVec 16 := 0
  tail : BitVec 16 := 0
  root : BitVec 30 := 0
  qfault : BitVec 64 := 0
  pending : List Nat := []
  grids : BitVec 32 := 0
  failed : BitVec 16 := 0
  lastcode : BitVec 16 := 0
  updClk : Nat := 0
  updGrids : Nat := 0
  updFailed : Nat := 0
  deriving DecidableEq, Repr

/-- A resident graph on its way (R71 to R74). `reached` nodes wait to start; `running` ones stand with their
successors, a copy also in `copies` with its source, destination and length; `zeroed` lists the while nodes whose COUNT has been cleared; `node` names the node
of another graph whose record started this one; `codeClk` is the clock at which `code` was raised (R387). -/
structure GraphRun where
  uid : Nat
  queue : Nat
  asid : BitVec 12
  root : Nat
  complva : BitVec 64
  headSeq : BitVec 16
  node : Option (Nat × BitVec 64) := none
  reached : List (BitVec 64) := []
  running : List (BitVec 64 × BitVec 64 × BitVec 64) := []
  copies : List (BitVec 64 × Nat × Nat × Nat) := []
  zeroed : List (BitVec 64) := []
  code : BitVec 16 := 0
  codeClk : Nat := 0
  stop : Bool := false
  nok : Nat := 0
  nerr : Nat := 0
  deriving DecidableEq, Repr

/-! ## Cores -/

/-- A line of a core's L1 (R214): the line's physical address divided by 64, the bytes it holds
(offset, value, dirty), the clock since which it is dirty and the clock of its fill. `bond` lists the lines that hold other
parts of blocks stored with its dirty bytes (R37), `stamp` numbers the step that filled it, 0 for none. -/
structure L1Line where
  line : Nat
  bytes : List (Nat × BitVec 8 × Bool) := []
  dirtySince : Option Nat := none
  filled : Option Nat := none
  bond : List Nat := []
  stamp : Nat := 0
  deriving DecidableEq, Repr

/-- A TLB entry (R85): ASID, page number at the page's size, the size's shift, the frame's physical
base, permissions, D, and the physical address of the leaf it came from. -/
structure TlbEntry where
  asid : BitVec 12
  shift : Nat
  vpn : Nat
  frame : Nat
  r : Bool
  w : Bool
  x : Bool
  d : Bool
  leaf : Nat
  deriving DecidableEq, Repr

/-- An entry of a vertical FIFO (R228): the sending grid and 128 bytes. -/
structure FifoEntry where
  grid : Nat
  data : BitVec 1024
  deriving DecidableEq, Repr

/-- A core (R23, R146 to R150, R214, R228, R229). `fifo` is the FIFO towards the partner core, oldest
first. `victims` gives each L1 set's victim tags, newest last. `tokens` lists the holders of load
tokens (team, group, since, last load) and `tokenQ` the groups that wait for one. -/
structure CoreSt where
  l1 : List L1Line := []
  tlb : List TlbEntry := []
  fifo : List FifoEntry := []
  bins : List Bin := []
  locEn : Bool := true
  wlog2 : BitVec 4 := 4
  thr : BitVec 12 := 256
  maxld : BitVec 7 := 64
  limit : BitVec 7 := 64
  lastEvents : BitVec 16 := 0
  events : Nat := 0
  windowStart : Nat := 0
  victims : SMap (List Nat) := []
  tokens : List (Nat × Nat × Nat × Nat) := []
  tokenQ : List (Nat × Nat) := []
  vgErr : Bool := false
  vgReq : Bool := false
  gated : Bool := false
  ungating : Bool := false
  fenced : Bool := false
  frozen : Option Nat := none
  deriving DecidableEq, Repr

/-! ## Windows, collectives, links, logs -/

/-- The state of a collective instance of this package (Table 14.8). -/
inductive CollState where
  | armed
  | check
  | run
  | done
  | abort
  deriving DecidableEq, Repr

/-- A collective instance (R350 to R362). `hdr` is this package's header; `heard` the headers rank 0's
reducer has; `inputs` the chunks that have arrived to be reduced, `fired` the chunks this package
fired; `reduced` the chunks whose results have been formed and `results` those of the results not yet written; `areas` the
second headers of ENS participants, `roff` the result area's offset that this package checked (R358), and `peers` the other participants. -/
structure Coll where
  collId : Nat
  inst : Nat
  grid : Nat
  state : CollState := .armed
  hdr : Option CollHeader := none
  heard : List CollHeader := []
  areas : List CollHeader := []
  roff : Option Nat := none
  peers : List (BitVec 10) := []
  fired : List Nat := []
  inputs : List CollChunk := []
  results : List CollChunk := []
  reduced : List Nat := []
  code : BitVec 16 := 0
  codeClk : Nat := 0
  flags : BitVec 5 := 0
  firstFire : Nat := 0
  deriving DecidableEq, Repr

/-- LINKST of a Scrim port or CXL link (Table 22.8a); `trained` tells that it has been in STATE 1 since package reset. -/
structure Link where
  en : Bool := true
  state : BitVec 3 := 0
  retrains : BitVec 16 := 0
  trained : Bool := false
  deriving DecidableEq, Repr

/-- A frame this package has sent through Lath (Table 22.6). -/
structure LathFrame where
  ty : BitVec 8
  seq : BitVec 16
  addr : BitVec 64
  status : BitVec 8
  payload : List (BitVec 8)
  deriving DecidableEq, Repr

/-- A page exchange in progress (R91): the physical addresses of the two leaf entries and the log2 of
the pages' size. -/
structure SwapRun where
  ea : Nat
  eb : Nat
  shift : Nat
  deriving DecidableEq, Repr

/-- The registers of the Lath register space that belong to no table of their own (Table 23.2), with
the link's own numbering. `rttSet` tells that the memory at BASE has held RTT entries since BASE was written. -/
structure LathRegs where
  colErr : Bool := false
  colBusy : Bool := false
  colSince : Nat := 0
  ratio : BitVec 2 := 0
  ratioNew : BitVec 2 := 0
  scrimErr : Bool := false
  chipId : BitVec 10 := 0
  colltmo : BitVec 32 := 0
  pwrErr : Bool := false
  pwrLimit : BitVec 12 := 3400
  freq : BitVec 16 := 0
  placeD : BitVec 4 := 0
  placeTref : BitVec 8 := 85
  placeTw : BitVec 8 := 0
  placeVw : BitVec 8 := 0
  spawnTimeout : BitVec 16 := 256
  rttBase : BitVec 26 := 0
  rttEn : Bool := false
  rttSet : Bool := false
  xiBusy : Bool := false
  xiErr : Bool := false
  xiPage : BitVec 41 := 0
  xiAsid : BitVec 12 := 0
  xiScope : BitVec 2 := 0
  swapA : BitVec 48 := 0
  swapB : BitVec 48 := 0
  swapStatus : BitVec 3 := 0
  swap : Option SwapRun := none
  xcErr : Bool := false
  xcStatus : BitVec 6 := 0
  xcQ : BitVec 10 := 0
  xcBusy : Bool := false
  xcPins : List Nat := []
  xcGrid : Nat := 0
  xcOp : BitVec 3 := 0
  ximg : BitVec 41 := 0
  ximgLen : BitVec 48 := 0
  rxSeq : BitVec 16 := 0
  txSeq : BitVec 16 := 0
  unacked : List LathFrame := []
  backlog : List LathFrame := []
  sent : List LathFrame := []
  deriving DecidableEq, Repr

/-- What survives on the module and in the fuses (R422, R425 to R428): the primary slot's image, the
recovery image, the fused key hashes, key revocation mask and minimum SVN, and the public keys of the
flash. None of it is lost at reset. -/
structure Module where
  primary : List (BitVec 8) := []
  recovery : List (BitVec 8) := []
  keys : List (BitVec 456) := []
  keyHash : List (BitVec 512) := []
  revoked : BitVec 4 := 0
  minSvn : BitVec 32 := 0
  deriving DecidableEq, Repr

/-- What runs after bring-up (R424, R428, R429): whether power is on, whether the recovery image runs,
its SVN and its DIGEST; `bring` is the bring-up in progress. -/
structure Firmware where
  powered : Bool := true
  alert : Bool := false
  recoveryRunning : Bool := false
  svn : BitVec 32 := 0
  digest : BitVec 512 := 0
  bring : Option BringUp := none
  deriving DecidableEq, Repr

/-! ## Who moves -/

/-- Who moves next: a gang of a group, a Trowel, an event of the table with what it is about, or the home L2 of a line (its
address divided by 256), which evicts it (R215). -/
inductive Turn where
  | gang (team group gang : Nat)
  | trowel (team : Nat)
  | event (i : Instr) (arg : EventArg)
  | evict (line : Nat)
  deriving DecidableEq, Repr

/-- Which agent issues the instruction that `exec` runs. -/
inductive Issuer where
  | nobody
  | gang (team group gang : Nat)
  | trowel (team : Nat)
  deriving DecidableEq, Repr

/-- The state of the package. `agenda` lists who moves next; when it is empty the model takes any agent
that can move. `issuer` is the agent whose instruction runs, `arg` what the event that runs is about. `clk` counts arithmetic clocks since
reset; `tick` is the model's own counter of steps, to which the free values of `Config` are applied.
`mem` is the physical memory behind the home L2s; an unlisted byte reads `0`. `cxlUp` gives CXLUP of PKGINFO (R25). `base` is the online map of bring-up, before power
gating and fencing. `stuck` counts the clocks for which a reflection in
`outbox` has found no way out (R348). A reflection held for a team (R348) stands with its grid and the receive entry it arrived under, one
that waits on LOCK with that entry (R349). `collOut` holds the collective steps on their way, `collSent` those that have left by
a port. -/
structure State where
  clk : Nat := 0
  tick : Nat := 0
  agenda : List Turn := []
  issuer : Issuer := .nobody
  arg : EventArg := .nothing
  level : BitVec 4 := 0
  base : BitVec 64 := 0
  hbmUp : BitVec 12 := 0
  cxlUp : BitVec 8 := 0
  fencedFrames : List Nat := []
  fencedReducers : BitVec 12 := 0
  fencedWays : List Nat := []
  fencedPorts : BitVec 48 := 0
  fencedLinks : BitVec 8 := 0
  lath : LathRegs := {}
  flash : Module := {}
  firmware : Firmware := {}
  mem : List Host.Cell := []
  l2Dirty : List Nat := []
  queues : SMap Queue := []
  prioPtr : SMap Nat := []
  placeP : Nat := 0
  grids : List Grid := []
  graphs : List GraphRun := []
  nextUid : Nat := 0
  teams : List Team := []
  cores : SMap CoreSt := []
  txw : SMap (BitVec 256) := []
  rxw : SMap (BitVec 256) := []
  route : SMap (BitVec 48) := []
  outbox : List Flit := []
  stuck : SMap Nat := []
  forwarded : List (Nat × Flit) := []
  heldRefl : List (Nat × BitVec 256 × Flit) := []
  lockedRefl : List (BitVec 256 × Flit) := []
  undelivered : List (Nat × Nat × Nat) := []
  nextFlit : Nat := 0
  colls : List Coll := []
  collCount : SMap Nat := []
  collOut : List CollFlit := []
  collSent : List (Nat × CollFlit) := []
  scrim : SMap Link := []
  cxl : SMap Link := []
  errHead : BitVec 64 := 0
  errLog : SMap (BitVec 512) := []
  counters : SMap (BitVec 64) := []
  retryReads : List FaultUnit := []
  deriving DecidableEq, Repr

/-- The package right after package reset (R10, R422): every field holds its default. -/
def State.reset : State := {}

end Sys2Proof.Machine
end

