-- ==== Sys2Proof/Machine/Assoc.lean ====
section
/-! DEFINITION. Sparse tables with natural keys in strictly rising order, the byte memories built on them
(a byte that is not listed reads 0, and no listed byte is 0), and updates of lists of records by key. -/

namespace Sys2Proof.Machine

/-- The entry of a key. -/
def mapGet {α : Type} (m : List (Nat × α)) (k : Nat) : Option α :=
  match m with
  | [] => none
  | (j, v) :: rest => if j = k then some v else mapGet rest k

/-- The table with one entry set, kept in rising key order. -/
def mapSet {α : Type} (m : List (Nat × α)) (k : Nat) (v : α) : List (Nat × α) :=
  match m with
  | [] => [(k, v)]
  | (j, x) :: rest => if k < j then (k, v) :: (j, x) :: rest else if k = j then (k, v) :: rest else (j, x) :: mapSet rest k v

/-- The table without an entry. -/
def mapErase {α : Type} (m : List (Nat × α)) (k : Nat) : List (Nat × α) :=
  match m with
  | [] => []
  | (j, x) :: rest => if j = k then rest else if k < j then (j, x) :: rest else (j, x) :: mapErase rest k

/-- The keys rise strictly, all above `lo` where one is given. -/
def mapRising {α : Type} (m : List (Nat × α)) : Bool :=
  match m with
  | [] => true
  | (j, _) :: rest => (match rest with | [] => true | (k, _) :: _ => decide (j < k)) && mapRising rest

/-- A byte of a byte memory. -/
def byteAt (m : List Host.Cell) (a : Nat) : Byte := (mapGet m a).getD 0

/-- A byte memory with one byte written; a byte that becomes 0 is no longer listed. -/
def byteSet (m : List Host.Cell) (a : Nat) (v : Byte) : List Host.Cell :=
  if v = 0 then mapErase m a else mapSet m a v

/-- The canonical form: addresses strictly rising, and no entry equal to what an unlisted address reads as. -/
def Memory.wf (m : List Host.Cell) : Bool := mapRising m && m.all (fun c => decide (c.2 ≠ 0))

/-- `n` bytes from `a` up. -/
def bytesAt (m : List Host.Cell) (a n : Nat) : List Byte := (List.range n).map fun j => byteAt m (a + j)

/-- A byte memory with consecutive bytes written from `a` up. -/
def bytesSet (m : List Host.Cell) (a : Nat) (bs : List Byte) : List Host.Cell :=
  match bs with
  | [] => m
  | b :: rest => bytesSet (byteSet m a b) (a + 1) rest

/-- The natural of little-endian bytes (R5). -/
def natOfBytes (bs : List Byte) : Nat :=
  match bs with
  | [] => 0
  | b :: rest => b.toNat + 256 * natOfBytes rest

/-- `n` little-endian bytes of a natural (R5). -/
def bytesOfNat (n v : Nat) : List Byte :=
  match n with
  | 0 => []
  | k + 1 => BitVec.ofNat 8 v :: bytesOfNat k (v / 256)

/-- A sorted list of naturals with one more. -/
def natInsert (l : List Nat) (k : Nat) : List Nat :=
  match l with
  | [] => [k]
  | j :: rest => if k < j then k :: j :: rest else if k = j then j :: rest else j :: natInsert rest k

/-- A sorted list of naturals without one. -/
def natErase (l : List Nat) (k : Nat) : List Nat := l.filter (fun j => decide (j ≠ k))

/-- The naturals below `n` whose bit is set in a mask. -/
def bitsOf {w : Nat} (n : Nat) (m : BitVec w) : List Nat := (List.range n).filter fun j => m.getLsbD j

/-- The mask of a list of bit places. -/
def maskOf (w : Nat) (l : List Nat) : BitVec w := l.foldl (fun m j => m ||| BitVec.twoPow w j) 0

/-- An element of a list, or a default. -/
def nth {α : Type} (l : List α) (k : Nat) (d : α) : α := l.getD k d

/-- Stable sort: elements that compare equal keep their order. -/
def stableSort {α : Type} (before : α → α → Bool) (l : List α) : List α :=
  l.reverse.foldl (fun acc x => insertSortedLast before x acc) []
where
  /-- Inserts an element that stood before all of `acc`: it goes before the first element it need not follow. -/
  insertSortedLast (before : α → α → Bool) (x : α) (acc : List α) : List α :=
    match acc with
    | [] => [x]
    | y :: rest => if before y x then y :: insertSortedLast before x rest else x :: y :: rest

/-! ## Records by key -/

/-- The team of a uid. -/
def State.team? (s : State) (uid : Nat) : Option Team := s.teams.find? fun t => decide (t.uid = uid)
/-- The grid of a uid. -/
def State.grid? (s : State) (uid : Nat) : Option Grid := s.grids.find? fun g => decide (g.uid = uid)
/-- The group of a GROUPID. -/
def Team.group? (t : Team) (gid : Nat) : Option Group := t.groups.find? fun g => decide (g.gid = gid)

/-- A team changed in place. -/
def State.updTeam (s : State) (uid : Nat) (f : Team → Team) : State :=
  { s with teams := s.teams.map fun t => if t.uid = uid then f t else t }
/-- A grid changed in place. -/
def State.updGrid (s : State) (uid : Nat) (f : Grid → Grid) : State :=
  { s with grids := s.grids.map fun g => if g.uid = uid then f g else g }
/-- A group changed in place. -/
def Team.updGroup (t : Team) (gid : Nat) (f : Group → Group) : Team :=
  { t with groups := t.groups.map fun g => if g.gid = gid then f g else g }
/-- A group of a team changed in place. -/
def State.updGroup (s : State) (uid gid : Nat) (f : Group → Group) : State :=
  s.updTeam uid fun t => t.updGroup gid f
/-- A core, in its reset state where nothing has changed it. -/
def State.core (s : State) (c : Nat) : CoreSt := (mapGet s.cores c).getD {}
/-- A core changed. -/
def State.updCore (s : State) (c : Nat) (f : CoreSt → CoreSt) : State :=
  { s with cores := mapSet s.cores c (f (s.core c)) }
/-- A queue. -/
def State.queue (s : State) (q : Nat) : Queue := (mapGet s.queues q).getD {}
/-- A queue changed. -/
def State.updQueue (s : State) (q : Nat) (f : Queue → Queue) : State :=
  { s with queues := mapSet s.queues q (f (s.queue q)) }

/-- `len` bytes at byte `off` of a grid's launch record (Table 3.3). -/
def Grid.field (g : Grid) (off len : Nat) : Nat := (g.record.toNat / 2 ^ (8 * off)) % 2 ^ (8 * len)
/-- Bits `[lo + len − 1 : lo]` of CTL (Table 3.5). -/
def Grid.ctl (g : Grid) (lo len : Nat) : Nat := (g.field 0x34 4 / 2 ^ lo) % 2 ^ len

end Sys2Proof.Machine
end

