-- ==== Sys2Proof/Machine/Mem.lean ====
section
/-! DEFINITION. Memory: the physical backing (R442), the home L2s and the cores' L1s (R214, R215),
reservations (R245), the radix tables, RTT and TLBs (R82 to R89), leases and member segments (R68, R69),
and the accesses of groups and engines built on them. -/

namespace Sys2Proof.Machine

/-! ## Physical memory -/

/-- The HBM range of one tower in bytes. -/
def hbmRange : Nat := 0x6000000000
/-- The first byte of the CXL tier. -/
def cxlBase : Nat := 0x10000000000
/-- The range of one CXL link in bytes. -/
def cxlRange : Nat := 0xC000000000

/-- A Scrim port's or a CXL link's LINKST. -/
def State.cxlLink (s : State) (n : Nat) : Link := (mapGet s.cxl n).getD {}
/-- A Scrim port. -/
def State.scrimPort (s : State) (n : Nat) : Link := (mapGet s.scrim n).getD {}

/-- Whether a physical byte has backing (R442). -/
def backed (s : State) (pa : Nat) : Bool :=
  if pa < 2 * hbmRange then
    let t := pa / hbmRange
    let g := (pa % hbmRange) / 4096
    s.hbmUp.getLsbD (6 * t + g % 6)
  else if cxlBase ≤ pa ∧ pa < cxlBase + 8 * cxlRange then
    (s.cxlLink ((pa - cxlBase) / cxlRange)).state == 2
  else false

/-- Whether a whole page of `2 ^ shift` bytes has backing: a page of 64 KiB or more spans all six stacks of
its tower (R442). -/
def pageBacked (s : State) (pa shift : Nat) : Bool :=
  (List.range 16).all fun g => backed s (pa + 4096 * g) && backed s (pa + 2 ^ shift - 4096 * (g + 1))

/-- The tower whose L2 is the home of a physical address (R215, R442). -/
def homeTower (pa : Nat) : Nat :=
  if pa < cxlBase then pa / hbmRange else ((pa - cxlBase) / cxlRange) / 4
/-- The tower of a core (R14). -/
def coreTower (c : Nat) : Nat := c / 32

/-- A group without its reservations on a line (R245). -/
def Group.clearLine (g : Group) (line : Nat) : Group :=
  { g with resv := g.resv.filter fun r => decide (r.2 ≠ line) }
/-- Every group without its reservations on a line (R245). -/
def clearReservations (s : State) (line : Nat) : State :=
  { s with teams := s.teams.map fun t => { t with groups := t.groups.map fun g => g.clearLine line } }

/-- A byte at its home L2. An access of the device itself (a walk, a queue, the RTT, a swap) to an address without backing
reads and writes the same store: the spec gives such an access no other effect (DESIGN CHOICE, assumption 64). -/
def l2Read (s : State) (pa : Nat) : Byte := byteAt s.mem pa
/-- A byte written at its home L2: its sector is dirty, and every reservation of the line is lost. -/
def l2Write (s : State) (pa : Nat) (v : Byte) : State :=
  clearReservations { s with mem := byteSet s.mem pa v, l2Dirty := natInsert s.l2Dirty (pa / 64) } (pa / 64)
/-- Consecutive bytes written at the home L2. -/
def l2WriteBytes (s : State) (pa : Nat) (bs : List Byte) : State :=
  match bs with
  | [] => s
  | b :: rest => l2WriteBytes (l2Write s pa b) (pa + 1) rest
/-- `n` bytes at the home L2. -/
def l2ReadBytes (s : State) (pa n : Nat) : List Byte := bytesAt s.mem pa n
/-- A 64-bit word at the home L2. -/
def l2Read64 (s : State) (pa : Nat) : DWord := BitVec.ofNat 64 (natOfBytes (l2ReadBytes s pa 8))
/-- A 64-bit word written at the home L2. -/
def l2Write64 (s : State) (pa : Nat) (v : DWord) : State := l2WriteBytes s pa (bytesOfNat 8 v.toNat)

/-! ## The L1 of a core -/

/-- The line of a core's L1 that holds a physical line, by its number. -/
def CoreSt.line? (c : CoreSt) (ln : Nat) : Option L1Line := c.l1.find? fun e => decide (e.line = ln)
/-- The entry of one byte of a line: its value and whether it is dirty. -/
def L1Line.byte? (e : L1Line) (off : Nat) : Option (Byte × Bool) :=
  (e.bytes.find? fun b => decide (b.1 = off)).map fun b => b.2
/-- A byte of a line set. -/
def L1Line.setByte (e : L1Line) (off : Nat) (v : Byte) (dirty : Bool) : L1Line :=
  { e with bytes := (off, v, dirty) :: e.bytes.filter fun b => decide (b.1 ≠ off) }
/-- A core with one line of its L1 replaced, or added. -/
def CoreSt.putLine (c : CoreSt) (e : L1Line) : CoreSt :=
  { c with l1 := e :: c.l1.filter fun x => decide (x.line ≠ e.line) }

/-- The dirty bytes of a line written to its home L2. -/
def flushBytes (s : State) (line : Nat) (bs : List (Nat × Byte × Bool)) : State :=
  match bs with
  | [] => s
  | (off, v, dirty) :: rest => flushBytes (if dirty then l2Write s (64 * line + off) v else s) line rest

/-- One line of a core's L1 written to the home L2 and clean afterwards; from then on its age counts as that of a line filled
from L2 (R329). -/
def writeBackOne (s : State) (c ln : Nat) : State :=
  match (s.core c).line? ln with
  | none => s
  | some e =>
    let s1 := flushBytes s ln e.bytes
    s1.updCore c fun k => k.putLine { e with
      bytes := e.bytes.map (fun b => (b.1, b.2.1, false)), dirtySince := none, filled := some (e.filled.getD s.clk), bond := [] }

/-- The lines that hold blocks stored together with those of a list, one bond after another (R37). -/
def CoreSt.bonded (k : CoreSt) : Nat → List Nat → List Nat
  | 0, ls => ls
  | fuel + 1, ls =>
    let more := ls.flatMap fun ln => ((k.line? ln).map fun e => e.bond).getD []
    if more.all ls.contains then ls else k.bonded fuel (more.foldl natInsert ls)

/-- CWB.L1 of one line: its dirty bytes are written to the home L2 and are clean afterwards (R249), in one step with the
lines that hold other parts of its blocks (R37). -/
def writeBackLine (s : State) (c ln : Nat) : State :=
  ((s.core c).bonded (s.core c).l1.length [ln]).foldl (fun s k => writeBackOne s c k) s

/-- CINV.L1 of one line: written back, then invalid (R249). -/
def dropLine (s : State) (c ln : Nat) : State :=
  match (s.core c).line? ln with
  | none => s
  | some _ => (writeBackLine s c ln).updCore c fun k => { k with l1 := k.l1.filter fun x => decide (x.line ≠ ln) }

/-- The numbers of the lines a core's L1 holds. -/
def CoreSt.lineNos (c : CoreSt) : List Nat := c.l1.map fun e => e.line
/-- Every line of a core's L1 written back. -/
def writeBackAll (s : State) (c : Nat) : State := (s.core c).lineNos.foldl (fun s ln => writeBackLine s c ln) s
/-- Every line of a core's L1 written back and invalidated. -/
def dropAll (s : State) (c : Nat) : State := (s.core c).lineNos.foldl (fun s ln => dropLine s c ln) s
/-- The clean bytes of a core's L1 forgotten, as an acquire beyond .core needs: later loads refetch them,
and stores that are not yet performed beyond the core stay (R329, R332). -/
def dropClean (s : State) (c : Nat) : State :=
  let keepDirty (e : L1Line) : L1Line := { e with bytes := e.bytes.filter (fun b => b.2.2), filled := none }
  s.updCore c fun k => { k with l1 := (k.l1.map keepDirty).filter (fun e => !e.bytes.isEmpty) }

/-- Room made in the L1 set of a line: with eight lines held, one of them is written back, leaves, and is
the set's newest victim tag of four (R148, R214). -/
def makeRoom (s : State) (c ln : Nat) : State :=
  let inSet := (s.core c).lineNos.filter fun x => decide (x % 1024 = ln % 1024)
  if inSet.length < 8 then s
  else
    let v := nth inSet (Config.l1Victim s.tick (ln % 1024) % inSet.length) ln
    let s1 := dropLine s c v
    s1.updCore c fun k =>
      let old := (mapGet k.victims (ln % 1024)).getD []
      { k with victims := mapSet k.victims (ln % 1024) ((old ++ [v]).drop (old.length + 1 - 4)) }

/-- A load that misses L1 and matches a victim tag counts one event and removes the tag (R148). -/
def countVictim (s : State) (c ln : Nat) : State :=
  s.updCore c fun k =>
    let old := (mapGet k.victims (ln % 1024)).getD []
    if old.contains ln then
      { k with victims := mapSet k.victims (ln % 1024) (old.filter fun x => decide (x ≠ ln)), events := k.events + 1 }
    else k

/-- A line filled from the home L2: every byte that is not dirty takes the value L2 holds, so no load joins bytes of two
fills (R328). -/
def fillLine (s : State) (e : L1Line) : L1Line :=
  (List.range 64).foldl
    (fun e off => match e.byte? off with
      | some (_, true) => e
      | _ => e.setByte off (l2Read s (64 * e.line + off)) false)
    { e with filled := some s.clk, stamp := s.tick + 1 }

/-- What a load on path V of a core reads at a physical byte: its L1's copy where it holds one, else the
home L2's (R214, R215). -/
def coreView (s : State) (c pa : Nat) : Byte :=
  if homeTower pa = coreTower c then
    match (s.core c).line? (pa / 64) with
    | some e => match e.byte? (pa % 64) with
      | some b => b.1
      | none => l2Read s pa
    | none => l2Read s pa
  else l2Read s pa

/-- The line of a physical byte brought to a core's L1, where the core is in its home tower. -/
def coreFill (s : State) (c pa : Nat) : State :=
  if homeTower pa = coreTower c then
    match (s.core c).line? (pa / 64) with
    | some e =>
      match e.byte? (pa % 64) with
      | some _ => s
      | none => s.updCore c fun k => k.putLine (fillLine s e)
    | none =>
      let s1 := makeRoom s c (pa / 64)
      s1.updCore c fun k => k.putLine (fillLine s1 { line := pa / 64 })
  else s

/-- The state after a core's load of a physical byte: the line is present and filled, and a miss that matches a victim tag is
counted (R148). -/
def coreTouch (s : State) (c pa : Nat) : State :=
  coreFill (if homeTower pa = coreTower c ∧ ((s.core c).line? (pa / 64)).isNone then countVictim s c (pa / 64) else s) c pa

/-- A core's store of a physical byte on path V: into its L1, which allocates without fetching, or at the
home L2 of the other tower; either way reservations of the line are lost (R214, R245). -/
def coreStore (s : State) (c pa : Nat) (v : Byte) : State :=
  if homeTower pa = coreTower c then
    let s1 := match (s.core c).line? (pa / 64) with
      | some _ => s
      | none => makeRoom s c (pa / 64)
    let e := ((s1.core c).line? (pa / 64)).getD { line := pa / 64 }
    clearReservations
      (s1.updCore c fun k => k.putLine { e.setByte (pa % 64) v true with dirtySince := some (e.dirtySince.getD s.clk) })
      (pa / 64)
  else l2Write s pa v

/-! ## The home L2 -/

/-- Every L1 copy of a line taken back, with its dirty bytes (R215). -/
def recallLine (s : State) (ln : Nat) : State := s.cores.foldl (fun s k => dropLine s k.1 ln) s

/-- An L2 line of four sectors evicted: its L1 copies are taken back first, and the dirty bytes of its dirty sectors reach
the memory behind it (R215). -/
def evictL2 (s : State) (n : Nat) : State :=
  let s1 := (List.range 4).foldl (fun s j => recallLine s (4 * n + j)) s
  { s1 with l2Dirty := s1.l2Dirty.filter fun x => decide (x / 4 ≠ n) }

/-! ## Translation -/

/-- The result of a translation: the physical address, a page that is locked (R92), or none (R89). -/
inductive Xlat where
  | ok (pa : Nat) (s : State)
  | locked
  | lost

/-- A leaf found by the walk: the physical address of its entry, its page's shift, and its word 0. -/
structure LeafAt where
  entry : Nat
  shift : Nat
  word : BitVec 64
  deriving DecidableEq, Repr

/-- The outcome of a walk (R84): a leaf, no valid leaf, or a malformed entry. -/
inductive WalkEnd where
  | leaf (l : LeafAt)
  | invalid
  | malformed
  deriving DecidableEq, Repr

/-- PPN of a word 0 as a physical address. -/
def entryPa (w : BitVec 64) : Nat := (w.extractLsb' 16 36).toNat * 65536
/-- V, LEAF, R, W, X, A, D, TIER and LOCK of a word 0 (Table 4.7). -/
def entryV (w : BitVec 64) : Bool := w.getLsbD 0
/-- LEAF. -/
def entryLeaf (w : BitVec 64) : Bool := w.getLsbD 1
/-- LOCK. -/
def entryLock (w : BitVec 64) : Bool := w.getLsbD 8
/-- TIER. -/
def entryTier (w : BitVec 64) : Bool := w.getLsbD 7
/-- PIN. -/
def entryPin (w : BitVec 64) : Nat := (w.extractLsb' 52 12).toNat

/-- Whether a physical byte lies in a fenced 64 KiB HBM frame (R379). -/
def frameFenced (s : State) (pa : Nat) : Bool := s.fencedFrames.contains (pa / 65536)

/-- The shift of the index and page of a radix level (Table 4.8). -/
def levelShift (level : Nat) : Nat :=
  match level with
  | 0 => 16
  | 1 => 21
  | 2 => 30
  | _ => 39
/-- The index of an address at a level. -/
def levelIndex (level va : Nat) : Nat :=
  match level with
  | 0 => (va / 2 ^ 16) % 32
  | 1 => (va / 2 ^ 21) % 512
  | 2 => (va / 2 ^ 30) % 512
  | _ => (va / 2 ^ 39) % 2 ^ 18

/-- The radix walk from the table at `table`, for a level counted down (R84, R85). A leaf is not valid for an address whose
64 KiB frame is fenced (R379). -/
def walkFrom (s : State) (va : Nat) (level : Nat) (table : Nat) : WalkEnd :=
  let ea := table + 16 * levelIndex level va
  let w := l2Read64 s ea
  if !entryV w then .invalid
  else if w.extractLsb' 9 7 ≠ 0 ∨ l2Read64 s (ea + 8) ≠ 0 then .malformed
  else if entryLeaf w then
    if level = 3 then .malformed
    else if entryPa w % 2 ^ levelShift level ≠ 0 ∨ !pageBacked s (entryPa w) (levelShift level) then .malformed
    else if frameFenced s (entryPa w + va % 2 ^ levelShift level) then .invalid
    else .leaf ⟨ea, levelShift level, w⟩
  else
    match level with
    | 0 => .malformed
    | k + 1 => walkFrom s va k (entryPa w)

/-- The walk of a virtual address from QROOT. -/
def walk (s : State) (root va : Nat) : WalkEnd := walkFrom s va 3 root

/-- The RTT set and way tag of an address (R86). -/
def rttVpn (va shift : Nat) : Nat := va / 2 ^ shift
/-- The RTT set of a page number. -/
def rttSet (vpn asid : Nat) : Nat := (vpn ^^^ (vpn / 2 ^ 20) ^^^ (asid * 256)) % 2 ^ 20
/-- The physical address of the RTT. -/
def rttAddr (s : State) : Nat := s.lath.rttBase.toNat * 2 ^ 26
/-- SIZE of word 1 of an RTT entry by page shift. -/
def rttSize (shift : Nat) : Nat := if shift = 16 then 0 else if shift = 21 then 1 else 2
/-- Word 1 of the RTT entry of a page (R86). -/
def rttTag (va shift asid : Nat) : BitVec 64 :=
  BitVec.ofNat 64 ((va / 2 ^ shift) * 2 ^ (shift - 16) + rttSize shift * 2 ^ 41 + asid * 2 ^ 43)

/-- The RTT entry of an address at one page size, where the RTT holds one. -/
def rttFind (s : State) (va shift asid : Nat) : Option LeafAt :=
  let base := rttAddr s + 64 * rttSet (rttVpn va shift) asid
  ((List.range 4).find? fun k =>
      entryV (l2Read64 s (base + 16 * k)) && l2Read64 s (base + 16 * k + 8) == rttTag va shift asid).map
    fun k => ⟨base + 16 * k, shift, l2Read64 s (base + 16 * k)⟩

/-- The RTT probed for 64 KiB, then 2 MiB, then 1 GiB (R85). -/
def rttProbe (s : State) (va asid : Nat) : Option LeafAt :=
  if s.lath.rttEn then
    match rttFind s va 16 asid with
    | some l => some l
    | none => match rttFind s va 21 asid with
      | some l => some l
      | none => rttFind s va 30 asid
  else none

/-- A leaf inserted into the RTT (R86). -/
def rttInsert (s : State) (va asid : Nat) (l : LeafAt) : State :=
  if s.lath.rttEn then
    let vpn := rttVpn va l.shift
    let base := rttAddr s + 64 * rttSet vpn asid
    let way := ((List.range 4).find? fun k => !entryV (l2Read64 s (base + 16 * k))).getD (vpn % 4)
    l2Write64 (l2Write64 s (base + 16 * way) l.word) (base + 16 * way + 8) (rttTag va l.shift asid)
  else s

/-- Whether a TLB entry maps an address of an address space. -/
def TlbEntry.hits (e : TlbEntry) (asid : BitVec 12) (va : Nat) : Bool :=
  decide (e.asid = asid) && decide (e.vpn = va / 2 ^ e.shift)

/-- The TLB entry made from a leaf. -/
def tlbOf (asid : BitVec 12) (va : Nat) (l : LeafAt) : TlbEntry :=
  { asid := asid, shift := l.shift, vpn := va / 2 ^ l.shift, frame := entryPa l.word, r := l.word.getLsbD 2,
    w := l.word.getLsbD 3, x := l.word.getLsbD 4, d := l.word.getLsbD 6, leaf := l.entry }

/-- A TLB with one more entry of its 512; the replaced one is not architected (R85). -/
def tlbInsert (s : State) (c : Nat) (e : TlbEntry) : State :=
  s.updCore c fun k =>
    let keep := if k.tlb.length < 512 then k.tlb else k.tlb.eraseIdx (Config.tlbVictim s.tick % 512)
    { k with tlb := keep ++ [e] }

/-- The walker's fill of a TLB from a leaf: A is set, and D for a write, as one compare-and-swap of the
leaf's word 0; after an RTT miss the leaf goes into the RTT (R85 to R87). -/
def walkFill (s : State) (c : Nat) (asid : BitVec 12) (va : Nat) (write miss : Bool) (l : LeafAt) : State × TlbEntry :=
  let w := l.word ||| 0x20 ||| (if write then 0x40 else 0)
  let l' := { l with word := w }
  let s1 := if w = l.word then s else l2Write64 s l.entry w
  let e := tlbOf asid va l'
  (tlbInsert (if miss then rttInsert s1 va asid.toNat l' else s1) c e, e)

/-- The physical address that a TLB entry gives. -/
def TlbEntry.pa (e : TlbEntry) (va : Nat) : Nat := e.frame + va % 2 ^ e.shift

/-- The walk of a miss, or of a write to a clean page: fill and answer, wait on LOCK (R92), or no translation (R89). -/
def walkXlat (s : State) (c : Nat) (asid : BitVec 12) (root va : Nat) (write miss : Bool) : Xlat :=
  match walk s root va with
  | .leaf l =>
    if entryLock l.word then .locked
    else
      let (s1, e) := walkFill s c asid va write miss l
      .ok (e.pa va) s1
  | _ => .lost

/-- Translation of one access on a core (R85, R87): the TLB, then the RTT, then the walk. A write that hits
an entry without D waits for the walker to set D in the leaf. -/
def translate (s : State) (c : Nat) (asid : BitVec 12) (root va : Nat) (write : Bool) : Xlat :=
  match (s.core c).tlb.find? fun e => e.hits asid va with
  | some e =>
    if write ∧ !e.d then
      walkXlat (s.updCore c fun k => { k with tlb := k.tlb.filter fun x => !(x.hits asid va) }) c asid root va true false
    else .ok (e.pa va) s
  | none =>
    match rttProbe s va asid.toNat with
    | some l =>
      if entryLock l.word then .locked
      else if write ∧ !l.word.getLsbD 6 then walkXlat s c asid root va true false
      else
        let e := tlbOf asid va l
        .ok (e.pa va) (tlbInsert s c e)
    | none => walkXlat s c asid root va write true

/-! ## Leases and member segments -/

/-- The permissions an access needs (R235). -/
inductive Perm where
  | r
  | w
  | rw
  | x
  deriving DecidableEq, Repr

/-- Whether a lease carries a permission. -/
def Lease.grants (l : Lease) (p : Perm) : Bool :=
  match p with
  | .r => l.r
  | .w => l.w
  | .rw => l.r && l.w
  | .x => l.x

/-- Whether a byte lies in a lease with the permission (R68). -/
def leaseCovers (ls : List Lease) (p : Perm) (va : Nat) : Bool :=
  ls.any fun l => l.grants p && decide (l.base ≤ va) && decide (va < l.base + l.len)

/-- The address a member context's access is made at (R69). -/
def mapAlias (segs : List Seg) (member va : Nat) : Nat :=
  match segs with
  | [] => va
  | g :: rest => if g.alias_ ≤ va ∧ va < g.alias_ + g.len then g.backing + member * g.len + (va - g.alias_) else mapAlias rest member va

/-- The bytes of an access of `w` bytes at a 64-bit address, each mapped on its own (R69). -/
def accessBytes (g : Grid) (member : Option Nat) (va w : Nat) : List Nat :=
  (List.range w).map fun j => match member with
    | some m => mapAlias g.segs m (va + j)
    | none => va + j

/-- The lease check of an access (R235, step 5): canonical, and every byte in a lease with the permission. -/
def leaseOk (g : Grid) (member : Option Nat) (p : Perm) (va w : Nat) : Bool :=
  decide (va < 2 ^ 57) && (accessBytes g member va w).all fun b => leaseCovers g.leases p b && decide (b < 2 ^ 57)

/-- The outcome of translating a list of virtual bytes. -/
inductive XlatList where
  | ok (pas : List Nat) (s : State)
  | locked
  | lost

/-- The bytes of an access translated one after another. -/
def translateAll (s : State) (c : Nat) (asid : BitVec 12) (root : Nat) (write : Bool) : List Nat → XlatList
  | [] => .ok [] s
  | va :: rest =>
    match translate s c asid root va write with
    | .locked => .locked
    | .lost => .lost
    | .ok pa s1 =>
      match translateAll s1 c asid root write rest with
      | .ok pas s2 => .ok (pa :: pas) s2
      | .locked => .locked
      | .lost => .lost

/-! ## Accesses -/

/-- A core's loads of a list of physical bytes on path V: the lines are brought first, so that the bytes of one line are read
from one fill (R328). -/
def coreLoads (s : State) (c : Nat) (pas : List Nat) : List Byte × State :=
  let s' := pas.foldl (fun s pa => coreTouch s c pa) s
  (pas.map (coreView s' c), s')

/-- A core's stores of bytes at physical addresses on path V. -/
def coreStores (s : State) (c : Nat) : List Nat → List Byte → State
  | pa :: pas, b :: bs => coreStores (coreStore s c pa b) c pas bs
  | _, _ => s

/-- The lines of a list of physical bytes that a core's L1 may hold. -/
def ownLines (c : Nat) (pas : List Nat) : List Nat :=
  pas.foldl (fun l pa => if homeTower pa = coreTower c then natInsert l (pa / 64) else l) []

/-- The bytes of a block made one unit in a core's L1 before it is read (R37): unless one step filled all its lines, they
are written back and fetched again. -/
def blockSync (s : State) (c : Nat) (pas : List Nat) : State :=
  let owned := ownLines c pas
  let stamps := owned.map fun ln => ((s.core c).line? ln).map fun e => e.stamp
  let held := pas.all fun pa => decide (homeTower pa ≠ coreTower c) ||
    ((((s.core c).line? (pa / 64)).bind fun e => e.byte? (pa % 64)).isSome)
  if held ∧ stamps.all (fun x => x == stamps.headD none) then s
  else pas.foldl (fun s pa => coreFill s c pa) (owned.foldl (fun s ln => dropLine s c ln) s)

/-- The bytes of a block that a core has stored kept one unit (R37): its lines leave the L1 together; where one is not in this
L1, the others are written back at once. -/
def blockBond (s : State) (c : Nat) (pas : List Nat) : State :=
  let owned := ownLines c pas
  if (pas.all fun pa => decide (homeTower pa = coreTower c)) ∧ (owned.all fun ln => ((s.core c).line? ln).isSome) then
    s.updCore c fun k => { k with l1 := k.l1.map fun e =>
      (if e.line ∈ owned then { e with bond := owned.foldl natInsert e.bond } else e) }
  else owned.foldl (fun s ln => writeBackLine s c ln) s

/-- Reads of physical bytes at the home L2, as atomics and engines make them. -/
def l2Reads (s : State) (pas : List Nat) : List Byte := pas.map fun pa => l2Read s pa
/-- Writes of bytes at physical addresses at the home L2. -/
def l2Writes (s : State) : List Nat → List Byte → State
  | pa :: pas, b :: bs => l2Writes (l2Write s pa b) pas bs
  | _, _ => s

/-- The issuing core's L1 copies of the lines of an access written back and dropped (R242, R244). -/
def dropLines (s : State) (c : Nat) (pas : List Nat) : State := pas.foldl (fun s pa => dropLine s c (pa / 64)) s

/-- Whether a physical range touches a page that an exchange has locked (R92). -/
def rangeLocked (s : State) (pa n : Nat) : Bool :=
  match s.lath.swap with
  | none => false
  | some x => [x.ea, x.eb].any fun e =>
      let base := entryPa (l2Read64 s e)
      decide (pa < base + 2 ^ x.shift) && decide (base < pa + n)

/-! ## Hawk and column -/

/-- The first local offset of the column (R207). -/
def columnBase : Nat := 0x400000

/-- Whether `n` bytes at a local offset lie in a team's allocation (R207). -/
def localOk (g : Grid) (o n : Nat) : Bool :=
  (decide (columnBase ≤ o) || decide (min (o + n) columnBase ≤ g.field 0x28 4)) &&
    (decide (o + n ≤ columnBase) || decide (o + n ≤ columnBase + g.field 0x2C 4))

/-- A byte of a team's allocation by local offset. -/
def Team.localByte (t : Team) (o : Nat) : Byte :=
  if o < columnBase then byteAt t.hawk o else byteAt t.column (o - columnBase)
/-- A byte of a team's allocation written. -/
def Team.setLocal (t : Team) (o : Nat) (v : Byte) : Team :=
  if o < columnBase then { t with hawk := byteSet t.hawk o v } else { t with column := byteSet t.column (o - columnBase) v }
/-- Consecutive bytes of an allocation written. -/
def Team.setLocals (t : Team) (o : Nat) (bs : List Byte) : Team :=
  match bs with
  | [] => t
  | b :: rest => (t.setLocal o b).setLocals (o + 1) rest
/-- `n` bytes of an allocation. -/
def Team.locals (t : Team) (o n : Nat) : List Byte := (List.range n).map fun j => t.localByte (o + j)

/-- Whether the granule of a local offset is full (R211). -/
def Team.full (t : Team) (o : Nat) : Bool :=
  if o < columnBase then t.hawkFull.contains (o / 16) else t.colFull.contains ((o - columnBase) / 16)
/-- The granule of a local offset set full or empty. -/
def Team.setFull (t : Team) (o : Nat) (b : Bool) : Team :=
  let upd (l : List Nat) (k : Nat) := if b then natInsert l k else natErase l k
  if o < columnBase then { t with hawkFull := upd t.hawkFull (o / 16) }
  else { t with colFull := upd t.colFull ((o - columnBase) / 16) }
/-- The granules touched by `n` bytes at a local offset, as offsets of their first bytes. -/
def granules (o n : Nat) : List Nat := (List.range ((o + n - 1) / 16 + 1 - o / 16)).map fun j => 16 * (o / 16 + j)
/-- Every granule of a list of offsets set full or empty. -/
def Team.setFulls (t : Team) (l : List Nat) (b : Bool) : Team := l.foldl (fun t o => t.setFull o b) t

end Sys2Proof.Machine
end

