-- ==== Sys2Proof/Machine/Operands.lean ====
section
/-! DEFINITION. Operands: register cells with the visibility of R115, operand codes (Table 5.2), literals
(R109), third sources (R110), predicates (R104), the values of one group or member (R152), and the writes
of destinations (R140, R152). -/

namespace Sys2Proof.Machine

/-- An instruction as it issues: the team, group and gang, the grid, team and group as they stand, the
issuing slices, the address of the word, the issue step, and the live pairs (slot, lane) in ascending slot
and lane, those a GUARD window turns off left out (R111, R129). -/
structure Issue where
  uid : Nat
  gid : Nat
  gang : Nat
  grid : Grid
  team : Team
  group : Group
  slices : List Nat
  pc : VAddr
  step : Nat
  live : List (Nat × Nat)
  deriving DecidableEq, Repr

/-! ## Register cells -/

/-- The value a register cell holds where nothing is recorded: FPM's reset value, else 0 (R67, Table 2.4). -/
def Loc.initial (r : Loc) : Word :=
  match r with
  | .fpm _ => 0x20
  | _ => 0

/-- The value of a cell in a register table. -/
def regGet (m : List (Loc × Word)) (r : Loc) : Word :=
  match m with
  | [] => r.initial
  | (q, v) :: rest => if q = r then v else regGet rest r

/-- A register table with one cell set. -/
def regSet (m : List (Loc × Word)) (r : Loc) (v : Word) : List (Loc × Word) :=
  match m with
  | [] => [(r, v)]
  | (q, x) :: rest => if q = r then (r, v) :: rest else (q, x) :: regSet rest r v

/-- Whether a write is visible to an instruction that slice `sl` issues at step `st` (R115): a drain
boundary has passed, another gang wrote it, or its latency has passed. -/
def PendWrite.visible (w : PendWrite) (sl st : Nat) : Bool :=
  w.done.getLsbD sl || !w.slices.getLsbD sl || decide (w.ready ≤ st)

/-- The effect of a write on a value: replaced, or ORed for flags (R115). -/
def PendWrite.apply (w : PendWrite) (v : Word) : Word := if w.orIn then v ||| w.val else w.val

/-- `value_seen` of R115: the earlier writes that are visible, applied in program order. -/
def seenFrom (ws : List PendWrite) (sl st : Nat) (r : Loc) (v : Word) : Word :=
  match ws with
  | [] => v
  | w :: rest => seenFrom rest sl st r (if w.loc = r ∧ w.visible sl st then w.apply v else v)

/-- The value of a cell with every earlier write complete. -/
def fullFrom (ws : List PendWrite) (r : Loc) (v : Word) : Word :=
  match ws with
  | [] => v
  | w :: rest => fullFrom rest r (if w.loc = r then w.apply v else v)

/-- What slice `sl` sees in a cell at step `st`. -/
def Group.seen (g : Group) (sl st : Nat) (r : Loc) : Word := seenFrom g.pend sl st r (regGet g.regs r)
/-- What a cell holds with every write complete. -/
def Group.full (g : Group) (r : Loc) : Word := fullFrom g.pend r (regGet g.regs r)

/-- A slice by number. -/
def Group.slice (g : Group) (sl : Nat) : Slice := nth g.slices sl {}
/-- Whether a slice has finished (R133). -/
def Slice.finished (s : Slice) : Bool := s.wait == .finished

/-- Whether a write is complete for every slice that made it; a finished slice counts (R115). -/
def Group.complete (g : Group) (w : PendWrite) : Bool :=
  (List.range 8).all fun sl =>
    !w.slices.getLsbD sl || w.done.getLsbD sl || (g.slice sl).finished || decide (w.ready ≤ (g.slice sl).step)

/-- The writes that are complete, and that no earlier incomplete write of the cell stands before, moved
into the register table. -/
def commitFrom (g : Group) (ws kept : List PendWrite) (regs : List (Loc × Word)) : List PendWrite × List (Loc × Word) :=
  match ws with
  | [] => (kept.reverse, regs)
  | w :: rest =>
    if g.complete w && !kept.any (fun k => decide (k.loc = w.loc)) then
      commitFrom g rest kept (regSet regs w.loc (w.apply (regGet regs w.loc)))
    else commitFrom g rest (w :: kept) regs

/-- A group with its completed writes in the register table; no value that any reader sees changes. -/
def Group.commit (g : Group) : Group :=
  let (p, r) := commitFrom g g.pend [] g.regs
  { g with pend := p, regs := r }

/-- A drain boundary of some slices: every earlier write of theirs is complete for them (R115). -/
def Group.drain (g : Group) (sls : BitVec 8) : Group :=
  Group.commit { g with pend := g.pend.map fun w => { w with done := w.done ||| (w.slices &&& sls) } }

/-! ## Operand codes -/

/-- The cell of register `j` of an operand code for a pair; `none` for zero and the literal (Table 5.2). -/
def cellOf (code : BitVec 7) (j e l : Nat) : Option Loc :=
  let n := code.toNat
  if n < 0x60 then some (.v (n + j) e l)
  else if n < 0x70 then some (.k (n - 0x60 + j) l)
  else if n < 0x78 then some (.s (n - 0x70 + j) e)
  else if n < 0x7E then some (.q (n - 0x78 + j))
  else none

/-- The literal of one or two IMM payloads (R109). -/
def literalOf (imm : List (BitVec 22)) : BitVec 64 :=
  match imm with
  | [p] => p.signExtend 64
  | p :: q :: _ => (p ++ q : BitVec 44).signExtend 64
  | [] => 0

/-- The MACRO that a slice of a group is running, if any. -/
def Group.inMacro (g : Group) (sl : Nat) : Option MacroRun := g.mac.find? fun m => m.slices.getLsbD sl

/-- The pending IMM payloads an instruction of a slice takes. -/
def Group.immOf (g : Group) (sl : Nat) : List (BitVec 22) :=
  match g.inMacro sl with
  | some m => m.imm
  | none => (g.slice sl).imm
/-- The pending SRC3 code. -/
def Group.src3Of (g : Group) (sl : Nat) : Option (BitVec 7) :=
  match g.inMacro sl with
  | some m => m.src3
  | none => (g.slice sl).src3
/-- The pending RND mode. -/
def Group.rndOf (g : Group) (sl : Nat) : Option (BitVec 3) :=
  match g.inMacro sl with
  | some m => m.rnd
  | none => (g.slice sl).rnd

/-- Whether a second SRC3 or RND word stands in the prefix (R108). -/
def Group.dupOf (g : Group) (sl : Nat) : Bool :=
  match g.inMacro sl with
  | some m => m.dup
  | none => (g.slice sl).dup

/-- Whether a code is a parameter mark of a microprogram: one that is left stands for a literal (R119). -/
def isMark (code : BitVec 7) : Bool := code == 0x5D || code == 0x5E || code == 0x5F

/-- The literal a code supplies to an instruction of a slice: the MACRO's own for a parameter mark, the
pending one for 0x7F (R109, R119, R120); `none` for a register or zero. -/
def Group.literal? (g : Group) (sl : Nat) (code : BitVec 7) : Option (BitVec 64) :=
  if code = 0x7F then some (literalOf (g.immOf sl))
  else match g.inMacro sl with
    | some m => if isMark code then some (literalOf m.lit) else none
    | none => none

/-- Register `j` of an operand of a pair (Table 5.2, R102, R109). -/
def Issue.reg (c : Issue) (code : BitVec 7) (j : Nat) (p : Nat × Nat) : Word :=
  match c.group.literal? (p.2 / 4) code with
  | some v => v.extractLsb' (32 * j) 32
  | none => match cellOf code j p.1 p.2 with
    | some r => c.group.seen (p.2 / 4) c.step r
    | none => 0

/-- A 32-bit operand of a pair. -/
def Issue.src (c : Issue) (code : BitVec 7) (p : Nat × Nat) : Word := c.reg code 0 p
/-- A 64-bit operand of a pair: the odd register holds bits [63:32] (R102). -/
def Issue.src64 (c : Issue) (code : BitVec 7) (p : Nat × Nat) : DWord := c.reg code 1 p ++ c.reg code 0 p
/-- An operand of one or two registers as a natural. -/
def Issue.srcNat (c : Issue) (code : BitVec 7) (n : Nat) (p : Nat × Nat) : Nat :=
  if n = 2 then (c.src64 code p).toNat else (c.src code p).toNat

/-- The SRC3 code bound to an instruction in a pair's slice (R110). -/
def Issue.third (c : Issue) (p : Nat × Nat) : Option (BitVec 7) := c.group.src3Of (p.2 / 4)
/-- The third source: SRC3 where it is bound, else the operand `dflt` (R169, R170, R187). -/
def Issue.thirdOr (c : Issue) (dflt : BitVec 7) (p : Nat × Nat) : BitVec 7 := (c.third p).getD dflt

/-- A predicate of a pair as slice and step see it; p0 reads true (R104). -/
def Group.predAt (g : Group) (st n : Nat) (p : Nat × Nat) : Bool :=
  n == 0 || g.seen (p.2 / 4) st (.p n p.1 p.2) == 1
/-- A source predicate field with its NEG bit (R104). -/
def Issue.pred (c : Issue) (neg : BitVec 1) (n : BitVec 3) (p : Nat × Nat) : Bool :=
  (c.group.predAt c.step n.toNat p) != (neg == 1)

/-- The lowest live pair: lowest slot, and within it lowest lane (R152). -/
def Issue.lead (c : Issue) : Option (Nat × Nat) := c.live.head?
/-- `group_value` of a 32-bit operand (R152); 0 where no pair is live, and then nothing acts (R153). -/
def Issue.groupValue (c : Issue) (code : BitVec 7) : Word := ((c.lead).map fun p => c.src code p).getD 0
/-- `group_value` of a pair operand. -/
def Issue.groupValue64 (c : Issue) (code : BitVec 7) : DWord := ((c.lead).map fun p => c.src64 code p).getD 0
/-- The member slots with a live pair, ascending. -/
def Issue.slots (c : Issue) : List Nat := (List.range c.group.e).filter fun e => c.live.any fun p => decide (p.1 = e)
/-- The live lanes of a member slot, ascending. -/
def Issue.lanes (c : Issue) (e : Nat) : List Nat := (c.live.filter fun p => decide (p.1 = e)).map fun p => p.2
/-- The pair that `member_value` reads: the lowest live lane of a slot (R152). -/
def Issue.memberPair (c : Issue) (e : Nat) : Nat × Nat := (e, (c.lanes e).headD 0)
/-- `member_value` of a 32-bit operand (R152). -/
def Issue.memberValue (c : Issue) (code : BitVec 7) (e : Nat) : Word := c.src code (c.memberPair e)
/-- `member_value` of a pair operand. -/
def Issue.memberValue64 (c : Issue) (code : BitVec 7) (e : Nat) : DWord := c.src64 code (c.memberPair e)
/-- MEMBERID of a slot (R67). -/
def Group.memberId (g : Group) (e : Nat) : Nat := (mapGet g.members e).getD 0

/-! ## Destinations -/

/-- The writes of a list with only the first for each cell: a shared register takes the value of the lowest
live slot, and within it of the lowest live lane (R140, R152). -/
def keepFirst (ws : List (Loc × Word)) (seen : List Loc) : List (Loc × Word) :=
  match ws with
  | [] => []
  | w :: rest => if seen.contains w.1 then keepFirst rest seen else w :: keepFirst rest (w.1 :: seen)

/-- The writes of a destination of `n` registers, register `j` of pair `p` taking `f p j`. -/
def destWrites (live : List (Nat × Nat)) (code : BitVec 7) (n : Nat) (f : Nat × Nat → Nat → Word) : List (Loc × Word) :=
  let all := live.flatMap fun p => (List.range n).filterMap fun j => (cellOf code j p.1 p.2).map fun r => (r, f p j)
  if code.toNat < 0x60 then all else keepFirst all []

/-- The writes of a destination predicate; a write to p0 is discarded (R104). -/
def predWrites (live : List (Nat × Nat)) (d : BitVec 3) (f : Nat × Nat → Bool) : List (Loc × Word) :=
  if d = 0 then [] else live.map fun p => (.p d.toNat p.1 p.2, if f p then 1 else 0)

/-- The MACRO whose operation words the issuing slices run, if any. -/
def Issue.mac (c : Issue) : Option MacroRun := c.group.inMacro (c.slices.headD 8)

/-- The step at which the writes of an instruction complete: its architectural latency after it issues; an
interlocked result, and every step of a MACRO, is seen at once (R115, R121). -/
def Issue.readyStep (c : Issue) (lat : Option Nat) : Nat :=
  if c.mac.isSome then c.step else c.step + lat.getD 0

/-- A group with writes of an instruction entered in program order (R115). -/
def Issue.enter (c : Issue) (lat : Option Nat) (orIn : Bool) (ws : List (Loc × Word)) (g : Group) : Group :=
  { g with pend := g.pend ++ ws.map fun w =>
      { loc := w.1, val := w.2, orIn := orIn, ready := c.readyStep lat, slices := maskOf 8 c.slices, done := 0 } }

/-- The writes of an instruction entered in its group. -/
def Issue.write (c : Issue) (lat : Option Nat) (ws : List (Loc × Word)) (s : State) : State :=
  s.updGroup c.uid c.gid (c.enter lat false ws)

/-- Register `j` of a 64-bit value. -/
def half (v : DWord) (j : Nat) : Word := v.extractLsb' (32 * j) 32

/-- A 32-bit result written to a destination of every live pair. -/
def Issue.put (c : Issue) (lat : Option Nat) (d : BitVec 7) (f : Nat × Nat → Word) (s : State) : State :=
  c.write lat (destWrites c.live d 1 fun p _ => f p) s
/-- A 64-bit result written to a destination pair. -/
def Issue.put64 (c : Issue) (lat : Option Nat) (d : BitVec 7) (f : Nat × Nat → DWord) (s : State) : State :=
  c.write lat (destWrites c.live d 2 fun p j => half (f p) j) s
/-- A result of `n` = 1 or 2 registers. -/
def Issue.putN (c : Issue) (lat : Option Nat) (d : BitVec 7) (n : Nat) (f : Nat × Nat → Nat) (s : State) : State :=
  c.write lat (destWrites c.live d n fun p j => BitVec.ofNat 32 (f p / 2 ^ (32 * j))) s
/-- A predicate result. -/
def Issue.putPred (c : Issue) (lat : Option Nat) (d : BitVec 3) (f : Nat × Nat → Bool) (s : State) : State :=
  c.write lat (predWrites c.live d f) s

end Sys2Proof.Machine
end

