-- ==== Sys2Proof/Machine/Flags.lean ====
section
/-! DEFINITION. FPM (Table 2.4): its fields, the flags instructions raise (R42), and the rounding mode of
an instruction in a member context (R186). -/

namespace Sys2Proof.Machine

/-- RM of an FPM value. -/
def fpmRm (v : Word) : BitVec 3 := v.extractLsb' 5 3
/-- SATN of an FPM value. -/
def fpmSatn (v : Word) : Bool := v.getLsbD 8
/-- SEEDIX of an FPM value. -/
def fpmSeedix (v : Word) : Nat := (v.extractLsb' 24 8).toNat
/-- FPM as it reads: its reserved bits are 0 (R10). -/
def fpmStored (v : Word) : Word := v &&& 0xFF0001FF
/-- Whether a value may be written to FPM (R42). -/
def fpmStorable (v : Word) : Bool := !(fpmRm v == 0 || fpmRm v == 7)

/-- FPM of a pair's member context, as an instruction sees it. -/
def Issue.fpm (c : Issue) (p : Nat × Nat) : Word := c.group.seen (p.2 / 4) c.step (.fpm p.1)

/-- The flags each member context receives: those of its live lanes, ORed (R42). -/
def flagWrites (live : List (Nat × Nat)) (slots : List Nat) (f : Nat × Nat → FFlags) : List (Loc × Word) :=
  slots.filterMap fun e =>
    let fl := live.foldl (fun acc p => if p.1 = e then acc ||| f p else acc) 0
    if fl = 0 then none else some (.fpm e, fl.setWidth 32)

/-- Flags raised by an instruction, ORed into FPM when the instruction completes (R42, R115). -/
def Issue.raise (c : Issue) (lat : Option Nat) (f : Nat × Nat → FFlags) (s : State) : State :=
  s.updGroup c.uid c.gid (c.enter lat true (flagWrites c.live c.slots f))

/-- The rounding mode of an instruction for a pair (R186). -/
def Issue.mode (c : Issue) (rm3 : BitVec 3) (srAllowed : Bool) (p : Nat × Nat) : RMode :=
  roundMode rm3 (c.group.rndOf (p.2 / 4)) (fpmRm (c.fpm p)) srAllowed

end Sys2Proof.Machine
end

