-- ==== Sys2Proof/Machine/Ops.lean ====
section
/-! DEFINITION. The issue of one instruction by a gang (R107 to R117, R129, R153), the checks before it has
any effect, taking a cause (R363 to R370) and returning from one (R368), the reconvergence stack (R131 to
R134), gathering (R137), waits, and the wrapper every meaning of a group instruction goes through. -/

namespace Sys2Proof.Machine

/-! ## Codes (Table 23.1) -/

/-- The numeric code of a cause (Table 23.1). -/
abbrev Code := BitVec 16
/-- ILLEGAL_INSTR. -/
def cIllegal : Code := 0x0101
/-- PRIV_INSTR. -/
def cPriv : Code := 0x0102
/-- REG_BUDGET. -/
def cRegBudget : Code := 0x0103
/-- STALL_SHORT. -/
def cStallShort : Code := 0x0104
/-- MACRO_UNDEF. -/
def cMacroUndef : Code := 0x0105
/-- MACRO_IMAGE. -/
def cMacroImage : Code := 0x0106
/-- BAD_TARGET. -/
def cBadTarget : Code := 0x0107
/-- RSTACK_FAULT. -/
def cRstackFault : Code := 0x0108
/-- RSTACK_OVF. -/
def cRstackOvf : Code := 0x0109
/-- GANG_UNREACHABLE. -/
def cGangUnreachable : Code := 0x010A
/-- BAR_UNREACHABLE. -/
def cBarUnreachable : Code := 0x010B
/-- REGROUP_MISMATCH. -/
def cRegroupMismatch : Code := 0x010C
/-- ROLE_FAULT. -/
def cRoleFault : Code := 0x010D
/-- REGS_TIMEOUT. -/
def cRegsTimeout : Code := 0x010E
/-- SPAWN_STALL. -/
def cSpawnStall : Code := 0x010F
/-- SOFT_TRAP. -/
def cSoftTrap : Code := 0x0110
/-- BREAKPOINT. -/
def cBreakpoint : Code := 0x0111
/-- MISALIGNED. -/
def cMisaligned : Code := 0x0112
/-- LOCAL_RANGE. -/
def cLocalRange : Code := 0x0113
/-- FE_TIMEOUT. -/
def cFeTimeout : Code := 0x0114
/-- LAC_BIND. -/
def cLacBind : Code := 0x0115
/-- WINDOW_FAULT. -/
def cWindowFault : Code := 0x0116
/-- HOD_BUSY. -/
def cHodBusy : Code := 0x0117
/-- BEAD_BUSY. -/
def cBeadBusy : Code := 0x0118
/-- VFIFO_GATED. -/
def cVfifoGated : Code := 0x0119
/-- BAR_RANGE. -/
def cBarRange : Code := 0x011A
/-- BAR_COUNT. -/
def cBarCount : Code := 0x011B
/-- SYNC_MASK. -/
def cSyncMask : Code := 0x011C
/-- HOD_FAULT. -/
def cHodFault : Code := 0x0201
/-- REMOTE_ABSENT. -/
def cRemoteAbsent : Code := 0x0202
/-- BEAD_FAULT. -/
def cBeadFault : Code := 0x0203
/-- TROWEL_FAULT. -/
def cTrowelFault : Code := 0x0204
/-- TAPE_FULL. -/
def cTapeFull : Code := 0x0205
/-- TAPE_CORRUPT. -/
def cTapeCorrupt : Code := 0x0206
/-- LEASE_VIOLATION. -/
def cLeaseViolation : Code := 0x0301
/-- XLAT_LOST. -/
def cXlatLost : Code := 0x0302
/-- UNIT_FENCED. -/
def cUnitFenced : Code := 0x0303
/-- LASTING_FAULT. -/
def cLastingFault : Code := 0x0304
/-- TEAM_ABORTED. -/
def cTeamAborted : Code := 0x0305
/-- IMAGE_CORRUPT. -/
def cImageCorrupt : Code := 0x0306
/-- RESTORE_CAP. -/
def cRestoreCap : Code := 0x0307
/-- LREC_INVALID. -/
def cLrecInvalid : Code := 0x0401
/-- LEASE_FAULT. -/
def cLeaseFault : Code := 0x0402
/-- GRAPH_FAULT. -/
def cGraphFault : Code := 0x0403
/-- GRAPH_LIMIT. -/
def cGraphLimit : Code := 0x0404
/-- COLL_MISMATCH. -/
def cCollMismatch : Code := 0x0501
/-- COLL_OVERFLOW. -/
def cCollOverflow : Code := 0x0502
/-- COLL_TIMEOUT. -/
def cCollTimeout : Code := 0x0503

/-- A precise cause an instruction meets: its code, INFO, the first failing pair (R235) and the address
that failed (Table 15.2). -/
structure Trap where
  code : Code
  info : BitVec 32 := 0
  pair : Option (Nat × Nat) := none
  faddr : BitVec 64 := 0
  deriving DecidableEq, Repr

/-- What an instruction does: its effect with the program counters to be advanced; the same at a drain
boundary; its effect with every slice already placed; a precise cause; a team-ending cause; a wait that
has not issued, with its progress; or nothing now, to be tried again. -/
inductive Res where
  | ok (s : State)
  | drained (s : State)
  | placed (s : State)
  | trap (t : Trap)
  | endTeam (c : Code)
  | hold (progress : Nat) (s : State)
  | again

/-! ## Slices and pairs -/

/-- The bit of a pair (slot e, lane l) in its slice's masks: 4e + l mod 4 (R129). -/
def pairBit (p : Nat × Nat) : Nat := 4 * p.1 + p.2 % 4

/-- The pairs of E slots whose bit is set in the mask `f` gives for their slice, in ascending slot and lane. -/
def pairsWhere (e : Nat) (sls : List Nat) (f : Nat → BitVec 64) : List (Nat × Nat) :=
  (List.range e).flatMap fun k => (List.range 32).filterMap fun l =>
    if sls.contains (l / 4) ∧ (f (l / 4)).getLsbD (pairBit (k, l)) then some (k, l) else none

/-- The mask of every pair with slot below E (R129). -/
def allPairs (e : Nat) : BitVec 64 := BitVec.ofNat 64 (2 ^ (4 * e) - 1)

/-- The slices of a gang that can issue: not finished and not parked, at a barrier or at REGANG. -/
def Group.gangSlices (g : Group) (gang : Nat) : List Nat :=
  (List.range 8).filter fun sl =>
    let x := g.slice sl
    decide (x.gang = gang) && decide (sl < g.slices.length) &&
      (match x.wait with
       | .ready | .blocked _ _ _ => true
       | _ => false)

/-- Whether the pair is live under its slice's GUARD window, or under the window of the MACRO it runs
(R111). -/
def Group.guardOn (g : Group) (st : Nat) (p : Nat × Nat) : Bool :=
  let win := match g.inMacro (p.2 / 4) with
    | some m => m.guardWin
    | none => (g.slice (p.2 / 4)).guardWin
  match win with
  | none => true
  | some w => (g.predAt st w.pred.toNat p) != w.neg

/-- The issue step of a slice's next word that is not a hint word: after its STALL count (R112, R115). -/
def Slice.issueStep (x : Slice) : Nat := x.step + (x.stall.headD 0).toNat

/-- The pairs an instruction of some slices acts on: the active pairs a GUARD window leaves on, or in a
MACRO those that were live when it issued (R121). -/
def Group.livePairs (g : Group) (sls : List Nat) (st : Nat) : List (Nat × Nat) :=
  let base := match g.inMacro (sls.headD 8) with
    | some m => m.live
    | none => pairsWhere g.e sls fun sl => (g.slice sl).active
  base.filter fun p => g.guardOn st p

/-- The issue of some slices of a group at their common program counter. -/
def mkIssue (t : Team) (gr : Grid) (g : Group) (gang : Nat) (sls : List Nat) (hint : Bool) : Issue :=
  let x := g.slice (sls.headD 0)
  let st := match g.inMacro (sls.headD 8) with
    | some m => m.issueStep
    | none => if hint then x.step else x.issueStep
  { uid := t.uid, gid := g.gid, gang := gang, grid := gr, team := t, group := g, slices := sls, pc := x.pc,
    step := st, live := g.livePairs sls st }

/-- The issue of an instruction by a gang of the state; `none` when there is no such gang. -/
def issueOf (s : State) (uid gid gang : Nat) (hint : Bool) : Option Issue :=
  match s.team? uid with
  | none => none
  | some t => match s.grid? t.grid with
    | none => none
    | some gr => match t.group? gid with
      | none => none
      | some g =>
        match g.gangSlices gang with
        | [] => none
        | sls => some (mkIssue t gr g gang sls hint)

/-! ## Changing slices -/

/-- A slice of a group changed. -/
def Group.updSlice (g : Group) (sl : Nat) (f : Slice → Slice) : Group :=
  { g with slices := g.slices.mapIdx fun k x => if k = sl then f x else x }
/-- Some slices of a group changed. -/
def Group.updSlices (g : Group) (sls : List Nat) (f : Slice → Slice) : Group :=
  { g with slices := g.slices.mapIdx fun k x => if sls.contains k then f x else x }
/-- The issuing slices changed. -/
def Issue.slicesDo (c : Issue) (f : Slice → Slice) (s : State) : State :=
  s.updGroup c.uid c.gid fun g => g.updSlices c.slices f

/-- A slice without the hints that bind to an instruction. -/
def Slice.unbind (x : Slice) : Slice := { x with imm := [], src3 := none, rnd := none, dup := false, pfx := none }
/-- An open GUARD window after one more word (R111). -/
def guardNext (w : Option GuardWin) : Option GuardWin :=
  match w with
  | some g => if g.left ≤ 1 then none else some { g with left := g.left - 1 }
  | none => none
/-- A slice after a word that is not a hint word: the next word, one STALL count and one place of the GUARD
window used, and the step after the issue step. -/
def Slice.advance (st : Nat) (x : Slice) : Slice :=
  { x.unbind with
      pc := x.pc + 4, step := st + 1, stall := x.stall.tail, guardWin := guardNext x.guardWin, progress := 0, redo := none,
      wait := .ready }
/-- A slice after a hint word of its prefix: the step advances by 1, and the run of hint words that binds
begins here unless it has begun (R108, R114). -/
def Slice.advanceHint (binds : Bool) (x : Slice) : Slice :=
  { x with pc := x.pc + 4, step := x.step + 1,
           pfx := if binds then some (x.pfx.getD x.pc) else x.pfx }
/-- A slice with unused STALL counts and an open GUARD window cleared (R112). -/
def Slice.clearWindows (x : Slice) : Slice := { x with stall := [], guardWin := none }
/-- A slice that a control transfer has sent to a non-sequential address (R112). -/
def Slice.goTo (st : Nat) (target : VAddr) (x : Slice) : Slice :=
  { (x.advance st).clearWindows with pc := target }

/-- A MACRO after one of its operation words: its next step, its own hints used (R119). -/
def MacroRun.next (m : MacroRun) (hint : Bool) : MacroRun :=
  if hint then { m with step := m.step + 1 }
  else { m with step := m.step + 1, imm := [], src3 := none, rnd := none, dup := false, guardWin := guardNext m.guardWin }

/-- The group after a step of a MACRO: after the last one, the MACRO word itself has issued (R121). -/
def Group.macroStep (g : Group) (m : MacroRun) (hint : Bool) : Group :=
  let others := g.mac.filter fun x => decide (x.slices ≠ m.slices)
  if m.step + 1 < m.ops.length then { g with mac := m.next hint :: others }
  else { g.updSlices (bitsOf 8 m.slices) (Slice.advance m.issueStep) with mac := others }

/-- After an instruction's effect: the issuing slices advance, or the MACRO does, and completed writes are
moved into the register table. -/
def Issue.finish (c : Issue) (s : State) : State :=
  s.updGroup c.uid c.gid fun g =>
    match c.mac with
    | some m => (g.macroStep m false).commit
    | none => (g.updSlices c.slices (Slice.advance c.step)).commit

/-- The same at a drain boundary: every earlier write of the slices is complete, and STALL and GUARD state
is cleared (R112, R115). -/
def Issue.finishDrained (c : Issue) (s : State) : State :=
  s.updGroup c.uid c.gid fun g =>
    (g.updSlices c.slices fun x => (x.advance c.step).clearWindows).drain (maskOf 8 c.slices)

/-! ## Ending a team, taking a cause -/

/-- A team-ending cause is raised: the first one raised stands (R366, R370, R387). -/
def endTeamWith (s : State) (uid : Nat) (code : Code) : State :=
  s.updTeam uid fun t => match t.ending with
    | some _ => t
    | none => { t with ending := some code, endClk := s.clk }

/-- HANDLER of a launch record; 0xFFFF_FFFF: none (Table 3.3). -/
def Grid.handler (g : Grid) : Nat := g.field 0x10 4
/-- The first address of the group stream. -/
def Grid.gbase (g : Grid) : Nat := g.field 0x00 8 + g.goff
/-- The first address of the Trowel stream. -/
def Grid.tbase (g : Grid) : Nat := g.field 0x00 8 + g.toff

/-- A slice as trap entry saves it: an instruction that has not issued, with its prefix, issues again; a
wait other than a barrier wait or a parked set is left (R114, R365, R367). -/
def Slice.rewind (x : Slice) : Slice :=
  { x.unbind with
      pc := x.pfx.getD x.pc
      wait := match x.wait with
        | .blocked _ _ _ | .regang => .ready
        | w => w }

/-- The slices of a group as trap entry saves them: one that runs a MACRO takes it up again at its step (R121). -/
def Group.rewound (g : Group) : List Slice :=
  g.slices.mapIdx fun k x => { x.rewind with redo := (g.inMacro k).or x.redo }

/-- A slice that has stopped gathering stands before its instruction, with its prefix and its GUARD window, in the MACRO it
was a step of (R121, R137, R367, R373). -/
def Slice.unpark (x : Slice) : Slice :=
  if x.wait = .parked then
    match x.park with
    | some p => { x.unbind with active := p.mask, pc := p.pfx.getD p.addr, guardWin := p.guardWin, redo := p.run.or x.redo,
                                park := none, wait := .ready }
    | none => { x.rewind with wait := .ready }
  else x

/-- The slices of a group as a context image shows them, and as a cause that does not arise in gathering leaves them (R143,
R367, R373). -/
def Group.before (g : Group) : List Slice := g.rewound.map Slice.unpark

/-- Whether a group has a pair that has not exited. -/
def Group.hasPair (g : Group) : Bool :=
  g.slices.any fun x => !x.finished && (allPairs g.e &&& ~~~ x.exited) != 0

/-- A slice as the handler starts on it (R365). -/
def Slice.inHandler (e : Nat) (handler : VAddr) (step : Nat) (x : Slice) : Slice :=
  if x.finished then x
  else { (x.unbind).clearWindows with
      active := allPairs e &&& ~~~ x.exited, pc := handler, gang := 0, park := none, progress := 0, redo := none, wait := .ready, step := step }

/-- What TRAPCTX0 to 3 are to hold (Table 15.2). -/
structure TrapWords where
  code : Code
  info : BitVec 32 := 0
  pair : Option (Nat × Nat) := none
  trw : Bool := false
  step : Nat := 0
  pc : VAddr := 0
  faddr : BitVec 64 := 0
  mmask : BitVec 16 := 0
  slices : BitVec 8 := 0
  lanes : BitVec 32 := 0
  deriving DecidableEq, Repr

/-- The four words of Table 15.2. -/
def TrapWords.words (w : TrapWords) : List (BitVec 64) :=
  let (fs, fl, fv) := match w.pair with
    | some p => (BitVec.ofNat 4 p.1, BitVec.ofNat 5 p.2, 1#1)
    | none => (0#4, 0#5, 0#1)
  [ w.info ++ fs ++ fl ++ fv ++ (if w.trw then 1#1 else 0#1) ++ BitVec.ofNat 5 w.step ++ w.code,
    0#7 ++ w.pc, w.faddr, w.mmask ++ w.slices ++ 0#8 ++ w.lanes ]

/-- The greatest issue-step count of a group's slices. -/
def Group.maxStep (g : Group) : Nat := g.slices.foldl (fun m x => max m x.step) 0

/-- Trap entry of a group (R365): the slice state is saved as `save` gives it, TRAPCTX is written, the group
becomes privileged, every pair not exited runs the handler as one gang, and the entry is a drain boundary
that clears reservations (R245). `clk` is the clock the cause was raised at (R387). -/
def trapEntry (g : Group) (handler : VAddr) (w : TrapWords) (clk : Nat) (save : List Slice) : Group :=
  Group.drain
    { g with
      slices := g.slices.map (Slice.inHandler g.e handler g.maxStep)
      saved := some { slices := save, left := g.slices, depths := g.slices.map (fun x => x.stack.length + x.spilled),
                      cause := w.code, clk := clk, trw := w.trw }
      trapctx := w.words
      privileged := true
      mac := []
      resv := [] }
    0xFF

/-- A cause taken at a boundary of a group: it enters the handler, or ends the team when there is no handler,
when the group is in privileged state or when it has no live pair (R363, R369). -/
def takeCause (s : State) (uid gid : Nat) (w : TrapWords) (save : List Slice) : State :=
  match s.team? uid with
  | none => s
  | some t => match s.grid? t.grid, t.group? gid with
    | some gr, some g =>
      if gr.handler = 0xFFFFFFFF ∨ g.privileged ∨ !g.hasPair then endTeamWith s uid w.code
      else s.updGroup uid gid fun g => trapEntry g (BitVec.ofNat 57 (gr.gbase + gr.handler)) w s.clk save
    | _, _ => s

/-- The member slots with a pair of a list, and the lanes with one (MMASK and LANES of Table 15.2). -/
def slotMask (ps : List (Nat × Nat)) : BitVec 16 := maskOf 16 (ps.map fun p => p.1)
/-- The lanes of a list of pairs. -/
def laneMask (ps : List (Nat × Nat)) : BitVec 32 := maskOf 32 (ps.map fun p => p.2)

/-- The slices a precise cause of an instruction saves: after SOFT_TRAP and BREAKPOINT the issuing slices stand after the
word, after any other cause at the first word of its prefix, in a MACRO at its step (R121, Table 15.3). -/
def Issue.savedFor (c : Issue) (code : Code) : List Slice :=
  c.group.rewound.mapIdx fun k y =>
    if c.slices.contains k ∧ (code = cSoftTrap ∨ code = cBreakpoint) then (c.group.slice k).advance c.step else y

/-- A held deferred cause of a group taken, the oldest first: `save` gives the slices as they are saved (R365, R366). -/
def takeHeldWith (s : State) (uid gid : Nat) (g : Group) (save : List Slice) : State :=
  match g.held with
  | [] => s
  | h :: rest =>
    let x := (save.filter fun x => !x.finished).headD {}
    takeCause (s.updGroup uid gid fun g => { g with held := rest }) uid gid
      { code := h.code, trw := h.trw, pc := if h.trw then h.tpc else x.pc, faddr := h.faddr } save

/-- A precise cause of an instruction that issues (R8, R114, R363): nothing of it has taken effect. In a MACRO a held
deferred cause goes before it, and the step issues again after HRET (R366). -/
def Issue.trapWith (c : Issue) (t : Trap) (s : State) : State :=
  if c.mac.isSome ∧ c.group.held ≠ [] ∧ !c.group.privileged then takeHeldWith s c.uid c.gid c.group (c.savedFor t.code)
  else
    let lead := c.group.slice (c.slices.headD 0)
    let w : TrapWords :=
      { code := t.code, info := t.info, pair := t.pair, step := (c.mac.map fun m => m.step).getD 0, pc := lead.pfx.getD c.pc,
        faddr := t.faddr, mmask := slotMask c.live, slices := maskOf 8 c.slices, lanes := laneMask c.live }
    takeCause s c.uid c.gid w (c.savedFor t.code)

/-- A deferred cause held for a group: one for each source (R366). -/
def Group.holdCause (g : Group) (h : HeldCause) : Group :=
  if g.held.any fun x => decide (x.src = h.src) then g else { g with held := g.held ++ [h] }

/-- Whether a group is running: started and not ended. -/
def Group.alive (g : Group) : Bool := !g.ended

/-- A deferred cause delivered to the group that commanded, or to the team's live group of lowest GROUPID;
with no live group, or one in privileged state, the team ends with it (R363, R369, R383). -/
def deliver (s : State) (uid gid : Nat) (h : HeldCause) : State :=
  match s.team? uid with
  | none => s
  | some t =>
    let live := t.groups.filter fun g => g.alive
    let to? := if live.any fun g => decide (g.gid = gid) then some gid
      else (stableSort (fun a b => decide (a < b)) (live.map fun g => g.gid)).head?
    match to?.bind t.group? with
    | some g => if g.privileged then endTeamWith s uid h.code else s.updGroup uid g.gid fun g => g.holdCause h
    | none => endTeamWith s uid h.code

/-- A held deferred cause is taken at a boundary of a group that is not in privileged state: the group leaves its waits
(R365 to R367). -/
def takeHeld (s : State) (uid gid : Nat) : State :=
  match (s.team? uid).bind fun t => t.group? gid with
  | some g => takeHeldWith s uid gid g g.before
  | none => s

/-- A slice that waits gathered made to issue its instruction again, with its prefix. -/
def Slice.reissue (x : Slice) : Slice :=
  { x.rewind with redo := (x.park.bind fun p => p.run).or x.redo, wait := .ready }

/-- A slice that has stopped gathering made to issue again: it parks again, and the gathering is judged anew. -/
def Slice.wake (x : Slice) : Slice := if x.wait = .parked then x.reissue else x

/-- A group in which no slice runs and none waits at a barrier, made to judge its gathering again. -/
def Group.wake (g : Group) : Group :=
  if g.slices.all (fun x => x.finished || x.wait == .parked) then { g with slices := g.slices.map Slice.wake } else g

/-- The return from a handler (R163, R368): with equal stack depths every slice's saved state comes back,
the stack as the handler left it; a difference in depth raises RSTACK_FAULT, which ends the team. The
Trowel re-issues its halted instruction after a Trowel cause (R264). -/
def trapReturn (s : State) (uid gid : Nat) : State :=
  match s.team? uid with
  | none => s
  | some t => match t.group? gid with
    | none => s
    | some g => match g.saved with
      | none => s
      | some sv =>
        if g.slices.map (fun x => x.stack.length + x.spilled) ≠ sv.depths then endTeamWith s uid cRstackFault
        else
          let s1 := s.updGroup uid gid fun g =>
            Group.wake <| Group.drain
              { g with
                slices := g.slices.zipWith (fun now old => { old with stack := now.stack, spilled := now.spilled, exited := now.exited })
                  sv.slices
                privileged := false
                saved := none
                resv := [] }
              0xFF
          if sv.trw then
            s1.updTeam uid fun t => { t with trowel := t.trowel.map fun w => match w.status with
              | .halted _ => { w with status := .running }
              | _ => w }
          else s1

/-! ## Checks before an instruction has any effect -/

/-- The kinds F-H (R107). -/
def isHint (j : Instr) : Bool :=
  match j with
  | .stall _ | .imm _ | .src3 _ | .guard _ _ _ | .join | .prefetch _ _ _ | .rnd _ => true
  | _ => false

/-- The major of an instruction's word. -/
def majorOf (j : Instr) : Nat := ((encode j).map fun w => (fld w 26 6).toNat).getD 0

/-- Whether an instruction may stand in a GUARD window (R111). -/
def guardable (j : Instr) : Bool :=
  let m := majorOf j
  (decide (0x08 ≤ m) && decide (m ≤ 0x11)) || (decide (0x14 ≤ m) && decide (m ≤ 0x2F)) || m == 0 || m == 0x3C

/-- An instruction of a microprogram with its literal parameters written as literals (R119, R120). -/
def fullSubst (j : Instr) : Instr :=
  match encode j with
  | none => j
  | some w =>
    let w' := (operands j true).foldl
      (fun w f => if isMark f.code then w ||| (BitVec.ofNat 32 (0x7F * 2 ^ f.pos)) else w) w
    (decodeRaw w').getD j

/-- The operand codes of an instruction with the codes of a bound SRC3. -/
def codesOf (j : Instr) (src3 : Option (BitVec 7)) : List (BitVec 7) :=
  ((operands j src3.isSome).map fun f => f.code) ++ src3.toList ++
    (match j with
     | .runMacro _ a b c => [a, b, c].filterMap fun p => if p = 0x3F then some 0x7F else none
     | _ => [])

/-- The binding rules of R108 and R110 for one slice: IMM words exactly where a literal is named, at most
two; SRC3 and RND at most once, only where the instruction takes them, and SRC3 where it must have it. -/
def bindingOk (j : Instr) (inMac : Bool) (imm : List (BitVec 22)) (src3 : Option (BitVec 7)) (rnd : Option (BitVec 3))
    (dup : Bool) : Bool :=
  let usesLit := (codesOf j src3).contains 0x7F
  let immOk := usesLit == !imm.isEmpty && decide (imm.length ≤ 2)
  let s3Ok := match thirdSource j, src3 with
    | .no, none => true
    | .no, some _ => false
    | .optional _, none => true
    | .required _, none => false
    | .optional n, some code | .required n, some code =>
      fieldLegal ⟨0, if inMac && isMark code then 0x7F else code, n, n, false, true, true⟩
  let rndOk := match rnd with
    | none => true
    | some m => (roundField j).isSome && m != 7 && (m != 6 || srOk j)
  immOk && s3Ok && rndOk && !dup

/-- Whether a privileged instruction issues outside privileged state, TRAPCTX reads included (R105, R106). -/
def needsPriv (j : Instr) : Bool :=
  match j with
  | .mstld _ | .hret => true
  | .mfs _ n => decide (0x18 ≤ n.toNat) && decide (n.toNat ≤ 0x1B)
  | _ => false

/-- Whether a v register at or above the budget is named (R103). -/
def overBudget (j : Instr) (src3 : Option (BitVec 7)) (inMac : Bool) (budget : Nat) : Bool :=
  let above (code : BitVec 7) (n : Nat) : Bool :=
    decide (code.toNat < 0x60) && !(inMac && isMark code) && decide (budget < code.toNat + n)
  (operands j src3.isSome).any (fun f => above f.code f.touched) ||
    (match thirdSource j, src3 with
     | .optional n, some code | .required n, some code => above code n
     | _, _ => false)

/-- The pairs whose operand at a field an instruction reads: the lead pair for `group_value`, one of each
slot for `member_value`, every live pair otherwise (R152). -/
def Issue.readers (c : Issue) (j : Instr) (pos : Nat) : List (Nat × Nat) :=
  let members := c.slots.map c.memberPair
  let lead := c.lead.toList
  match j with
  | .role _ | .regsGive _ _ | .regsClaim _ | .barArv _ _ | .barSync _ _ | .hodChain _ | .bead _ _ => lead
  | .barSyncm _ _ _ => if pos = 0 then lead else c.live
  | .mts _ _ | .lacClrBind _ _ | .lacLd _ _ | .lacSt _ _ | .regroup _ | .hod _ _ => members
  | .ldbMx8 _ _ _ | .ldbMx4 _ _ _ | .ldbTb4 _ _ _ | .stbMx8 _ _ _ | .stbMx4 _ _ _ | .stbTb4 _ _ _
  | .ldhbMx8 _ _ _ | .ldhbMx4 _ _ _ | .ldhbTb4 _ _ _ | .sthbMx8 _ _ _ | .sthbMx4 _ _ _ | .sthbTb4 _ _ _ =>
    if pos = 14 then c.live else members
  | _ => c.live

/-- The GUARD windows over an instruction of a slice: the slice's own, and that of the MACRO it runs (R111, R121). -/
def Group.windows (g : Group) (sl : Nat) : List GuardWin :=
  (g.slice sl).guardWin.toList ++ ((g.inMacro sl).bind fun m => m.guardWin).toList

/-- The cells an instruction reads (R116): operands, third source, predicates, GUARD predicates, and FPM
where it takes the dynamic rounding mode, SATN or FPM itself. -/
def Issue.sources (c : Issue) (j : Instr) : List (Nat × Loc) :=
  let ofField (code : BitVec 7) (n pos : Nat) : List (Nat × Loc) :=
    (c.readers j pos).flatMap fun p => (List.range n).filterMap fun k =>
      match c.group.literal? (p.2 / 4) code with
      | some _ => none
      | none => (cellOf code k p.1 p.2).map fun r => (p.2 / 4, r)
  let s3 := c.group.src3Of (c.slices.headD 0)
  let regs := ((operands j s3.isSome).filter fun f => f.src).flatMap fun f => ofField f.code f.touched f.pos
  let third := match thirdSource j, s3 with
    | .optional n, some code | .required n, some code => ofField code n 64
    | _, _ => []
  let preds := (predSources j).flatMap fun n =>
    if n = 0 then [] else c.live.map fun p => (p.2 / 4, .p n.toNat p.1 p.2)
  let guards := c.slices.flatMap fun sl => (c.group.windows sl).flatMap fun w =>
    if w.pred = 0 then [] else
      (pairsWhere c.group.e [sl] fun k => (c.group.slice k).active).map fun p => (sl, .p w.pred.toNat p.1 p.2)
  regs ++ third ++ preds ++ guards ++ c.live.map fun p => (p.2 / 4, .fpm p.1)

/-- The bits of FPM that an instruction reads (R115, Table 2.4), of the value it sees: the whole for MFS; SATN for a
conversion to a floating format; RM for a dynamic rounding mode, and SEEDIX for stochastic rounding. -/
def fpmRead (j : Instr) (rnd : Option (BitVec 3)) (v : Word) : Word :=
  let mode := (roundField j).map fun m => rnd.getD m
  (match j with
   | .mfs _ n => if n = 0x010 then 0xFFFFFFFF else 0
   | .cvt g _ _ _ _ => if g.toNat < 8 then 0x100 else 0
   | _ => 0) |||
  (if mode = some 0 then 0xE0 else 0) |||
  (if mode = some 6 ∨ (mode = some 0 ∧ fpmRm v = 6) then 0xFF000000 else 0)

/-- The bits of a cell that an instruction reads, of the value it sees. -/
def Issue.bitsRead (c : Issue) (j : Instr) (r : Loc) (v : Word) : Word :=
  match r with
  | .fpm _ => v &&& fpmRead j (c.group.rndOf (c.slices.headD 0)) v
  | _ => v

/-- Whether a read of a cell would see a value other than the one with every earlier instruction complete (R116). -/
def Issue.shortRead (c : Issue) (j : Instr) (q : Nat × Loc) : Bool :=
  c.bitsRead j q.2 (c.group.seen q.1 c.step q.2) != c.bitsRead j q.2 (c.group.full q.2)

/-- Whether the instruction would see such a value (R116). -/
def Issue.stallShort (c : Issue) (j : Instr) : Bool := (c.sources j).any (c.shortRead j)

/-- The checks of an instruction that is not a hint word before it has any effect, in their order: the
encoding and its prefix, a GUARD window, privilege, the register budget. With no live pair only the first
two apply (R153). -/
def precheckCore (j : Instr) (c : Issue) : Option Trap :=
  let g := c.group
  let inMac := c.mac.isSome
  let whole := if inMac then fullSubst j else j
  if !legal whole then some { code := cIllegal }
  else if !(c.slices.all fun sl => bindingOk j inMac (g.immOf sl) (g.src3Of sl) (g.rndOf sl) (g.dupOf sl)) then some { code := cIllegal }
  else if (c.slices.any fun sl => (g.slice sl).guardWin.isSome) && !guardable j && !inMac then some { code := cIllegal }
  else if !c.live.isEmpty ∧ needsPriv j ∧ !g.privileged then some { code := cPriv }
  else if !c.live.isEmpty ∧ c.slices.any fun sl => overBudget j (g.src3Of sl) inMac g.regbud then some { code := cRegBudget }
  else none

/-- The same with the checking scoreboard (R116), for an instruction that is no drain boundary. -/
def precheck (j : Instr) (c : Issue) : Option Trap :=
  match precheckCore j c with
  | some t => some t
  | none => if !c.live.isEmpty ∧ c.grid.ctl 0 1 = 1 ∧ c.stallShort j then some { code := cStallShort } else none

/-! ## The wrapper of group instructions -/

/-- The issuing slices marked as waiting for an instruction that has not issued; a wait that has begun keeps
its beginning. -/
def Issue.block (c : Issue) (j : Instr) (progress : Nat) (s : State) : State :=
  c.slicesDo (fun x => { x with
    progress := progress
    wait := match x.wait with
      | .blocked k since order => if k = j then .blocked k since order else .blocked j s.clk s.tick
      | _ => .blocked j s.clk s.tick }) s

/-- The state after an instruction by what it does. -/
def Issue.settle (c : Issue) (j : Instr) (s : State) (r : Res) : State :=
  match r with
  | .ok t => c.finish t
  | .drained t => c.finishDrained t
  | .placed t => t.updGroup c.uid c.gid Group.commit
  | .trap t => c.trapWith t s
  | .endTeam code => endTeamWith s c.uid code
  | .hold n t => c.block j n t
  | .again => s

/-- An instruction with its checks (R8, R153). -/
def Issue.run (c : Issue) (j : Instr) (s : State) (body : Issue → State → Res) : State :=
  match precheck j c with
  | some t => c.trapWith t s
  | none => c.settle j s (body c s)

/-- Whether a team of the state has a Trowel context. -/
def hasTrowel (s : State) (uid : Nat) : Bool :=
  match s.team? uid with
  | some t => t.trowel.isSome
  | none => false

/-- A Trowel trap (R264): the Trowel halts at its instruction, and the cause is deferred to the team's live
group of lowest GROUPID; with no live group the team ends with it (R383). -/
def trowelTrap (s : State) (uid : Nat) (code : Code) (faddr : BitVec 64) : State :=
  match s.team? uid with
  | none => s
  | some t => match t.trowel with
    | none => s
    | some w =>
      let at_ := w.pfx.getD w.pc
      let s1 := s.updTeam uid fun t =>
        { t with trowel := some { w with status := .halted code, haltClk := s.clk, pc := at_, imm := [], pfx := none } }
      let gids := stableSort (fun a b => decide (a < b)) ((t.groups.filter fun g => g.alive).map fun g => g.gid)
      match gids with
      | [] => endTeamWith s1 uid code
      | k :: _ => deliver s1 uid k { code := code, src := 21, faddr := faddr, trw := true, tpc := at_ }

/-- A group instruction: run for the gang that issues; a Trowel that fetches it traps ILLEGAL_INSTR (R123);
with no such agent the machine stops. -/
def groupInstr (j : Instr) (s : State) (body : Issue → State → Res) : Host.Outcome State Fault Refusal :=
  match s.issuer with
  | .gang uid gid gang =>
    match issueOf s uid gid gang false with
    | some c => .next (c.run j s body)
    | none => .fault .noIssuingGang
  | .trowel uid => if hasTrowel s uid then .next (trowelTrap s uid cIllegal 0) else .fault .noIssuingTrowel
  | .nobody => .fault .noIssuingGang

/-- A hint word: run for the gang that issues, at the slices' own step; it takes one issue step (R107). -/
def hintInstr (s : State) (other : State → Nat → Host.Outcome State Fault Refusal) (body : Issue → State → State) :
    Host.Outcome State Fault Refusal :=
  match s.issuer with
  | .gang uid gid gang =>
    match issueOf s uid gid gang true with
    | some c => .next (body c s)
    | none => .fault .noIssuingGang
  | .trowel uid => other s uid
  | .nobody => .fault .noIssuingGang

end Sys2Proof.Machine
end

