-- ==== Sys2Proof/Machine/Gather.lean ====
section
/-! DEFINITION. The reconvergence stack with its spill area (R131 to R134), the forming of gangs (R130,
R138), and the gathering of gang-wide instructions and barrier waits (R136, R137, R325). -/

namespace Sys2Proof.Machine

/-! ## The reconvergence stack -/

/-- An entry as its 16 bytes hold it (Table 6.1). -/
def StackEntry.bits (x : StackEntry) : BitVec 128 := x.mask ++ (if x.deferred then 1#1 else 0#1) ++ 0#6 ++ x.addr
/-- The entry found in 16 bytes, for a group of E slots (R134). -/
def entryOf (e : Nat) (v : BitVec 128) : StackEntry :=
  let mask := v.extractLsb' 64 64
  { mask := mask, deferred := v.getLsbD 63, addr := v.extractLsb' 0 57,
    bad := v.extractLsb' 57 6 != 0 || (mask &&& ~~~ allPairs e) != 0 }

/-- The Hawk offset of the n-th entry from the bottom of a slice's stack (R134). -/
def spillOff (gr : Grid) (g : Group) (sl n : Nat) : Nat :=
  gr.field 0x28 4 - (g.gid + 1) * g.spill + sl * (g.spill / 8) + 16 * n

/-- The entries a slice may hold: 32 in hardware and its part of the spill area (R134). -/
def Group.stackLimit (g : Group) : Nat := 32 + g.spill / 128
/-- The depth of a slice's stack, spill included (RSDEPTH). -/
def Slice.depth (x : Slice) : Nat := x.stack.length + x.spilled

/-- A push; with 32 entries held the lowest of them goes to the spill area (R134). -/
def pushEntry (gr : Grid) (gid sl : Nat) (x : StackEntry) (t : Team) : Team :=
  match t.group? gid with
  | none => t
  | some g =>
    let s := g.slice sl
    if s.stack.length < 32 then t.updGroup gid fun g => g.updSlice sl fun s => { s with stack := x :: s.stack }
    else
      let low := s.stack.getLastD x
      let t1 := { t with hawk := bytesSet t.hawk (spillOff gr g sl s.spilled) (bytesOfNat 16 low.bits.toNat) }
      t1.updGroup gid fun g => g.updSlice sl fun s =>
        { s with stack := x :: s.stack.dropLast, spilled := s.spilled + 1 }

/-- A pop: the top entry, and the team with one entry refilled when fewer than 32 are held and some are
spilled (R134). -/
def popEntry (gr : Grid) (gid sl : Nat) (t : Team) : Option (StackEntry × Team) :=
  match t.group? gid with
  | none => none
  | some g =>
    match (g.slice sl).stack with
    | [] => none
    | x :: rest =>
      let n := (g.slice sl).spilled
      if rest.length < 32 ∧ 0 < n then
        let v := natOfBytes (bytesAt t.hawk (spillOff gr g sl (n - 1)) 16)
        some (x, t.updGroup gid fun g => g.updSlice sl fun s =>
          { s with stack := rest ++ [entryOf g.e (BitVec.ofNat 128 v)], spilled := n - 1 })
      else some (x, t.updGroup gid fun g => g.updSlice sl fun s => { s with stack := rest })

/-- Every entry of a slice's stack, top first, spilled ones included. -/
def stackAll (gr : Grid) (t : Team) (g : Group) (sl : Nat) : List StackEntry :=
  let x := g.slice sl
  x.stack ++ (List.range x.spilled).reverse.map fun n =>
    entryOf g.e (BitVec.ofNat 128 (natOfBytes (bytesAt t.hawk (spillOff gr g sl n) 16)))

/-- Depth, kind and address of every entry: what decides whether slices form a gang (R130, R138). -/
def stackShape (gr : Grid) (t : Team) (g : Group) (sl : Nat) : List (Bool × VAddr) :=
  (stackAll gr t g sl).map fun x => (x.deferred, x.addr)

/-- `unwind` of R133 with `fuel` pops at most; `none` when it meets an entry that traps RSTACK_FAULT. -/
def unwind (gr : Grid) (gid sl st : Nat) : Nat → Team → Option Team
  | 0, t => some (t.updGroup gid fun g => g.updSlice sl fun x =>
      if x.active = 0 then { x with wait := .finished, active := 0, park := none } else x)
  | fuel + 1, t =>
    match t.group? gid with
    | none => some t
    | some g =>
      if (g.slice sl).active ≠ 0 then some t
      else match popEntry gr gid sl t with
        | none => unwind gr gid sl st 0 t
        | some (x, t1) =>
          if x.bad then none
          else unwind gr gid sl st fuel (t1.updGroup gid fun g => g.updSlice sl fun s =>
            { (s.goTo st (if x.deferred then x.addr else x.addr + 4)) with active := x.mask &&& ~~~ s.exited })

/-! ## Gangs -/

/-- The pairs' reservations of some slices cleared (R245). -/
def Group.clearPairs (g : Group) (sls : List Nat) : Group :=
  { g with resv := g.resv.filter fun r => !(sls.contains (r.1 % 32 / 4)) }

/-- The slices of a list whose next addresses and stacks are equal form one gang, labelled by its lowest
slice; slices that part lose their reservations (R130, R245). -/
def formGangs (gr : Grid) (gid : Nat) (sls : List Nat) (t : Team) : Team :=
  match t.group? gid with
  | none => t
  | some g =>
    let sig (sl : Nat) := ((g.slice sl).pc, stackShape gr t g sl)
    let label (sl : Nat) := (sls.find? fun k => decide (sig k = sig sl)).getD sl
    let parted := sls.any fun sl => decide (sig sl ≠ sig (sls.headD 0))
    t.updGroup gid fun g =>
      let g1 := { g with slices := g.slices.mapIdx fun k x => if sls.contains k then { x with gang := label k } else x }
      if parted then g1.clearPairs sls else g1

/-! ## Gathering -/

/-- The participants of a gang-wide instruction in a slice: the pairs of its top region entry, or every pair
where it has none, less those exited (R137). -/
def participants (gr : Grid) (t : Team) (g : Group) (sl : Nat) : BitVec 64 :=
  let m := match (stackAll gr t g sl).find? fun x => !x.deferred with
    | some x => x.mask
    | none => allPairs g.e
  m &&& ~~~ (g.slice sl).exited

/-- Whether the next pop of a slice takes a deferred entry. -/
def Slice.topDeferred (x : Slice) : Bool :=
  match x.stack with
  | e :: _ => e.deferred
  | [] => false

/-- The pairs a slice holds parked. -/
def Slice.parked (x : Slice) : BitVec 64 := (x.park.map fun p => p.mask).getD 0

/-- A MACRO that a slice parks in: what its pairs have run of it, with that of the pairs parked before (R119, R137). -/
def MacroRun.joined (m : MacroRun) (sl : Nat) (before : Option MacroRun) : MacroRun :=
  { m with live := ((before.map fun b => b.live).getD []) ++ m.live.filter fun p => decide (p.2 / 4 = sl) }

/-- The pairs that a slice parks which a GUARD window turns off there, or one over the MACRO they run: the forced
reconvergence is a drain boundary before the predicate is read (R111, R115, R121). -/
def Group.parkOff (g : Group) (sl : Nat) (x : Slice) : BitVec 64 :=
  let on (p : Nat × Nat) : Bool := (g.drain (maskOf 8 [sl])).guardOn x.issueStep p &&
    (match g.inMacro sl with
     | some m => m.live.contains p
     | none => true)
  maskOf 64 (((pairsWhere g.e [sl] fun _ => x.active &&& ~~~ x.parked).filter fun p => !on p).map pairBit)

/-- A slice parks its active set at the address it has reached (R137): the pairs join those it holds parked
there, and a STALL count is of no more use. -/
def Slice.parkAt (g : Group) (sl : Nat) (j : Instr) (x : Slice) : Slice :=
  let off := g.parkOff sl x
  let run := (g.inMacro sl).map fun m => m.joined sl (x.park.bind fun p => p.run)
  let p : Park := match x.park with
    | some p => { p with mask := p.mask ||| x.active, off := p.off ||| off, run := run }
    | none => { addr := x.pc, instr := j, mask := x.active, off := off, guardWin := x.guardWin,
                imm := x.imm, src3 := x.src3, rnd := x.rnd, pfx := x.pfx, run := run }
  { x with park := some p, stall := [], active := 0 }

/-- The pairs of a slice whose lane lies in a mask of lanes. -/
def laneSel (m : BitVec 32) (sl : Nat) : BitVec 64 :=
  maskOf 64 ((List.range 64).filter fun b => m.getLsbD (4 * sl + b % 4))

/-- The participants a slice gathers: all of R137, or with the mask of BAR.SYNCM those whose lane is in it
(R257, R326). -/
def wanted (gr : Grid) (t : Team) (g : Group) (m : Option (BitVec 32)) (sl : Nat) : BitVec 64 :=
  match m with
  | none => participants gr t g sl
  | some m => participants gr t g sl &&& laneSel m sl

/-- What gathering comes to for one slice: it runs its next deferred pairs, it has stopped with its parked
set, it cannot gather, or it meets a refilled entry that traps RSTACK_FAULT (R134). -/
inductive Gathered where
  | running (t : Team)
  | stopped (t : Team)
  | failed
  | broken

/-- Steps 1 and 2 of R137 for one slice whose pairs have parked: it runs its deferred pairs when its top entry
is deferred, and parts from its gang (R245); else its parked set has to equal its participants. With the mask of BAR.SYNCM
it stops once the participants in the mask have parked. `fuel` bounds the entries popped. -/
def gatherOn (gr : Grid) (gid sl : Nat) (m : Option (BitVec 32)) : Nat → Team → Gathered
  | 0, _ => .failed
  | fuel + 1, t =>
    match t.group? gid with
    | none => .failed
    | some g =>
      let x := g.slice sl
      let stop := t.updGroup gid fun g => g.updSlice sl fun x => { x with active := x.parked, wait := .parked }
      if m.isSome ∧ (wanted gr t g m sl &&& ~~~ x.parked) = 0 then .stopped stop
      else if x.topDeferred then
        match popEntry gr gid sl t with
        | none => .failed
        | some (y, t1) =>
          if y.bad then .broken
          else if y.mask &&& ~~~ x.exited = 0 then gatherOn gr gid sl m fuel t1
          else .running (t1.updGroup gid fun g => (g.updSlice sl fun s =>
            { (s.unbind).clearWindows with active := y.mask &&& ~~~ s.exited, pc := y.addr, gang := sl, wait := .ready }).clearPairs [sl])
      else if x.parked = wanted gr t g m sl then .stopped stop
      else .failed

/-- The gathering of one slice that has reached the address. -/
def gatherSlice (gr : Grid) (gid sl : Nat) (j : Instr) (m : Option (BitVec 32)) (t : Team) : Gathered :=
  match t.group? gid with
  | none => .failed
  | some g =>
    gatherOn gr gid sl m ((g.slice sl).depth + 1) (t.updGroup gid fun g' => g'.updSlice sl (Slice.parkAt g sl j))

/-- The slices of a list gathered one after another; the cause when one cannot. -/
def gatherSlices (gr : Grid) (gid : Nat) (j : Instr) (m : Option (BitVec 32)) (code : Code) : List Nat → Team → Except Code Team
  | [], t => .ok t
  | sl :: rest, t =>
    match gatherSlice gr gid sl j m t with
    | .running t1 | .stopped t1 => gatherSlices gr gid j m code rest t1
    | .failed => .error code
    | .broken => .error cRstackFault

/-- A group whose gathering slices have left the MACRO they run, which their parked sets keep (R119). -/
def Group.leaveMacro (g : Group) (sls : List Nat) : Group :=
  { g with mac := g.mac.filter fun m => !sls.any fun sl => m.slices.getLsbD sl }

/-- Whether a slice keeps others from gathering at an address: it is parked elsewhere, or waits at a barrier
or at REGANG (R137, R138). -/
def Slice.elsewhere (a : VAddr) (x : Slice) : Bool :=
  match x.wait with
  | .barrier _ _ _ | .regang => true
  | .parked => match x.park with
    | some p => decide (p.addr ≠ a)
    | none => true
  | _ => false

/-- Whether a slice has gathered at an address, or has finished. -/
def Slice.gatheredAt (a : VAddr) (x : Slice) : Bool :=
  match x.wait with
  | .finished => true
  | .parked => match x.park with
    | some p => decide (p.addr = a)
    | none => false
  | _ => false

/-- Some slices of a group that have gathered, ready to act: each slice's active set is its parked one and its
hints are those of the instruction. -/
def Group.assembled (g : Group) (sls : List Nat) : Group :=
  g.updSlices sls fun x => match x.park with
    | some p => { x with
        active := p.mask, imm := p.imm, src3 := p.src3, rnd := p.rnd, guardWin := p.guardWin, pc := p.addr, pfx := p.pfx,
        wait := .ready, park := none }
    | none => x

/-- The pairs GUARD windows turned off at a gang-wide instruction. -/
def Group.offMask (g : Group) (sl : Nat) : BitVec 64 := ((g.slice sl).park.map fun p => p.off).getD 0

/-- Whether a slice has stopped gathering at an address. -/
def Slice.stoppedAt (a : VAddr) (x : Slice) : Bool :=
  x.wait == .parked && decide ((x.park.map fun p => p.addr) = some a)

/-- The MACRO that gathered slices run on together, where the instruction is a step of one (R119, R138). -/
def Group.joinedRun (g : Group) (sls : List Nat) : Option MacroRun :=
  match sls.filterMap fun sl => (g.slice sl).park.bind fun p => p.run with
  | [] => none
  | m :: rest => some { m with slices := maskOf 8 sls, issueStep := g.maxStep, live := (m :: rest).flatMap fun m => m.live }

/-- The issue of a gang-wide instruction by the slices of a group that have gathered (R137, R138): the gathering
is a drain boundary before it (R115). -/
def gatheredIssue (t : Team) (gr : Grid) (g : Group) (a : VAddr) : Issue :=
  let sls := (List.range g.slices.length).filter fun sl => (g.slice sl).stoppedAt a
  let ga := { (g.assembled sls).drain (maskOf 8 sls) with mac := (g.joinedRun sls).toList ++ g.mac }
  { uid := t.uid, gid := g.gid, gang := sls.headD 0, grid := gr, team := t, group := ga, slices := sls, pc := a,
    step := g.maxStep,
    live := (pairsWhere g.e sls fun sl => (ga.slice sl).active).filter fun p => !(g.offMask (p.2 / 4)).getLsbD (pairBit p) }

/-- A slice after the gang-wide instruction it has gathered for: one place of its GUARD window used, its
STALL counts gone (R111, R112). -/
def Slice.resume (st : Nat) (x : Slice) : Slice :=
  match x.park with
  | some p => { x.unbind with active := p.mask, pc := p.addr + 4, step := st + 1, stall := [], guardWin := guardNext p.guardWin,
                              park := none, wait := .ready }
  | none => x

/-- The gangs that gathered slices form each go on with the MACRO at its next step. -/
def Group.goOn (g : Group) (sls : List Nat) (m : MacroRun) : Group :=
  let labels := (sls.map fun sl => (g.slice sl).gang).foldl natInsert []
  { g with mac := labels.map (fun k =>
      let mine := sls.filter fun sl => decide ((g.slice sl).gang = k)
      { m.next false with slices := maskOf 8 mine, live := m.live.filter fun p => mine.contains (p.2 / 4) }) ++ g.mac }

/-- After a gang-wide instruction: the reservations are gone (R245), and slices whose stacks are equal form one
gang (R138). Where it was a step of a MACRO that is not its last, they go on with that (R119). -/
def Issue.release (c : Issue) (s : State) : State :=
  let form (f : Group → Group) (t : Team) : Team :=
    formGangs c.grid c.gid c.slices (t.updGroup c.gid fun g => ((f g).clearPairs c.slices).commit)
  s.updTeam c.uid fun t =>
    match c.mac with
    | some m =>
      if m.step + 1 < m.ops.length then (form (fun g => g.assembled c.slices) t).updGroup c.gid fun g => g.goOn c.slices m
      else form (fun g => g.updSlices c.slices (Slice.resume c.step)) t
    | none => form (fun g => g.updSlices c.slices (Slice.resume c.step)) t

/-- The cause a gathering failure at an instruction raises (R136, R325). -/
def gatherCode (j : Instr) : Code :=
  match j with
  | .barWt _ | .barSync _ _ | .barSyncm _ _ _ | .snap _ => cBarUnreachable
  | _ => cGangUnreachable

/-- The step of a MACRO that the slices of a group have parked at an address in (Table 15.2). -/
def Group.parkedStep (g : Group) (a : VAddr) : Option Nat :=
  (g.slices.findSome? fun x => x.park.bind fun p => if p.addr = a then p.run else none).map fun m => m.step

/-- A gathering failure (R137): nothing of the instruction has taken effect, each slice's gathering state is
saved as it stands, and PC holds the gang-wide address. -/
def Issue.gatherTrap (c : Issue) (code : Code) (a : VAddr) (s : State) : State :=
  match (s.team? c.uid).bind fun t => t.group? c.gid with
  | none => s
  | some g =>
    takeCause s c.uid c.gid
      { code := code, pc := a, step := ((g.parkedStep a).or (c.mac.map fun m => m.step)).getD 0
        mmask := slotMask c.live, slices := maskOf 8 c.slices, lanes := laneMask c.live }
      g.rewound

/-- The failure of the gathering that a slice is in, met by a participant that still runs (R137). -/
def Issue.parkedTrap (c : Issue) (sl : Nat) (s : State) : State :=
  match (c.group.slice sl).park with
  | some p => c.gatherTrap (gatherCode p.instr) p.addr s
  | none => s

/-- What a gang-wide instruction of a group that has gathered comes to. -/
def Issue.gatherDone (k : Issue) (s1 : State) (r : Res) : State :=
  match r with
  | .ok s2 | .drained s2 => k.release s2
  | .placed s2 => s2
  | .trap t => k.trapWith t s1
  | .endTeam e => endTeamWith s1 k.uid e
  | .hold _ s2 => s2
  | .again => s1

/-- The slices of a group that wait gathered or at REGANG made to issue their instruction again, as they must when
another slice has finished. -/
def Group.nudge (g : Group) : Group :=
  { g with slices := g.slices.map fun x => match x.wait with
      | .parked | .regang => x.reissue
      | _ => x }

/-- The same where fewer slices run than before. -/
def Group.nudgeIf (before g : Group) : Group :=
  let n (g : Group) := (g.slices.filter Slice.finished).length
  if n before < n g then g.nudge else g

/-- Whether a group has wholly gathered at an address. -/
def Group.gatheredAt (a : VAddr) (g : Group) : Bool := g.slices.all (Slice.gatheredAt a)

/-- The gang-wide instructions that gather across a sibling set (R141, R204). -/
def gathersSiblings (j : Instr) : Bool :=
  match j with
  | .regroup _ | .estatMean _ _ _ _ | .estatSprd _ _ _ _ | .estatRank _ _ _ | .estatQnt _ _ _ => true
  | _ => false

/-- SIBS + 1 of a record (Table 3.4). -/
def Grid.siblings (g : Grid) : Nat := g.field 0x27 1 / 8 % 4 + 1

/-- The groups of a group's sibling set, in SIBLING order (R141); a spawned group is a set of its own. -/
def siblingsOf (t : Team) (gr : Grid) (g : Group) : List Group :=
  if g.spawned then (t.group? g.gid).toList else (List.range gr.siblings).filterMap fun k => t.group? (g.gid - g.sibling + k)

/-- Whether a slice is parked at another address, or waits at a barrier (R141). -/
def Slice.parkedElsewhere (a : VAddr) (x : Slice) : Bool :=
  match x.wait with
  | .barrier _ _ _ => true
  | .parked => match x.park with
    | some p => decide (p.addr ≠ a)
    | none => true
  | _ => false

/-- The slices of a group as the gathering rules see them: while its handler runs it counts as waiting where it left
(R367). -/
def Group.stands (g : Group) : List Slice :=
  match g.saved with
  | some v => v.left
  | none => g.slices

/-- Whether a sibling makes those that wait at an address trap GANG_UNREACHABLE (R141). -/
def Group.lostAt (a : VAddr) (g : Group) : Bool :=
  g.ended || g.stands.all Slice.finished || g.stands.any (Slice.parkedElsewhere a)

/-- The address a group waits at for its siblings, where it does. -/
def Group.siblingWait (g : Group) : Option VAddr :=
  match g.slices.find? fun x => x.park.isSome && x.wait == .parked with
  | some x => match x.park with
    | some p => if gathersSiblings p.instr ∧ g.gatheredAt p.addr then some p.addr else none
    | none => none
  | none => none

/-- The siblings of a group that wait for it and must now trap, made to judge their gathering again (R141). -/
def wakeSiblings (uid gid : Nat) (s : State) : State :=
  match s.team? uid with
  | none => s
  | some t => match s.grid? t.grid, t.group? gid with
    | some gr, some g =>
      (siblingsOf t gr g).foldl (fun s b =>
        if b.gid ≠ gid ∧ ((b.siblingWait).map fun a => g.lostAt a) = some true then s.updGroup uid b.gid Group.wake else s) s
    | _, _ => s

/-- Whether a slice has gathered with the mask of BAR.SYNCM: it holds no participant in the mask, or has stopped
at the address. -/
def gatheredFor (gr : Grid) (t : Team) (g : Group) (m : Option (BitVec 32)) (a : VAddr) (sl : Nat) : Bool :=
  match m with
  | none => (g.slice sl).gatheredAt a
  | some _ => (g.slice sl).stoppedAt a || wanted gr t g m sl == 0 || (g.slice sl).finished

/-- Whether a slice makes a gathering fail: one that waits at a barrier although it holds no participant of
BAR.SYNCM does only if the barrier is another (R325, R326). -/
def gatherBlocked (gr : Grid) (t : Team) (g : Group) (j : Instr) (m : Option (BitVec 32)) (a : VAddr) (sl : Nat) : Bool :=
  match m, (g.slice sl).wait, j with
  | some _, .barrier b _ _, .barSyncm n _ _ => decide (b ≠ n.toNat) || wanted gr t g m sl != 0
  | _, _, _ => (g.slice sl).elsewhere a

/-- The slices of a group once some have reached a gang-wide instruction or a barrier: a gathering that fails traps, with
GANG_UNREACHABLE where slices wait at REGANG (R138); with every slice gathered the instruction acts; else the group waits. -/
def Issue.gathered (c : Issue) (j : Instr) (code : Code) (m : Option (BitVec 32)) (t : Team) (g : Group) (s : State)
    (whole : Issue → State → State) : State :=
  let sls := List.range g.slices.length
  match g.slices.find? fun x => x.wait == .regang with
  | some x => c.gatherTrap cGangUnreachable x.pc s
  | none =>
    if sls.any (gatherBlocked c.grid t g j m c.pc) then c.gatherTrap code c.pc s
    else if sls.all (gatheredFor c.grid t g m c.pc) then
      let k := gatheredIssue t c.grid g c.pc
      whole k (s.updGroup c.uid c.gid fun g => g.drain (maskOf 8 k.slices))
    else wakeSiblings c.uid c.gid s

/-- The gathering of some slices at their program counter, and the instruction's effect once every slice of
the group has gathered (R137). `code` is the cause of a failure: GANG_UNREACHABLE or BAR_UNREACHABLE; `m` is the
mask of BAR.SYNCM. The gathering is a drain boundary (R115). -/
def Issue.gather (c : Issue) (j : Instr) (code : Code) (m : Option (BitVec 32)) (s : State) (whole : Issue → State → State) : State :=
  let clash := c.slices.find? fun sl => match (c.group.slice sl).park with
    | some p => decide (p.addr ≠ c.pc)
    | none => false
  match clash with
  | some sl => c.parkedTrap sl s
  | none =>
    match gatherSlices c.grid c.gid j m code c.slices c.team with
    | .error e => if e = cRstackFault then c.trapWith { code := e } s else c.gatherTrap e c.pc s
    | .ok t0 =>
      let t1 := t0.updGroup c.gid fun g => g.leaveMacro c.slices
      let s1 := s.updTeam c.uid fun _ => t1
      match t1.group? c.gid with
      | none => s1
      | some g => c.gathered j code m t1 g s1 whole

/-- A gang-wide instruction (R136): checked when a gang reaches it, then gathered. `pre` gives what it checks
beyond every instruction's checks, and `m` the mask of BAR.SYNCM. -/
def gangWideWith (j : Instr) (code : Code) (s : State) (pre : Issue → Option Trap) (m : Issue → Option (BitVec 32))
    (whole : Issue → State → State) : Host.Outcome State Fault Refusal :=
  match s.issuer with
  | .gang uid gid gang =>
    match issueOf s uid gid gang false with
    | some c => match (precheckCore j c).or (pre c) with
      | some t => .next (c.trapWith t s)
      | none => .next (c.gather j code (m c) s whole)
    | none => .fault .noIssuingGang
  | .trowel uid => if hasTrowel s uid then .next (trowelTrap s uid cIllegal 0) else .fault .noIssuingTrowel
  | .nobody => .fault .noIssuingGang

/-- A gang-wide instruction of one group. -/
def gangWide (j : Instr) (code : Code) (s : State) (act : Issue → State → Res) : Host.Outcome State Fault Refusal :=
  gangWideWith j code s (fun _ => none) (fun _ => none) fun k s1 => k.gatherDone s1 (act k s1)

/-! ## Sibling sets -/

/-- A gang-wide instruction that gathers across the sibling set: it waits for every sibling, and then acts for
all of them, each with its own issue (R141). `budget` tells whether REGBUD must agree. -/
def siblingWide (j : Instr) (budget : Bool) (s : State) (act : List Issue → State → State) : Host.Outcome State Fault Refusal :=
  gangWideWith j cGangUnreachable s (fun _ => none) (fun _ => none) fun k s1 =>
    match s1.team? k.uid with
    | none => s1
    | some t =>
      let set := siblingsOf t k.grid k.group
      let issues := set.map fun g => gatheredIssue t k.grid g k.pc
      let trapAll (code : Code) := issues.foldl (fun s i => i.gatherTrap code k.pc s) s1
      if set.any fun g => decide (g.gid ≠ k.gid) && g.lostAt k.pc then
        (set.filter fun g => g.gatheredAt k.pc && !g.lostAt k.pc).foldl
          (fun s g => (gatheredIssue t k.grid g k.pc).gatherTrap cGangUnreachable k.pc s) s1
      else if !(set.all fun g => g.gatheredAt k.pc) then s1
      else if (List.range 8).any fun sl =>
          set.any fun g => decide (stackShape k.grid t g sl ≠ stackShape k.grid t k.group sl) then trapAll cRegroupMismatch
      else if budget ∧ set.any fun g => decide (g.regbud ≠ k.group.regbud) then trapAll cRegroupMismatch
      else act issues s1

end Sys2Proof.Machine
end

