-- ==== Sys2Proof/Machine/Fetch.lean ====
section
/-! DEFINITION. Fetching: the word at a program counter of a group or a Trowel (R98, R159, R263), the
operation words of a MACRO with their parameters substituted (R118 to R121), and the placing of a word
where the next step fetches it. -/

namespace Sys2Proof.Machine

/-- What a fetch gives: an instruction, a word that is none (R123), a team-ending cause (R159, R89), a page
that is locked (R92) or an agent that issues nothing now, or an address past the Trowel stream (R271). -/
inductive Fetched where
  | instr (j : Instr)
  | illegal
  | ended (c : Code)
  | locked
  | past

/-- The word at a virtual address of a grid's code, for a core: each byte needs a lease with X. -/
def fetchWord (s : State) (core : Nat) (gr : Grid) (pc : VAddr) : Fetched × State :=
  if !leaseOk gr none .x pc.toNat 4 then (.ended cLeaseViolation, s)
  else match translateAll s core gr.asid gr.root false (accessBytes gr none pc.toNat 4) with
    | .lost => (.ended cXlatLost, s)
    | .locked => (.locked, s)
    | .ok pas s1 =>
      match decodeBytes (l2Reads s1 pas) with
      | .ok (j, _) => (.instr j, s1)
      | .error _ => (.illegal, s1)

/-- The operand code of a MACRO parameter (Table 5.6). -/
def paramCode (p : BitVec 6) : BitVec 7 :=
  let n := p.toNat
  if n < 0x20 then BitVec.ofNat 7 n
  else if n < 0x30 then BitVec.ofNat 7 (0x60 + (n - 0x20))
  else if n < 0x38 then BitVec.ofNat 7 (0x70 + (n - 0x30))
  else if n < 0x3E then BitVec.ofNat 7 (0x78 + (n - 0x38))
  else if n = 0x3E then 0x7E else 0x7F

/-- A field of a word replaced. -/
def setFld (w : Word) (pos len v : Nat) : Word :=
  BitVec.ofNat 32 (w.toNat - ((w.toNat / 2 ^ pos) % 2 ^ len) * 2 ^ pos + v * 2 ^ pos)

/-- The code that takes the place of a parameter mark; a literal parameter leaves its mark standing, and
reads the literal of the MACRO's prefix (R119, R120). -/
def MacroRun.substCode (m : MacroRun) (c : BitVec 7) : BitVec 7 :=
  let p := if c = 0x5D then m.p0 else if c = 0x5E then m.p1 else m.p2
  if p = 0x7F then c else p

/-- An operation word with its parameters substituted. -/
def MacroRun.subst (m : MacroRun) (w : Word) : Option Instr :=
  match decodeRaw w with
  | none => none
  | some j =>
    decodeRaw ((operands j true).foldl
      (fun w f => if isMark f.code then setFld w f.pos 7 (m.substCode f.code).toNat else w) w)

/-- The kinds of operation words a microprogram may hold (R119). -/
def macroAllowed (j : Instr) : Bool :=
  let m := majorOf j
  match j with
  | .imm _ | .src3 _ | .guard _ _ _ | .rnd _ => true
  | .ldh _ _ _ _ | .sth _ _ _ _ => true
  | _ => (decide (0x08 ≤ m) && decide (m ≤ 0x10)) || (decide (0x14 ≤ m) && decide (m ≤ 0x22)) || m == 0x24 || m == 0x25

/-- The operation word a running MACRO executes next. -/
def MacroRun.fetch (m : MacroRun) : Fetched :=
  match m.subst (nth m.ops m.step 0) with
  | some j => if macroAllowed j then .instr j else .illegal
  | none => .illegal

/-- The next instruction of a gang: the operation word of the MACRO it runs, else the word at its program
counter. A team that ends issues nothing more (R370). -/
def fetchGang (s : State) (uid gid gang : Nat) : Fetched × State :=
  match issueOf s uid gid gang true with
  | none => (.locked, s)
  | some c => match c.mac with
    | some m => (m.fetch, s)
    | none => if c.team.ending.isSome ∨ c.group.ended then (.locked, s) else fetchWord s c.team.core c.grid c.pc

/-- The next instruction of a team's Trowel, where it runs; one whose team ends completes the TREV it has issued and issues
nothing more (R370). Past the last word of the Trowel
stream there is none (R271). -/
def fetchTrowel (s : State) (uid : Nat) : Fetched × State :=
  match s.team? uid with
  | none => (.locked, s)
  | some t => match s.grid? t.grid, t.trowel with
    | some gr, some w =>
      if w.status ≠ .running ∨ (t.ending.isSome ∧ w.tape.mode ≠ .reversing) then (.locked, s)
      else if w.pc.toNat < gr.tbase ∨ gr.tbase + gr.tlen < w.pc.toNat + 4 then (.past, s)
      else fetchWord s t.core gr w.pc
    | _, _ => (.locked, s)

/-- A gang that has fetched a word that is no instruction traps ILLEGAL_INSTR before any effect (R123). -/
def gangIllegal (s : State) (uid gid gang : Nat) : State :=
  match issueOf s uid gid gang false with
  | some c => c.trapWith { code := cIllegal } s
  | none => s

/-! ## Placing a word where the next step fetches it -/

/-- The launch record of a grid of one team of one group, with no Trowel entry, no handler and nothing
allocated; code at virtual address 0. -/
def probeRecord : BitVec 2048 :=
  BitVec.ofNat 2048 (0xFFFFFFFF * 2 ^ (8 * 0x0C) + 0xFFFFFFFF * 2 ^ (8 * 0x10) + 1 * 2 ^ (8 * 0x18) + 1 * 2 ^ (8 * 0x1C) +
    1 * 2 ^ (8 * 0x20) + 1 * 2 ^ (8 * 0x24) + 1 * 2 ^ (8 * 0x25) + 1 * 2 ^ (8 * 0x26) + (96 * 256 + 1) * 2 ^ (8 * 0x3C))

/-- The running grid of that record, with one lease of 64 KiB with R and X at virtual address 0. -/
def probeGrid : Grid :=
  { uid := 0, queue := 0, asid := 0, root := 0, record := probeRecord, leases := [⟨0, 65536, true, false, true⟩],
    segs := [], goff := 0, glen := 65536, toff := 0, tlen := 65536, macros := [], stage := .running, headSeq := 0, nextTeam := 1 }

/-- A group at its start: eight slices of one gang, every pair of one member slot active (R129, R130). -/
def probeGroup : Group :=
  { gid := 0, role := 1, regbud := 96, vbud := 96, sibling := 0, e := 1,
    xbind := [(0, 0), (1, 1), (2, 2), (3, 3)], slices := List.replicate 8 { active := 0xF } }

/-- The team of that group, with a Trowel at virtual address 0. -/
def probeTeam : Team := { uid := 0, grid := 0, teamid := 0, core := 0, groups := [probeGroup], trowel := some {} }

/-- Whether a word belongs to the Trowel stream (majors 0x34 to 0x3A, R123). -/
def trowelWord (w : Nat) : Bool := let m := (w / 2 ^ 26) % 64; decide (0x34 ≤ m) && decide (m ≤ 0x3A)

/-- A state whose next step fetches and runs the word `w`: a team is resident on core 0 with its program
counter at virtual address 0, which the core's TLB maps to physical address 0, where the word stands; the
agenda names the team's gang, or its Trowel for a word of the Trowel stream. -/
def placeWord (s : State) (w : Nat) : State :=
  let tlb : TlbEntry := { asid := 0, shift := 16, vpn := 0, frame := 0, r := true, w := false, x := true, d := false, leaf := 0 }
  { s with
    level := 3, base := BitVec.allOnes 64, hbmUp := BitVec.allOnes 12
    mem := bytesSet s.mem 0 (bytesOfWord (BitVec.ofNat 32 w))
    grids := [probeGrid], teams := [probeTeam]
    cores := mapSet s.cores 0 { s.core 0 with tlb := [tlb] }
    agenda := [if trowelWord w then .trowel 0 else .gang 0 0 0] }

end Sys2Proof.Machine
end

