-- ==== Sys2Proof/Machine/Sync.lean ====
section
/-! DEFINITION. Barriers: their state, arrivals, targets and releases (R320 to R324), and BAR.ARV, BAR.WT,
BAR.SYNC, BAR.SYNCM and SNAP (R255 to R258, R325, R326). -/

namespace Sys2Proof.Machine

/-! ## Barrier state -/

/-- A barrier of a team. -/
def Team.barrier (t : Team) (b : Nat) : Barrier := (mapGet t.barriers b).getD {}
/-- An arrival record of a group. -/
def Group.arrival (g : Group) (b : Nat) : ArrRec := (mapGet g.arrivals b).getD {}
/-- An arrival record of a Trowel. -/
def Trowel.arrival (w : Trowel) (b : Nat) : ArrRec := (mapGet w.arrivals b).getD {}

/-- An arrival with count `c` on a barrier (R321); `none` where it raises BAR_COUNT. An engine's count is 0. -/
def Barrier.arrive (x : Barrier) (c : Nat) : Option Barrier :=
  if c ≠ 0 ∧ x.expect ≠ 0 ∧ c ≠ x.expect.toNat then none
  else
    let e := if c ≠ 0 then c else x.expect.toNat
    let n := x.arrived.toNat + 1
    some (if e ≠ 0 ∧ e ≤ n then { x with phase := x.phase + 1, expect := 0, arrived := BitVec.ofNat 16 (n - e) }
      else { x with expect := BitVec.ofNat 13 e, arrived := BitVec.ofNat 16 n })

/-- The place of an arrival among those of one clock (R322): the Trowel, then the engines by slot (0 to 15 a Hod slot, 16 the
Hod channel, 17 to 20 a Bead slot), then groups by GROUPID. -/
inductive Arriver where
  | trowel
  | engine (slot : Nat)
  | group (gid : Nat)
  deriving DecidableEq, Repr

/-- The rank of an arriver. -/
def Arriver.rank (a : Arriver) : Nat :=
  match a with
  | .trowel => 0
  | .engine k => 1 + k
  | .group g => 100 + g

/-- Whether an arrival comes too late in a clock: one that goes after it has been applied, so that it is an arrival of a
later clock (R322). -/
def Barrier.late (x : Barrier) (a : Arriver) (clk : Nat) : Bool :=
  match x.last with
  | some (k, r) => decide (k = clk) && decide (a.rank < r)
  | none => false

/-- A barrier that records its last arrival. -/
def Barrier.mark (x : Barrier) (a : Arriver) (clk : Nat) : Barrier := { x with last := some (clk, a.rank) }

/-- Whether the phase that a waiter waits for has been released (R323). -/
def Barrier.passed (x : Barrier) (target : BitVec 32) : Bool :=
  decide (1 ≤ (x.phase - target).toNat) && decide ((x.phase - target).toNat < 2 ^ 31)

/-- The target of a waiter (R323). -/
def targetOf (r : ArrRec) (x : Barrier) : BitVec 32 := if r.arvd then r.aphase else x.phase

/-- An arrival by a group; `none` where it raises BAR_COUNT. -/
def Team.groupArrives (t : Team) (gid b c clk : Nat) : Option Team :=
  let x := t.barrier b
  (x.arrive c).map fun y =>
    ({ t with barriers := mapSet t.barriers b (y.mark (.group gid) clk) }).updGroup gid fun g =>
      { g with arrivals := mapSet g.arrivals b { arvd := true, aphase := x.phase } }

/-! ## Release -/

/-- Whether a slice waits with SNAP on a barrier whose phase has been released. -/
def Slice.snapWaits (t : Team) (b : Nat) (x : Slice) : Bool :=
  match x.wait with
  | .barrier k target .snap => decide (k = b) && (t.barrier b).passed target
  | _ => false

/-- Whether SNAP holds the released waiters of a barrier (R258). -/
def Team.snapHolds (t : Team) (b : Nat) : Bool :=
  t.groups.any fun g => g.slices.any (Slice.snapWaits t b) ||
    ((g.saved.map fun v => v.slices.any (Slice.snapWaits t b)).getD false)

/-- Whether a waiter on a barrier is released; `snap` names the barrier whose SNAP releases now. -/
def Team.releases (t : Team) (snap : Option Nat) (b : Nat) (target : BitVec 32) : Bool :=
  (t.barrier b).passed target && (!t.snapHolds b || decide (snap = some b))

/-- Whether a slice waits at a barrier and is released. -/
def Slice.released (t : Team) (snap : Option Nat) (x : Slice) : Bool :=
  match x.wait with
  | .barrier b target _ => t.releases snap b target
  | _ => false

/-- A slice saved at SNAP whose barrier's SNAP releases now: it goes on as any released waiter once it is restored (R258,
R367). -/
def Slice.unsnap (t : Team) (b : Nat) (x : Slice) : Slice :=
  match x.wait with
  | .barrier k target .snap => if x.snapWaits t b then { x with wait := .barrier k target .wt } else x
  | _ => x

/-- A group whose saved slices no longer wait for a SNAP that releases. -/
def Group.unsnap (t : Team) (snap : Option Nat) (g : Group) : Group :=
  match snap with
  | some b => { g with saved := g.saved.map fun v => { v with slices := v.slices.map (Slice.unsnap t b) } }
  | none => g

/-- The released waiters of a team go on after their instruction, the slices of a group with equal addresses and
stacks as one gang (R138, R323). -/
def Team.settle (gr : Grid) (snap : Option Nat) (t : Team) : Team :=
  let t1 := t.groups.foldl (fun t' g =>
    let sls := (List.range g.slices.length).filter fun sl => (g.slice sl).released t snap
    if sls = [] then t'
    else formGangs gr g.gid sls (t'.updGroup g.gid fun g => g.updSlices sls fun x => x.advance x.step)) t
  { t1 with groups := t1.groups.map (Group.unsnap t snap), trowel := t1.trowel.map fun w => match w.status with
      | .waiting b target => if t.releases snap b target then { w with status := .running, pc := w.pc + 4 } else w
      | _ => w }

/-- The released waiters of a team of the state go on. -/
def settleWaits (uid : Nat) (snap : Option Nat) (s : State) : State :=
  match (s.team? uid).bind fun t => s.grid? t.grid with
  | some gr => s.updTeam uid (Team.settle gr snap)
  | none => s

/-- Whether an engine's arrival on a barrier of a team has to wait for a later clock (R322). -/
def engineLate (uid b slot : Nat) (s : State) : Bool :=
  match s.team? uid with
  | some t => (t.barrier b).late (.engine slot) s.clk
  | none => false

/-- An engine arrival on a barrier of a team, with count 0 (R321, R322); `none` where it would take ARRIVED past
65,535 and is discarded. -/
def engineArrives (uid b slot : Nat) (s : State) : Option State :=
  match s.team? uid with
  | none => some s
  | some t =>
    if (t.barrier b).arrived = 0xFFFF then none
    else match (t.barrier b).arrive 0 with
      | none => some s
      | some y => some (settleWaits uid none (s.updTeam uid fun t =>
          { t with barriers := mapSet t.barriers b (y.mark (.engine slot) s.clk) }))

/-! ## The instructions -/

/-- BAR_RANGE for a barrier at or above CTL.NBAR (R255). -/
def Issue.barCheck (c : Issue) (b : BitVec 4) : Option Trap :=
  if c.grid.ctl 8 5 ≤ b.toNat then some { code := cBarRange } else none

/-- A count's check (R255). -/
def countOk (n : Nat) : Bool := decide (1 ≤ n) && decide (n ≤ 4096)

/-- BAR.ARV (R256): one arrival for each issue. -/
def execBarArv (n : BitVec 4) (a : BitVec 7) (s : State) : Host.Outcome State Fault Refusal :=
  groupInstr (.barArv n a) s fun c t =>
    let k := (c.groupValue a).toNat
    if c.live.isEmpty then .ok t
    else match c.barCheck n with
      | some x => .trap x
      | none =>
        if !countOk k then .trap { code := cBarRange }
        else if (c.team.barrier n.toNat).late (.group c.gid) t.clk then .again
        else match c.team.groupArrives c.gid n.toNat k t.clk with
          | none => .trap { code := cBarCount }
          | some tm => .placed (settleWaits c.uid none (c.finish (t.updTeam c.uid fun _ => tm)))

/-- The gathered slices of a group wait at a barrier for their target (R323); those already released go on. -/
def Issue.waitAt (c : Issue) (b : Nat) (form : BarForm) (s : State) : State :=
  match (s.team? c.uid).bind fun t => (t.group? c.gid).map fun g => targetOf (g.arrival b) (t.barrier b) with
  | none => s
  | some target =>
    wakeSiblings c.uid c.gid (settleWaits c.uid none (s.updGroup c.uid c.gid fun g =>
      (((g.assembled c.slices).updSlices c.slices fun x =>
        { x.unbind with stall := [], pc := c.pc, step := c.step, wait := .barrier b target form }).clearPairs c.slices).commit))

/-- A gathered group arrives once and waits (R256, R325). -/
def Issue.arriveAndWait (c : Issue) (b count : Nat) (form : BarForm) (s : State) : State :=
  if !countOk count then c.trapWith { code := cBarRange } s
  else match s.team? c.uid with
    | none => s
    | some t => match t.groupArrives c.gid b count s.clk with
      | none => c.trapWith { code := cBarCount } s
      | some t1 => c.waitAt b form (s.updTeam c.uid fun _ => t1)

/-- Whether the issuing group's arrival on a barrier has to wait for a later clock (R322). -/
def arrivesLate (s : State) (b : Nat) : Bool :=
  match s.issuer with
  | .gang uid gid _ => match s.team? uid with
    | some t => (t.barrier b).late (.group gid) s.clk
    | none => false
  | _ => false

/-- A barrier wait of all participants (R325). -/
def barrierWide (j : Instr) (b : BitVec 4) (s : State) (act : Issue → State → State) : Host.Outcome State Fault Refusal :=
  gangWideWith j cBarUnreachable s (fun c => c.barCheck b) (fun _ => none) act

/-- BAR.WT (R256). -/
def execBarWt (n : BitVec 4) (s : State) : Host.Outcome State Fault Refusal :=
  barrierWide (.barWt n) n s fun k t => k.waitAt n.toNat .wt t

/-- BAR.SYNC (R256). -/
def execBarSync (n : BitVec 4) (a : BitVec 7) (s : State) : Host.Outcome State Fault Refusal :=
  if arrivesLate s n.toNat then .next s else
  barrierWide (.barSync n a) n s fun k t => k.arriveAndWait n.toNat (k.groupValue a).toNat .sync t

/-- The one mask that every live pair presents, not 0 and with the pair's own lane in it (R257). -/
def Issue.syncMask (c : Issue) (a : BitVec 7) : Option Word :=
  let m := c.groupValue a
  if m ≠ 0 ∧ (c.live.all fun p => decide (c.src a p = m) && m.getLsbD p.2) then some m else none

/-- BAR.SYNCM (R257, R326). -/
def execBarSyncm (n : BitVec 4) (a b : BitVec 7) (s : State) : Host.Outcome State Fault Refusal :=
  if arrivesLate s n.toNat then .next s else
  gangWideWith (.barSyncm n a b) cBarUnreachable s
    (fun c => (c.barCheck n).or (if (c.syncMask a).isNone then some { code := cSyncMask } else none))
    (fun c => c.syncMask a)
    fun k t =>
      if (k.syncMask a).isNone then k.trapWith { code := cSyncMask } t
      else k.arriveAndWait n.toNat (k.groupValue b).toNat .sync t

/-- The count of SNAP: the team's launched groups, and 1 more with a Trowel context (R258). -/
def Team.snapCount (t : Team) : Nat := (t.groups.filter fun g => !g.spawned).length + (if t.trowel.isSome then 1 else 0)

/-- SNAP (R258): it arrives and waits; SNAP_RELEASE lets its waiters go. -/
def execSnap (n : BitVec 4) (s : State) : Host.Outcome State Fault Refusal :=
  if arrivesLate s n.toNat then .next s else
  barrierWide (.snap n) n s fun k t => k.arriveAndWait n.toNat k.team.snapCount .snap t

end Sys2Proof.Machine
end

