-- ==== Sys2Proof/Machine/Control.lean ====
section
/-! DEFINITION. Control and system instructions of majors 0x00 to 0x07, the hint words, and MACRO (R106 to
R122, R130 to R134, R138, R154 to R164). -/

namespace Sys2Proof.Machine

/-! ## Placing slices -/

/-- Whether every issuing slice has room for the pushes `n` gives it (R134). -/
def Issue.room (c : Issue) (n : Nat → Nat) : Bool :=
  c.slices.all fun sl => decide ((c.group.slice sl).depth + n sl ≤ c.group.stackLimit)

/-- Entries pushed on a slice's stack, the first of the list first. -/
def pushEntries (gr : Grid) (gid sl : Nat) (es : List StackEntry) (t : Team) : Team :=
  es.foldl (fun t x => pushEntry gr gid sl x t) t

/-- Every issuing slice moved by `f`, in ascending order; then the slices form gangs by address and stack
(R130). -/
def Issue.moveSlices (c : Issue) (f : Nat → Team → Team) (s : State) : State :=
  s.updTeam c.uid fun t => formGangs c.grid c.gid c.slices (c.slices.foldl (fun t sl => f sl t) t)

/-- The mask of the pairs of a slice among a list. -/
def sliceMask (ps : List (Nat × Nat)) (sl : Nat) : BitVec 64 :=
  maskOf 64 ((ps.filter fun p => decide (p.2 / 4 = sl)).map pairBit)

/-- A target address: sequential where it is the next word (R112). -/
def Slice.jump (st : Nat) (target : VAddr) (x : Slice) : Slice :=
  if target = x.pc + 4 then x.advance st else x.goTo st target

/-- The target of an F-B word: its address plus 4 × off22 (R99). -/
def branchTarget (pc : VAddr) (o : BitVec 22) : VAddr := pc + (o.signExtend 57 <<< 2)

/-- A conditional branch of every slice over its live pairs (R130): `taken` lists the pairs whose condition
holds. -/
def Issue.branch (c : Issue) (taken : List (Nat × Nat)) (target : VAddr) (s : State) : Res :=
  let tm (sl : Nat) := sliceMask taken sl
  let divides (sl : Nat) : Bool := tm sl != 0 && tm sl != (c.group.slice sl).active
  if !c.room (fun sl => if divides sl then 1 else 0) then .trap { code := cRstackOvf }
  else .placed (c.moveSlices (fun sl t =>
    if tm sl = 0 then t.updGroup c.gid fun g => g.updSlice sl (Slice.advance c.step)
    else if divides sl then
      (pushEntry c.grid c.gid sl { mask := tm sl, deferred := true, addr := target } t).updGroup c.gid fun g =>
        g.updSlice sl fun x => { x.advance c.step with active := x.active &&& ~~~ tm sl }
    else t.updGroup c.gid fun g => g.updSlice sl (Slice.jump c.step target)) s)

/-- The live pairs for which a cond field holds: NEG in bit 3, the predicate in bits [2:0] (R99). -/
def Issue.condPairs (c : Issue) (cond : BitVec 4) : List (Nat × Nat) :=
  c.live.filter fun p => c.pred (cond.extractLsb' 3 1) (cond.extractLsb' 0 3) p

/-! ## Branches and calls -/

/-- BRA (R154). -/
def execBra (c : BitVec 4) (o : BitVec 22) (s : State) : Host.Outcome State Fault Refusal :=
  groupInstr (.bra c o) s fun k t => k.branch (k.condPairs c) (branchTarget k.pc o) t

/-- The link of CALL: s6:s7 of the member contexts of the taking pairs (R155). -/
def linkWrites (taken : List (Nat × Nat)) (link : DWord) : List (Loc × Word) :=
  keepFirst (taken.flatMap fun p => [(.s 6 p.1, half link 0), (.s 7 p.1, half link 1)]) []

/-- CALL (R155). -/
def execCall (c : BitVec 4) (o : BitVec 22) (s : State) : Host.Outcome State Fault Refusal :=
  groupInstr (.call c o) s fun k t =>
    let taken := k.condPairs c
    k.branch taken (branchTarget k.pc o) (k.write (latency (.call c o)) (linkWrites taken ((k.pc + 4).setWidth 64)) t)

/-- RPUSH (R156): every issuing slice pushes the region entry. -/
def execRpush (o : BitVec 22) (s : State) : Host.Outcome State Fault Refusal :=
  groupInstr (.rpush o) s fun c t =>
    if !c.room (fun _ => 1) then .trap { code := cRstackOvf }
    else .ok (t.updTeam c.uid fun tm => c.slices.foldl (fun tm sl =>
      pushEntry c.grid c.gid sl
        { mask := (c.group.slice sl).active, deferred := false, addr := branchTarget c.pc o } tm) tm)

/-- Whether a target lies in the group stream, word-aligned (R157). -/
def targetOk (gr : Grid) (t : DWord) : Bool :=
  t.extractLsb' 57 7 == 0 && t.extractLsb' 0 2 == 0 && decide (gr.gbase ≤ t.toNat) && decide (t.toNat < gr.gbase + gr.glen)

/-- The distinct targets of a slice's live pairs, ascending. -/
def Issue.targets (c : Issue) (a : BitVec 7) (sl : Nat) : List Nat :=
  (c.live.filter fun p => decide (p.2 / 4 = sl)).foldl (fun l p => natInsert l (c.src64 a p).toNat) []

/-- `bri` of R157 for one slice: every target but the lowest is deferred, in descending order. -/
def Issue.briSlice (c : Issue) (a : BitVec 7) (before : Nat → List StackEntry) (sl : Nat) (t : Team) : Team :=
  let mask (x : Nat) := sliceMask (c.live.filter fun p => decide ((c.src64 a p).toNat = x)) sl
  match c.targets a sl with
  | [] => t.updGroup c.gid fun g => g.updSlice sl (Slice.advance c.step)
  | low :: others =>
    let es := before sl ++ others.reverse.map fun x => { mask := mask x, deferred := true, addr := BitVec.ofNat 57 x }
    (pushEntries c.grid c.gid sl es t).updGroup c.gid fun g =>
      g.updSlice sl fun x => { x.jump c.step (BitVec.ofNat 57 low) with active := mask low }

/-- BRI and RET (R157). -/
def Issue.bri (c : Issue) (a : BitVec 7) (s : State) : Res :=
  if c.live.any fun p => !targetOk c.grid (c.src64 a p) then .trap { code := cBadTarget }
  else if !c.room (fun sl => (c.targets a sl).length - 1) then .trap { code := cRstackOvf }
  else .placed (c.moveSlices (c.briSlice a fun _ => []) s)

/-- BRI (R157). -/
def execBri (a : BitVec 7) (s : State) : Host.Outcome State Fault Refusal :=
  groupInstr (.bri a) s fun c t => c.bri a t

/-- RET: the effect of BRI (R157). -/
def execRet (a : BitVec 7) (s : State) : Host.Outcome State Fault Refusal :=
  groupInstr (.ret a) s fun c t => c.bri a t

/-- A word of a grid's code, read for a core without effect; `none` where it cannot be read. -/
def codeWord (s : State) (core : Nat) (gr : Grid) (va : Nat) : Option Word :=
  if !leaseOk gr none .x va 4 then none
  else match translateAll s core gr.asid gr.root false (accessBytes gr none va 4) with
    | .ok pas s1 => some (BitVec.ofNat 32 (natOfBytes (l2Reads s1 pas)))
    | _ => none

/-- VBUD that the function header word before a target declares; 96 where there is no header (R62). -/
def headerVbud (s : State) (core : Nat) (gr : Grid) (target : Nat) : Nat :=
  match codeWord s core gr (target - 4) with
  | some w =>
    let v := (fld w 19 7).toNat
    if fld w 26 6 = 0x3E ∧ v ≤ 96 ∧ fld w 0 19 = 0 then v else 96
  | none => 96

/-- CALLI (R158): its checks in their order, then the link, the region entry and the branch. -/
def execCalli (d a : BitVec 7) (s : State) : Host.Outcome State Fault Refusal :=
  groupInstr (.calli d a) s fun c t =>
    let after := (c.pc + 4).toNat
    if c.live.isEmpty then .ok t
    else if (codeWord t c.team.core c.grid after).bind decodeRaw ≠ some .join then .trap { code := cIllegal }
    else if c.live.any fun p => !targetOk c.grid (c.src64 a p) then .trap { code := cBadTarget }
    else if c.live.any fun p => decide (c.group.regbud < headerVbud t c.team.core c.grid (c.src64 a p).toNat) then
      .trap { code := cRegBudget }
    else if !c.room (fun sl => (c.targets a sl).length) then .trap { code := cRstackOvf }
    else
      let region (sl : Nat) : List StackEntry :=
        [{ mask := (c.group.slice sl).active, deferred := false, addr := c.pc + 4 }]
      .placed (c.moveSlices (c.briSlice a region) (c.put64 none d (fun _ => (c.pc + 4).setWidth 64) t))

/-! ## REGANG, EXIT, traps -/

/-- Whether a slice waits at REGANG at an address, or has finished. -/
def Slice.atRegang (a : VAddr) (x : Slice) : Bool :=
  match x.wait with
  | .finished => true
  | .regang => decide (x.pc = a)
  | _ => false

/-- Whether a slice makes those waiting at REGANG trap: at another REGANG, parked, or at a barrier (R138). -/
def Slice.blocksRegang (a : VAddr) (x : Slice) : Bool :=
  match x.wait with
  | .regang => decide (x.pc ≠ a)
  | .parked | .barrier _ _ _ => true
  | _ => false

/-- REGANG (R138, R160): its slices wait until every live slice is there; then they form one gang. -/
def execRegang (s : State) : Host.Outcome State Fault Refusal :=
  groupInstr .regang s fun c t =>
    let t1 := t.updGroup c.uid c.gid fun g => g.updSlices c.slices fun x => { x with wait := .regang }
    match (t1.team? c.uid).bind fun tm => (tm.group? c.gid).map fun g => (tm, g) with
    | none => .again
    | some (tm, g) =>
      if g.slices.any (Slice.blocksRegang c.pc) then .trap { code := cGangUnreachable }
      else if g.slices.all (Slice.atRegang c.pc) then
        let sls := (List.range g.slices.length).filter fun sl => !(g.slice sl).finished
        let shape (sl : Nat) := stackShape c.grid tm g sl
        if sls.any fun sl => decide (shape sl ≠ shape (sls.headD 0)) then .trap { code := cRstackFault }
        else .placed (t1.updGroup c.uid c.gid fun g =>
          ((g.updSlices sls fun x =>
            { (x.advance g.maxStep).clearWindows with gang := sls.headD 0 }).clearPairs sls).drain 0xFF)
      else .placed t1

/-- A group that has ended: its held causes go to the team's live group of lowest GROUPID (R383). -/
def endGroup (uid gid : Nat) (s : State) : State :=
  match (s.team? uid).bind fun t => t.group? gid with
  | none => s
  | some g =>
    let s1 := s.updGroup uid gid fun g => { g with ended := true, held := [], resv := [], mac := [] }
    wakeSiblings uid gid (g.held.foldl (fun s h => deliver s uid gid h) s1)

/-- EXIT in the handler: every pair of the group ends, privileged state is left, and the cause is kept for
the team's end, with the clock it was raised at (R369, R387). -/
def handlerExit (uid gid : Nat) (s : State) : State :=
  endGroup uid gid (s.updGroup uid gid fun g =>
    { g with
      slices := g.slices.map fun x => { x with active := 0, exited := x.exited ||| allPairs g.e, stack := [], spilled := 0, park := none, wait := .finished }
      privileged := false
      endCause := g.saved.map fun v => v.cause
      endClk := (g.saved.map fun v => v.clk).getD s.clk
      saved := none })

/-- The live pairs of the issuing slices ended and the emptied slices unwound (R129, R133, R161); `none` when
an entry that is refilled on the way traps RSTACK_FAULT. -/
def Issue.exitPairs (c : Issue) (t : Team) : Option Team :=
  let t1 := t.updGroup c.gid fun g =>
    { (g.updSlices c.slices fun x => { x with exited := x.exited ||| x.active, active := 0 }) with
      resv := g.resv.filter fun r => !(c.live.any fun p => decide (r.1 = 32 * p.1 + p.2)) }
  c.slices.foldl (fun o sl => o.bind fun t => unwind c.grid c.gid sl c.step ((c.group.slice sl).depth) t) (some t1)

/-- EXIT (R161, R369). A slice that is gathering fails to (R137). -/
def execExit (s : State) : Host.Outcome State Fault Refusal :=
  groupInstr .exit s fun c t =>
    match c.slices.find? fun sl => (c.group.slice sl).park.isSome with
    | some sl => .placed (c.parkedTrap sl t)
    | none =>
      if c.group.privileged then .placed (handlerExit c.uid c.gid t)
      else match c.exitPairs c.team with
        | none => .trap { code := cRstackFault }
        | some tm =>
          let t1 := t.updTeam c.uid fun _ => (formGangs c.grid c.gid c.slices tm).updGroup c.gid c.group.nudgeIf
          let done := ((tm.group? c.gid).map fun g => g.slices.all Slice.finished).getD false
          .placed (if done then endGroup c.uid c.gid t1 else t1)

/-- BRK (R162). -/
def execBrk (s : State) : Host.Outcome State Fault Refusal :=
  groupInstr .brk s fun c t => if c.live.isEmpty then .ok t else .trap { code := cBreakpoint }

/-- NOP (R160). -/
def execNop (s : State) : Host.Outcome State Fault Refusal := groupInstr .nop s fun _ t => .ok t

/-- TRAP (R162). -/
def execTrap (n : BitVec 12) (s : State) : Host.Outcome State Fault Refusal :=
  groupInstr (.trap n) s fun c t => if c.live.isEmpty then .ok t else .trap { code := cSoftTrap, info := n.setWidth 32 }

/-- HRET (R163, R368): it waits until the handler's stores are performed at .sys, then returns. -/
def execHret (s : State) : Host.Outcome State Fault Refusal :=
  groupInstr .hret s fun c t =>
    if c.live.isEmpty then .ok t else .placed (settleWaits c.uid none (trapReturn (writeBackAll t c.team.core) c.uid c.gid))

/-! ## Special registers -/

/-- The groups of a team, spawned groups included (TEAMGRP): the launched ones, and the spawned ones that run. -/
def Team.groupCount (t : Team) : Nat := (t.groups.filter fun g => !g.spawned || !g.ended).length

/-- The partner of a core in the other die (R16). -/
def partner (core : Nat) : Nat := if core % 32 < 16 then core + 16 else core - 16

/-- The value of a special register for a pair (Table 5.3). -/
def Issue.special (c : Issue) (s : State) (n : Nat) (p : Nat × Nat) : DWord :=
  let g := c.group
  let f (v : Nat) : DWord := BitVec.ofNat 64 v
  let gx := c.grid.field 0x18 4
  let gy := c.grid.field 0x1C 4
  if n = 0x000 then f p.2
  else if n = 0x001 then f (p.2 / 4)
  else if n = 0x002 then f c.gid
  else if n = 0x003 then f c.team.teamid
  else if n = 0x004 then f (c.team.teamid % gx)
  else if n = 0x005 then f (c.team.teamid / gx % gy)
  else if n = 0x006 then f (c.team.teamid / gx / gy)
  else if n = 0x007 then f c.team.groupCount
  else if n = 0x008 then f (g.memberId p.1)
  else if n = 0x009 then f g.e
  else if n = 0x00A then f g.sibling
  else if n = 0x00B then g.role.setWidth 64
  else if n = 0x00C then f g.regbud
  else if n = 0x00D then (maskOf 32 (c.lanes p.1)).setWidth 64
  else if n = 0x00E then (slotMask c.live).setWidth 64
  else if n = 0x00F then f (g.slice (p.2 / 4)).depth
  else if n = 0x010 then (c.fpm p).setWidth 64
  else if n = 0x011 then f (c.grid.field 0x34 4)
  else if n = 0x012 then f (c.grid.field 0x14 4)
  else if n = 0x013 then f (16 - (s.core c.team.core).fifo.length)
  else if n = 0x014 then f s.clk
  else if 0x018 ≤ n ∧ n ≤ 0x01B then nth g.trapctx (n - 0x018) 0
  else
    let k := (n - 0x100) / 2
    match c.grid.leases[k]? with
    | none => 0
    | some l =>
      if n % 2 = 0 then f l.base
      else f (l.len + (if l.r then 2 ^ 40 else 0) + (if l.w then 2 ^ 41 else 0) + (if l.x then 2 ^ 42 else 0))

/-- MFS (R105, R164). -/
def execMfs (d : BitVec 7) (n : BitVec 12) (s : State) : Host.Outcome State Fault Refusal :=
  groupInstr (.mfs d n) s fun c t =>
    .ok (c.write (latency (.mfs d n))
      (destWrites c.live d (specialRegs n) fun p j => half (c.special t n.toNat p) j) t)

/-- MTS: FPM of each live member context (R42, R164). -/
def execMts (a : BitVec 7) (n : BitVec 12) (s : State) : Host.Outcome State Fault Refusal :=
  groupInstr (.mts a n) s fun c t =>
    if c.slots.any fun e => !fpmStorable (c.memberValue a e) then .trap { code := cIllegal }
    else .ok (c.write (latency (.mts a n)) (c.slots.map fun e => (.fpm e, fpmStored (c.memberValue a e))) t)

/-! ## Macros -/

/-- A macro image's operation words: the words after the header, as many as its count (R61). -/
def imageOps (bs : List Byte) : List Word :=
  let n := natOfBytes (bs.take 4) / 256 % 64
  (List.range n).map fun k => BitVec.ofNat 32 (natOfBytes ((bs.drop (4 + 4 * k)).take 4))

/-- Whether a macro image is well formed (R122). -/
def imageOk (bs : List Byte) : Bool :=
  let w := natOfBytes (bs.take 4)
  let n := w / 256 % 64
  decide (w / 2 ^ 14 = 0) && decide (1 ≤ n) && decide (n ≤ 32) && (bs.drop (4 + 4 * n)).all fun b => b == 0

/-- The bytes of a path-V load of shared addresses on a core, with the state after it. -/
inductive Loaded where
  | ok (bs : List Byte) (s : State)
  | locked
  | lost

/-- A path-V load of the bytes of one access (R237). -/
def loadBytes (s : State) (core : Nat) (gr : Grid) (member : Option Nat) (va w : Nat) : Loaded :=
  match translateAll s core gr.asid gr.root false (accessBytes gr member va w) with
  | .ok pas s1 => let (bs, s2) := coreLoads s1 core pas; .ok bs s2
  | .locked => .locked
  | .lost => .lost

/-- The address a group's access with the MEMBERID of its lead pair is made at (R69). -/
def mappedAt (gr : Grid) (member : Option Nat) (va : Nat) : Nat := (member.map fun m => mapAlias gr.segs m va).getD va

/-- MSTLD (R122): once for the group; the index of the image is bound for the whole team, to the address the image was
read at (R69). -/
def execMstld (a : BitVec 7) (s : State) : Host.Outcome State Fault Refusal :=
  groupInstr (.mstld a) s fun c t =>
    if c.live.isEmpty then .ok t
    else
      let va := (c.groupValue64 a).toNat
      let member := (c.lead).map fun p => c.group.memberId p.1
      if va % 4 ≠ 0 then .trap { code := cIllegal }
      else if !leaseOk c.grid member .r va 132 then .endTeam cLeaseViolation
      else match loadBytes t c.team.core c.grid member va 132 with
        | .locked => .again
        | .lost => .endTeam cXlatLost
        | .ok bs t1 =>
          if !imageOk bs then .trap { code := cMacroImage }
          else .ok (t1.updTeam c.uid fun tm =>
            { tm with macros := mapSet tm.macros (natOfBytes (bs.take 1)) (BitVec.ofNat 57 (mappedAt c.grid member va)) })

/-- The bytes of a bound macro image as a MACRO reads them: the macro store refills from the image, which is no load of the
group (R118, R148). -/
def imageBytes (s : State) (core : Nat) (gr : Grid) (va : Nat) : Loaded :=
  match translateAll s core gr.asid gr.root false (accessBytes gr none va 132) with
  | .ok pas s1 => .ok (pas.map (coreView s1 core)) s1
  | .locked => .locked
  | .lost => .lost

/-- The MACRO that a gang starts: at its first step, or where a trap left it, with the hints, the window and the live pairs
that its steps had (R121). -/
def Issue.startMacro (c : Issue) (ops : List Word) (p0 p1 p2 : BitVec 6) : MacroRun :=
  let lead := c.group.slice (c.slices.headD 0)
  match lead.redo with
  | some m => { m with slices := maskOf 8 c.slices, ops := ops, p0 := paramCode p0, p1 := paramCode p1, p2 := paramCode p2, lit := lead.imm,
                       issueStep := c.step, live := m.live.filter fun p => c.slices.contains (p.2 / 4) }
  | none => { slices := maskOf 8 c.slices, ops := ops, step := 0, p0 := paramCode p0, p1 := paramCode p1, p2 := paramCode p2,
              lit := lead.imm, issueStep := c.step, live := c.live }

/-- MACRO (R118 to R121): the bound microprogram starts, at the recorded step after a trap in it; its
operation words then issue as the gang's next words. The image is read from memory at each MACRO: of the outcomes R118 allows
where software has changed a bound image the model takes the new words (DESIGN CHOICE, assumption 11). -/
def execRunMacro (n : BitVec 8) (a b p : BitVec 6) (s : State) : Host.Outcome State Fault Refusal :=
  groupInstr (.runMacro n a b p) s fun c t =>
    match mapGet c.team.macros n.toNat with
    | none => .trap { code := cMacroUndef }
    | some va =>
      match imageBytes t c.team.core c.grid va.toNat with
      | .locked => .again
      | .lost => .endTeam cXlatLost
      | .ok bs t1 =>
        let m := c.startMacro (imageOps bs) a b p
        if m.ops.length ≤ m.step then .ok t1
        else .placed (t1.updGroup c.uid c.gid fun g => { g with mac := m :: g.mac })

/-! ## Hint words -/

/-- A hint word of a group: what it does to each issuing slice, and to the MACRO it stands in. A hint word
the map does not list traps ILLEGAL_INSTR, and so does the last step of a microprogram after which IMM, SRC3 or RND words
are pending (R119, R123). -/
def Issue.hint (c : Issue) (j : Instr) (binds : Bool) (onSlice : Slice → Slice) (onMacro : MacroRun → MacroRun)
    (s : State) : State :=
  if !legal j && c.mac.isNone then c.trapWith { code := cIllegal } s
  else match c.mac with
    | some m =>
      if m.ops.length ≤ m.step + 1 ∧ (binds ∨ m.imm ≠ [] ∨ m.src3.isSome ∨ m.rnd.isSome) then c.trapWith { code := cIllegal } s
      else s.updGroup c.uid c.gid fun g => g.macroStep (onMacro m) true
    | none => s.updGroup c.uid c.gid fun g => (g.updSlices c.slices fun x => (onSlice x).advanceHint binds).commit

/-- A Trowel that fetches a group's hint word traps ILLEGAL_INSTR (R123). -/
def trowelNot (s : State) (uid : Nat) : Host.Outcome State Fault Refusal :=
  if hasTrowel s uid then .next (trowelTrap s uid cIllegal 0) else .fault .noIssuingTrowel

/-- The seven counts of a STALL payload (Table 5.4). -/
def stallCounts (v : BitVec 21) : List (BitVec 3) := (List.range 7).map fun k => v.extractLsb' (3 * k) 3

/-- STALL (R112). -/
def execStall (v : BitVec 21) (s : State) : Host.Outcome State Fault Refusal :=
  hintInstr s trowelNot fun c t => c.hint (.stall v) false (fun x => { x with stall := stallCounts v }) id t

/-- IMM for a group (R108, R109); for a Trowel it supplies a literal to the next instruction (R263). -/
def execImm (v : BitVec 22) (s : State) : Host.Outcome State Fault Refusal :=
  hintInstr s
    (fun t uid =>
      if hasTrowel t uid then
        .next (t.updTeam uid fun tm => { tm with trowel := tm.trowel.map fun w =>
          { w with imm := w.imm ++ [v], pfx := some (w.pfx.getD w.pc), pc := w.pc + 4 } })
      else .fault .noIssuingTrowel)
    fun c t => c.hint (.imm v) true (fun x => { x with imm := x.imm ++ [v] }) (fun m => { m with imm := m.imm ++ [v] }) t

/-- SRC3 (R110). -/
def execSrc3 (v : BitVec 7) (s : State) : Host.Outcome State Fault Refusal :=
  hintInstr s trowelNot fun c t =>
    c.hint (.src3 v) true (fun x => { x with src3 := some v, dup := x.dup || x.src3.isSome })
      (fun m => { m with src3 := some v, dup := m.dup || m.src3.isSome }) t

/-- RND (R110). -/
def execRnd (m : BitVec 3) (s : State) : Host.Outcome State Fault Refusal :=
  hintInstr s trowelNot fun c t =>
    c.hint (.rnd m) true (fun x => { x with rnd := some m, dup := x.dup || x.rnd.isSome })
      (fun r => { r with rnd := some m, dup := r.dup || r.rnd.isSome }) t

/-- GUARD (R111). -/
def execGuard (n : BitVec 3) (g : BitVec 1) (p : BitVec 3) (s : State) : Host.Outcome State Fault Refusal :=
  let w : GuardWin := { left := n.toNat + 1, neg := g == 1, pred := p }
  hintInstr s trowelNot fun c t =>
    c.hint (.guard n g p) false (fun x => { x with guardWin := some w }) (fun m => { m with guardWin := some w }) t

/-- The line of a prefetch brought to the core's L1; an address that is not canonical, aligned and leased is
dropped (R113). -/
def prefetchLine (c : Issue) (member : Nat) (va : Nat) (s : State) : State :=
  if va % 64 ≠ 0 ∨ !leaseOk c.grid (some member) .r va 1 then s
  else match translateAll s c.team.core c.grid.asid c.grid.root false (accessBytes c.grid (some member) va 1) with
    | .ok [pa] s1 => coreFill s1 c.team.core pa
    | _ => s

/-- The cells that PREFETCH reads: the base of every active pair (R116). -/
def Issue.prefetchCells (c : Issue) (b : BitVec 7) : List (Nat × Loc) :=
  (pairsWhere c.group.e c.slices fun sl => (c.group.slice sl).active).flatMap fun p =>
    (List.range 2).filterMap fun k => (cellOf b k p.1 p.2).map fun r => (p.2 / 4, r)

/-- PREFETCH (R113): its encoding and its base are checked before any line is brought (R8, R103, R116). -/
def execPrefetch (l : BitVec 2) (b : BitVec 7) (o : BitVec 13) (s : State) : Host.Outcome State Fault Refusal :=
  hintInstr s trowelNot fun c t =>
    let j : Instr := .prefetch l b o
    let pairs := pairsWhere c.group.e c.slices fun sl => (c.group.slice sl).active
    if !legal j then c.hint j false id id t
    else if !pairs.isEmpty ∧ overBudget j none false c.group.regbud then c.trapWith { code := cRegBudget } t
    else if c.grid.ctl 0 1 = 1 ∧ (c.prefetchCells b).any (c.shortRead j) then c.trapWith { code := cStallShort } t
    else
      let t1 := if l = 1 ∨ l = 3 then t else pairs.foldl (fun t p =>
        prefetchLine c (c.group.memberId p.1) ((c.src64 b p + (o.signExtend 64 <<< 6)).toNat) t) t
      c.hint j false id id t1

/-- Why a slice cannot take a JOIN at its address: nothing on its stack, an entry that traps, or a region
whose JOIN stands elsewhere (R133, R134). -/
def Slice.joinFault (x : Slice) : Bool :=
  match x.stack with
  | [] => true
  | e :: _ => e.bad || (!e.deferred && decide (e.addr ≠ x.pc))

/-- `join` of R133 for one slice; `none` when the unwinding meets an entry that traps. -/
def Issue.joinSlice (c : Issue) (sl : Nat) (t : Team) : Option Team :=
  match popEntry c.grid c.gid sl t with
  | none => none
  | some (e, t1) =>
    unwind c.grid c.gid sl c.step ((c.group.slice sl).depth)
      (t1.updGroup c.gid fun g => g.updSlice sl fun x =>
        { (x.goTo c.step (if e.deferred then e.addr else x.pc + 4)) with active := e.mask &&& ~~~ x.exited })

/-- JOIN (R133, R137): with hint words pending it traps ILLEGAL_INSTR (R108); a slice that is gathering and
would leave its region fails to gather. -/
def execJoin (s : State) : Host.Outcome State Fault Refusal :=
  hintInstr s trowelNot fun c t =>
    let sl (k : Nat) := c.group.slice k
    if c.slices.any fun k => (sl k).pfx.isSome then c.trapWith { code := cIllegal } t
    else if c.slices.any fun k => (sl k).joinFault then c.trapWith { code := cRstackFault } t
    else match c.slices.find? fun k => (sl k).park.isSome && !(sl k).topDeferred with
      | some k => c.parkedTrap k t
      | none =>
        match c.slices.foldl (fun o k => o.bind fun tm => c.joinSlice k tm) (some c.team) with
        | none => c.trapWith { code := cRstackFault } t
        | some tm =>
          let t1 := t.updTeam c.uid fun _ => (formGangs c.grid c.gid c.slices tm).updGroup c.gid c.group.nudgeIf
          let done := ((tm.group? c.gid).map fun g => g.slices.all Slice.finished).getD false
          if done then endGroup c.uid c.gid t1 else t1.updGroup c.uid c.gid Group.commit

end Sys2Proof.Machine
end

