-- ==== Sys2Proof/Machine/Access.lean ====
section
/-! DEFINITION. The accesses of a group's memory instructions: the checks of R235 before any pair performs its
access, the accesses in ascending slot and lane (R236), load tokens (R150), and the granules a .WF access
waits for (R212). -/

namespace Sys2Proof.Machine

/-! ## Checks -/

/-- What a check comes to: no failure, or what the instruction does instead. -/
abbrev Check := Option Res

/-- The first failing pair of a precise cause (R235), with the address that failed. -/
def failAt (ps : List (Nat × Nat)) (code : Code) (bad : Nat × Nat → Bool) (addr : Nat × Nat → DWord) : Check :=
  (ps.find? bad).map fun p => .trap { code := code, pair := some p, faddr := addr p }

/-- Two checks, one after the other. -/
def Check.andThen (x y : Check) : Check :=
  match x with
  | some r => some r
  | none => y

/-- Step 2 of R235. -/
def alignCheck (ps : List (Nat × Nat)) (va : Nat × Nat → DWord) (align : Nat) : Check :=
  failAt ps cMisaligned (fun p => decide ((va p).toNat % align ≠ 0)) va

/-- Step 5 of R235: a failure ends the team. -/
def Issue.leaseCheck (c : Issue) (ps : List (Nat × Nat)) (va : Nat × Nat → DWord) (w : Nat) (perm : Perm) : Check :=
  if ps.any fun p => !leaseOk c.grid (some (c.group.memberId p.1)) perm (va p).toNat w then some (.endTeam cLeaseViolation) else none

/-- Steps 2 and 5 for a global access. -/
def Issue.globalCheck (c : Issue) (ps : List (Nat × Nat)) (va : Nat × Nat → DWord) (w : Nat) (perm : Perm) : Check :=
  (alignCheck ps va w).andThen (c.leaseCheck ps va w perm)

/-- Whether `n` bytes at an integer offset lie in the allocation (R207). -/
def offsetOk (g : Grid) (o : Int) (n : Nat) : Bool := decide (0 ≤ o) && localOk g o.toNat n

/-- Steps 2 and 3 for a local access at exact integer offsets (R233). -/
def Issue.localCheck (c : Issue) (ps : List (Nat × Nat)) (off : Nat × Nat → Int) (align n : Nat) : Check :=
  (failAt ps cMisaligned (fun p => decide (off p % (align : Int) ≠ 0)) (fun p => BitVec.ofInt 64 (off p))).andThen
    (failAt ps cLocalRange (fun p => !offsetOk c.grid (off p) n) (fun p => BitVec.ofInt 64 (off p)))

/-- An instruction's effect after a check. -/
def Check.orElse (x : Check) (f : Unit → Res) : Res :=
  match x with
  | some r => r
  | none => f ()

/-! ## Accesses in order -/

/-- The outcome of the accesses of an instruction: what each pair obtained, or a page without a translation
(R89), or a locked one (R92). -/
inductive Accessed where
  | ok (vals : List ((Nat × Nat) × List Byte)) (s : State)
  | locked
  | lost

/-- The accesses of some pairs, each translated and then performed by `f` on its physical bytes, one after
another (R236). -/
def Issue.accesses (c : Issue) (va : Nat × Nat → DWord) (w : Nat) (write : Bool)
    (f : State → Nat × Nat → List Nat → List Byte × State) : List (Nat × Nat) → State → Accessed
  | [], s => .ok [] s
  | p :: rest, s =>
    match translateAll s c.team.core c.grid.asid c.grid.root write
        (accessBytes c.grid (some (c.group.memberId p.1)) (va p).toNat w) with
    | .locked => .locked
    | .lost => .lost
    | .ok pas s1 =>
      let (v, s2) := f s1 p pas
      match c.accesses va w write f rest s2 with
      | .ok vs s3 => .ok ((p, v) :: vs) s3
      | .locked => .locked
      | .lost => .lost

/-- What follows the accesses: a locked page is waited for, a lost translation ends the team. -/
def Accessed.andThen (x : Accessed) (k : List ((Nat × Nat) × List Byte) → State → Res) : Res :=
  match x with
  | .ok vs s => k vs s
  | .locked => .again
  | .lost => .endTeam cXlatLost

/-- The bytes a pair obtained. -/
def bytesOf (vs : List ((Nat × Nat) × List Byte)) (p : Nat × Nat) : List Byte :=
  ((vs.find? fun v => decide (v.1 = p)).map fun v => v.2).getD []

/-- Register `j` of a loaded value by the load's fn (Table 10.2). -/
def loadWord (f : BitVec 3) (bs : List Byte) (j : Nat) : Word :=
  match f.toNat with
  | 0 => BitVec.ofNat 32 (natOfBytes bs)
  | 1 => (BitVec.ofNat 8 (natOfBytes bs)).signExtend 32
  | 2 => BitVec.ofNat 32 (natOfBytes bs)
  | 3 => (BitVec.ofNat 16 (natOfBytes bs)).signExtend 32
  | _ => BitVec.ofNat 32 (natOfBytes ((bs.drop (4 * j)).take 4))

/-- The width in bytes of a load's fn and of a store's fn (Table 10.2). -/
def loadWidth (f : BitVec 3) : Nat := if f.toNat < 2 then 1 else if f.toNat < 4 then 2 else 4 * 2 ^ (f.toNat - 4)
/-- The width of a store's fn. -/
def storeWidth (f : BitVec 3) : Nat := 2 ^ f.toNat

/-- The bytes of a store's data (Table 10.2). -/
def Issue.storeBytes (c : Issue) (d : BitVec 7) (w : Nat) (p : Nat × Nat) : List Byte :=
  if w ≤ 4 then bytesOfNat w (c.src d p).toNat
  else (List.range (w / 4)).flatMap fun j => bytesOfNat 4 (c.reg d j p).toNat

/-- Loaded values written to their destination; a load is interlocked. -/
def Issue.putLoaded (c : Issue) (f : BitVec 3) (d : BitVec 7) (vs : List ((Nat × Nat) × List Byte)) (s : State) : State :=
  c.write none (destWrites c.live d (regsOfLoad f) fun p j => loadWord f (bytesOf vs p) j) s

/-- The address of an F-M form in global memory (Table 10.1). -/
def Issue.globalAddr (c : Issue) (b : BitVec 7) (off : Int) (w : Nat) (p : Nat × Nat) : DWord :=
  c.src64 b p + BitVec.ofInt 64 (off * w)
/-- The local offset of an F-M form as an exact integer (Table 10.1). -/
def Issue.localAddr (c : Issue) (b : BitVec 7) (off : Int) (w : Nat) (p : Nat × Nat) : Int := ((c.src b p).toNat : Int) + off * w

/-! ## Load tokens (R150) -/

/-- The loads of R150: majors 0x24, 0x26, 0x28, 0x2B and 0x2C that read memory. -/
def isLoad (j : Instr) : Bool :=
  match j with
  | .ld _ _ _ _ | .ldAcq _ _ _ _ _ | .ldh _ _ _ _ | .ldhWfKeep _ _ _ _ | .ldhWfClr _ _ _ _ | .lr _ _ _
  | .ldbMx8 _ _ _ | .ldbMx4 _ _ _ | .ldbTb4 _ _ _ | .ldhbMx8 _ _ _ | .ldhbMx4 _ _ _ | .ldhbTb4 _ _ _ => true
  | _ => false

/-- Whether a group waits with a load that has not issued. -/
def waitsWithLoad (s : State) (uid gid : Nat) : Bool :=
  match (s.team? uid).bind fun t => t.group? gid with
  | some g => !g.ended && g.slices.any fun x => match x.wait with
      | .blocked j _ _ => isLoad j
      | _ => false
  | none => false

/-- A group takes or keeps a load token of its core, or joins those that wait for one, first in, first out; the
second part tells whether it holds one. -/
def takeToken (s : State) (core uid gid : Nat) : State × Bool :=
  let k := s.core core
  let mine (h : Nat × Nat × Nat × Nat) : Bool := decide (h.1 = uid) && decide (h.2.1 = gid)
  let others := k.tokenQ.filter fun w => decide (w ≠ (uid, gid)) && waitsWithLoad s w.1 w.2
  let waiting := k.tokenQ.filter fun w => decide (w = (uid, gid)) || waitsWithLoad s w.1 w.2
  if k.tokens.any mine then
    (s.updCore core fun k => { k with tokens := k.tokens.map fun h => if mine h then (h.1, h.2.1, h.2.2.1, s.clk) else h }, true)
  else if k.tokens.length < k.limit.toNat ∧ (waiting.head? = some (uid, gid) ∨ waiting = []) then
    (s.updCore core fun k => { k with tokens := k.tokens ++ [(uid, gid, s.clk, s.clk)], tokenQ := others }, true)
  else (s.updCore core fun k => { k with tokenQ := if waiting.contains (uid, gid) then waiting else waiting ++ [(uid, gid)] }, false)

/-- A load: it waits for a load token where its group holds none. -/
def Issue.withToken (c : Issue) (s : State) (k : State → Res) : Res :=
  let (s1, ok) := takeToken s c.team.core c.uid c.gid
  if ok then k s1 else .hold 0 s1

/-- Whether the issuing gang's .WF access has taken its token and waits for its granules alone: what it waits for then ends
its wait, whatever became of the token (R212). -/
def Issue.wfWaits (c : Issue) (j : Instr) : Bool :=
  let x := c.group.slice (c.slices.headD 0)
  match x.wait with
  | .blocked i _ _ => decide (i = j) && decide (x.progress = 1)
  | _ => false

/-- The load of a .WF access: one that waits for its granules has its token (R150, R212). -/
def Issue.withTokenWf (c : Issue) (j : Instr) (s : State) (k : State → Res) : Res :=
  if c.wfWaits j then k (takeToken s c.team.core c.uid c.gid).1 else c.withToken s k

/-! ## Full/empty bits (R211, R212) -/

/-- What a .WF access waits for: whether it empties its granules, and the granules its live pairs touch. -/
structure WfNeed where
  clear : Bool
  cells : List Nat
  deriving DecidableEq, Repr

/-- The element bytes of a block form and the bytes and alignment of its scales (Table 10.3). -/
structure BlockForm where
  elems : Nat
  scales : Nat
  deriving DecidableEq, Repr
/-- MX8. -/
def formMx8 : BlockForm := ⟨32, 1⟩
/-- MX4. -/
def formMx4 : BlockForm := ⟨16, 1⟩
/-- TB4. -/
def formTb4 : BlockForm := ⟨16, 4⟩

/-- The granules of one access of every live pair. -/
def Issue.pairCells (c : Issue) (off : Nat × Nat → Int) (w : Nat) : List Nat :=
  c.live.flatMap fun p => granules (off p).toNat w

/-- The granules of a local block form: its elements and scales, for every live member context. -/
def Issue.blockCells (c : Issue) (fm : BlockForm) (a : BitVec 7) : List Nat :=
  c.slots.flatMap fun e =>
    granules (c.reg a 0 (c.memberPair e)).toNat fm.elems ++ granules (c.reg a 1 (c.memberPair e)).toNat fm.scales

/-- What an instruction waits for, where it has a .WF qualifier (R239, R241). -/
def Issue.wfNeed (c : Issue) (j : Instr) : Option WfNeed :=
  let block (fm : BlockForm) (a : BitVec 7) (q : BitVec 2) : Option WfNeed :=
    if q = 0 then none else some ⟨q == 2, c.blockCells fm a⟩
  match j with
  | .ldhWfKeep f _ b o => some ⟨false, c.pairCells (c.localAddr b o.toInt (loadWidth f)) (loadWidth f)⟩
  | .ldhWfClr f _ b o => some ⟨true, c.pairCells (c.localAddr b o.toInt (loadWidth f)) (loadWidth f)⟩
  | .ldhbMx8 _ a q => block formMx8 a q
  | .ldhbMx4 _ a q => block formMx4 a q
  | .ldhbTb4 _ a q => block formTb4 a q
  | _ => none

/-- Whether every granule a .WF access waits for is full. -/
def Team.wfFull (t : Team) (n : WfNeed) : Bool := n.cells.all fun o => t.full o

/-- A place among waiters: the clock a wait began, the GROUPID, the model step. -/
abbrev WaitKey := Nat × Nat × Nat

/-- Whether one place is before another. -/
def WaitKey.before (x y : WaitKey) : Bool :=
  decide (x.1 < y.1) || (decide (x.1 = y.1) && (decide (x.2.1 < y.2.1) || (decide (x.2.1 = y.2.1) && decide (x.2.2 < y.2.2))))

/-- The place of an issuing gang among waiters: where its wait began, or now. -/
def Issue.waitKey (c : Issue) (s : State) : WaitKey :=
  match (c.group.slice (c.slices.headD 0)).wait with
  | .blocked _ since order => (since, c.gid, order)
  | _ => (s.clk, c.gid, s.tick)

/-- The instruction a gang waits to issue, with its issue and place. -/
def blockedGang (s : State) (uid gid gang : Nat) : Option (Instr × Issue × WaitKey) :=
  match issueOf s uid gid gang false with
  | none => none
  | some c => match (c.group.slice (c.slices.headD 0)).wait with
    | .blocked j since order => some (j, c, (since, gid, order))
    | _ => none

/-- Every gang of a team that waits to issue. -/
def Team.blockedGangs (t : Team) (s : State) : List (Instr × Issue × WaitKey) :=
  t.groups.flatMap fun g => if g.ended then [] else (List.range 8).filterMap fun k => blockedGang s t.uid g.gid k

/-- Whether an access to local offsets meets a frozen vertical bus, or a column while the memory-layer ratio changes:
it then waits (R20, R230, R231). -/
def frozenAt (s : State) (core : Nat) (offs : List Int) : Bool :=
  ((s.core core).frozen.isSome || s.lath.colBusy) && offs.any fun o => decide ((columnBase : Int) ≤ o)

/-- The place of an issuing .WF access among those that wait: where its wait for its granules began, or now. -/
def Issue.wfKey (c : Issue) (s : State) : WaitKey :=
  if (c.group.slice (c.slices.headD 0)).progress = 1 then c.waitKey s else (s.clk, c.gid, s.tick)

/-- The place of a .WF access among those that wait: of two of a group that began waiting in one clock, the one of the lower
slot, and within it of the lower lane, is first (R212). -/
def Issue.wfPlace (c : Issue) (k : WaitKey) : WaitKey :=
  (k.1, k.2.1, match c.live with
    | p :: _ => 32 * p.1 + p.2
    | [] => 0)

/-- Whether a .WF access proceeds now (R212): every granule is full and none is frozen, and where it empties them, no waiter
that could proceed stands before it on one of them: one that keeps them, or one that began waiting earlier. -/
def Issue.wfGo (c : Issue) (n : WfNeed) (s : State) : Bool :=
  let can (m : WfNeed) : Bool := c.team.wfFull m && !frozenAt s c.team.core (m.cells.map Int.ofNat)
  can n &&
    !(n.clear && (c.team.blockedGangs s).any fun w =>
        match w.2.1.wfNeed w.1 with
        | some m => w.2.1.wfWaits w.1 && can m && (m.cells.any fun o => n.cells.contains o) &&
            decide (w.2.1.wfPlace w.2.2 ≠ c.wfPlace (c.wfKey s)) &&
            (!m.clear || WaitKey.before (w.2.1.wfPlace w.2.2) (c.wfPlace (c.wfKey s)))
        | none => false)

/-- The wait of a .WF access for its granules: it begins once the access has its token. -/
def Issue.holdWf (c : Issue) (j : Instr) (s : State) : Res :=
  .hold 1 (if c.wfWaits j then s else c.slicesDo (fun x => { x with wait := .ready }) s)

/-- The effect of a .WF access on its granules. -/
def Team.wfDone (t : Team) (n : Option WfNeed) : Team :=
  match n with
  | some m => if m.clear then t.setFulls m.cells false else t
  | none => t

/-- A wait whose clocks from `start` to `stop` are not counted (R213). -/
def Slice.notCounted (start stop : Nat) (x : Slice) : Slice :=
  match x.wait with
  | .blocked j since order => { x with wait := .blocked j (since + (stop - max start since)) order }
  | _ => x

/-- The clocks from `start` to `stop`, during which the columns of some cores took no access, not counted in the waits of
.WF accesses to them (R213). -/
def notCounted (on : Nat → Bool) (start stop : Nat) (s : State) : State :=
  { s with teams := s.teams.map fun t =>
      if on t.core then
        (t.blockedGangs s).foldl (fun t w => match w.2.1.wfNeed w.1 with
          | some n =>
            if n.cells.any fun o => decide (columnBase ≤ o) then
              t.updGroup w.2.1.gid fun g => g.updSlices w.2.1.slices (Slice.notCounted start stop)
            else t
          | none => t) t
      else t }

end Sys2Proof.Machine
end

