-- ==== Sys2Proof/Machine/Engine.lean ====
section
/-! DEFINITION. Engine commands of a group and its vertical FIFO: HOD, HOD.CHAIN, BEAD, VSEND and VRECV (R219,
R220, R228, R250 to R254), with the engine accesses they and the engines make. -/

namespace Sys2Proof.Machine

/-! ## Engine addresses (R219) -/

/-- An engine address (Table 9.2); `bad` where a field that has to be zero is not, and for SPACE 11. -/
inductive EngAddr where
  | global (va : Nat)
  | own (o : Nat)
  | remote (delta : Int) (o : Nat)
  | bad
  deriving DecidableEq, Repr

/-- The engine address that 64 bits hold. -/
def engAddr (a : DWord) : EngAddr :=
  match (a.extractLsb' 62 2).toNat with
  | 0 => if a.extractLsb' 57 5 = 0 then .global (a.extractLsb' 0 57).toNat else .bad
  | 1 => if a.extractLsb' 32 30 = 0 then .own (a.extractLsb' 0 32).toNat else .bad
  | 2 => if a.extractLsb' 58 4 = 0 ∧ a.extractLsb' 32 2 = 0 then .remote (a.extractLsb' 34 24).toInt (a.extractLsb' 0 32).toNat else .bad
  | _ => .bad

/-- For whom an engine acts: its team and grid, and the MEMBERID that maps its addresses (R69). -/
structure EngCtx where
  uid : Nat
  core : Nat
  grid : Grid
  member : Nat

/-- What an engine access comes to: bytes and the state after it, a page that is locked, or none (R89). -/
inductive EngDone where
  | ok (bs : List Byte) (s : State)
  | locked
  | lost

/-- A read of global virtual bytes by an engine, at the home L2 (R216). -/
def EngCtx.readGlobal (k : EngCtx) (s : State) (va n : Nat) : EngDone :=
  match translateAll s k.core k.grid.asid k.grid.root false (accessBytes k.grid (some k.member) va n) with
  | .ok pas s1 => .ok (l2Reads s1 pas) s1
  | .locked => .locked
  | .lost => .lost

/-- A write of global virtual bytes by an engine. -/
def EngCtx.writeGlobal (k : EngCtx) (s : State) (va : Nat) (bs : List Byte) : EngDone :=
  match translateAll s k.core k.grid.asid k.grid.root true (accessBytes k.grid (some k.member) va bs.length) with
  | .ok pas s1 => .ok [] (l2Writes s1 pas bs)
  | .locked => .locked
  | .lost => .lost

/-- The team that a remote address names (R219): of the same grid, resident on another core of the cluster. -/
def EngCtx.remote (k : EngCtx) (s : State) (delta : Int) : Option Team :=
  match s.team? k.uid with
  | none => none
  | some me => s.teams.find? fun t =>
    decide (t.grid = me.grid) && decide ((t.teamid : Int) = me.teamid + delta) && decide (t.core ≠ me.core) &&
      decide (t.core / 4 = me.core / 4)

/-- Bytes of a team's allocation. -/
def localsOf (s : State) (uid o n : Nat) : List Byte := ((s.team? uid).map fun t => t.locals o n).getD []

/-! ## HOD, HOD.CHAIN and BEAD (R250 to R253) -/

/-- A field of a 64-byte record. -/
def rec512 (r : BitVec 512) (off len : Nat) : Nat := (r.toNat / 2 ^ (8 * off)) % 2 ^ (8 * len)
/-- A 64-byte record with a 32-bit field replaced. -/
def setRec512 (r : BitVec 512) (off : Nat) (v : Word) : BitVec 512 :=
  BitVec.ofNat 512 (r.toNat - rec512 r off 4 * 2 ^ (8 * off) + v.toNat * 2 ^ (8 * off))

/-- The lowest command slots below `n` that are free. -/
def freeSlots (n : Nat) (used : List Nat) : List Nat := (List.range n).filter fun k => !used.contains k

/-- What HOD's read of one record gives: the record, or what the instruction does instead. -/
inductive HodRead where
  | ok (r : BitVec 512) (s : State)
  | fault (code : Code) (s : State)
  | stop (r : Res)

/-- HOD's read of the 64-byte record of a member context at an engine address (R219, R251). A record in the column waits for
its vertical bus (R20, R230). -/
def Issue.readRecord (c : Issue) (e : Nat) (a : DWord) (s : State) : HodRead :=
  let k : EngCtx := ⟨c.uid, c.team.core, c.grid, c.group.memberId e⟩
  match engAddr a with
  | .global va =>
    if !leaseOk c.grid (some k.member) .r va 64 then .stop (.endTeam cLeaseViolation)
    else match k.readGlobal s va 64 with
      | .ok bs s1 => .ok (BitVec.ofNat 512 (natOfBytes bs)) s1
      | .locked => .stop .again
      | .lost => .stop (.endTeam cXlatLost)
  | .own o =>
    if !localOk c.grid o 64 then .fault cHodFault s
    else if frozenAt s c.team.core [(o : Int), (o : Int) + 63] then .stop .again
    else .ok (BitVec.ofNat 512 (natOfBytes (localsOf s c.uid o 64))) s
  | .remote d o =>
    if !localOk c.grid o 64 ∨ columnBase < o + 64 then .fault cHodFault s
    else match k.remote s d with
      | some t => .ok (BitVec.ofNat 512 (natOfBytes (t.locals o 64))) s
      | none => .fault cRemoteAbsent s
  | .bad => .fault cHodFault s

/-- HOD's records taken one member context after another into command slots (R251). A record whose LINK or VALID
is not zero, or whose count exceeds ROWS, faults as a deferred cause (R222). -/
def Issue.takeRecords (c : Issue) (a b : BitVec 7) : List (Nat × Nat) → State → Res
  | [], s => .ok s
  | (e, slot) :: rest, s =>
    let addr := c.memberValue64 a e
    let fault (code : Code) (s : State) : State := deliver s c.uid c.gid { code := code, src := slot, faddr := addr, trw := false, tpc := 0 }
    match c.readRecord e addr s with
    | .stop r => r
    | .fault code s1 => c.takeRecords a b rest (fault code s1)
    | .ok r s1 =>
      let n := c.memberValue b e
      if rec512 r 0x30 8 ≠ 0 ∨ rec512 r 0x20 4 ≠ 0 ∨ rec512 r 0x18 4 < n.toNat then c.takeRecords a b rest (fault cHodFault s1)
      else c.takeRecords a b rest (s1.updTeam c.uid fun t =>
        { t with hods := t.hods ++ [{ slot := slot, record := setRec512 r 0x20 n, gid := c.gid, member := c.group.memberId e, addr := addr }] })

/-- HOD (R250, R251): it waits until its records have slots. -/
def execHod (a b : BitVec 7) (s : State) : Host.Outcome State Fault Refusal :=
  groupInstr (.hod a b) s fun c t =>
    let ps := c.slots.map c.memberPair
    if c.live.isEmpty then .ok t
    else (alignCheck ps (fun p => c.src64 a p) 64).orElse fun _ =>
      let free := freeSlots 16 (c.team.hods.map fun h => h.slot)
      if free.length < c.slots.length then .hold 0 t
      else c.takeRecords a b (c.slots.zip free) (writeBackAll t c.team.core)

/-- HOD.CHAIN (R250, R252): it waits while the channel is busy. -/
def execHodChain (a : BitVec 7) (s : State) : Host.Outcome State Fault Refusal :=
  groupInstr (.hodChain a) s fun c t =>
    match c.lead with
    | none => .ok t
    | some p => (alignCheck [p] (fun p => c.src64 a p) 64).orElse fun _ =>
      if c.team.hodch.busy then .hold 0 t
      else
        let head := c.src64 a p
        match engAddr head with
        | .global va => .ok ((writeBackAll t c.team.core).updTeam c.uid fun tm =>
            { tm with hodch := { busy := true, head := BitVec.ofNat 57 va, gid := c.gid, member := c.group.memberId p.1 } })
        | _ => .ok (deliver t c.uid c.gid { code := cHodFault, src := 16, faddr := head, trw := false, tpc := 0 })

/-- BEAD (R250, R253): with an offset, the descriptor is first loaded into m4j to m4j + 3; it waits while the
four slots are busy. -/
def execBead (m : BitVec 2) (a : BitVec 7) (s : State) : Host.Outcome State Fault Refusal :=
  groupInstr (.bead m a) s fun c t =>
    match c.lead with
    | none => .ok t
    | some p =>
      let o := (c.src a p).toNat
      let load := a ≠ 0x7E
      if load ∧ o % 64 ≠ 0 then .trap { code := cMisaligned, pair := some p, faddr := BitVec.ofNat 64 o }
      else if load ∧ c.grid.field 0x28 4 < o + 64 then .trap { code := cLocalRange, pair := some p, faddr := BitVec.ofNat 64 o }
      else match freeSlots 4 (c.team.beads.map fun b => b.slot) with
        | [] => .hold 0 t
        | slot :: _ =>
          let regs (tm : Team) : List (BitVec 128) :=
            if load then (List.range 4).map fun k => BitVec.ofNat 128 (natOfBytes (tm.locals (o + 16 * k) 16))
            else (List.range 4).map fun k => (mapGet tm.mregs (4 * m.toNat + k)).getD 0
          .ok ((writeBackAll t c.team.core).updTeam c.uid fun tm =>
            let rs := regs tm
            { tm with
              mregs := rs.zipIdx.foldl (fun mm r => mapSet mm (4 * m.toNat + r.2) r.1) tm.mregs
              beads := tm.beads ++ [{ slot := slot, desc := nth rs 3 0 ++ nth rs 2 0 ++ nth rs 1 0 ++ nth rs 0 0, gid := c.gid,
                                      member := c.group.memberId p.1, off := if load then BitVec.ofNat 64 o else 0 }] })

/-! ## The vertical FIFO (R228, R254) -/

/-- Whether a core is online with its column (Table 1.8): brought up, and neither gated nor fenced. -/
def coreOnline (s : State) (c : Nat) : Bool :=
  s.base.getLsbD c && !(s.core c).gated && !(s.core c).fenced

/-- The FIFO entry of a member slot: its live lanes' values, zero elsewhere. -/
def Issue.fifoEntry (c : Issue) (a : BitVec 7) (e : Nat) : FifoEntry :=
  { grid := c.grid.uid
    data := BitVec.ofNat 1024 (natOfBytes ((List.range 32).flatMap fun l =>
      bytesOfNat 4 (if c.live.contains (e, l) then (c.src a (e, l)).toNat else 0))) }

/-- VSEND (R254): it waits for room for every member context, and for a partner that is online. -/
def execVsend (a : BitVec 7) (s : State) : Host.Outcome State Fault Refusal :=
  groupInstr (.vsend a) s fun c t =>
    if c.live.isEmpty then .ok t
    else if !coreOnline t (partner c.team.core) ∨ 16 < (t.core c.team.core).fifo.length + c.slots.length then .hold 0 t
    else .ok (t.updCore c.team.core fun k => { k with fifo := k.fifo ++ c.slots.map (c.fifoEntry a) })

/-- The oldest `n` entries of a grid taken from a FIFO, and what remains. -/
def takeEntries (grid : Nat) : Nat → List FifoEntry → List FifoEntry × List FifoEntry
  | 0, l => ([], l)
  | _ + 1, [] => ([], [])
  | n + 1, x :: rest =>
    if x.grid = grid then
      let (got, left) := takeEntries grid n rest
      (x :: got, left)
    else
      let (got, left) := takeEntries grid (n + 1) rest
      (got, x :: left)

/-- VRECV (R254): it waits until an entry of its grid is present for every member context. -/
def execVrecv (d : BitVec 7) (s : State) : Host.Outcome State Fault Refusal :=
  groupInstr (.vrecv d) s fun c t =>
    if c.live.isEmpty then .ok t
    else
      let (got, left) := takeEntries c.grid.uid c.slots.length (t.core (partner c.team.core)).fifo
      if got.length < c.slots.length then .hold 0 t
      else
        let entry (e : Nat) : Nat := ((((c.slots.zip got).find? fun x => decide (x.1 = e)).map fun x => x.2.data.toNat).getD 0)
        .ok (c.put none d (fun p => BitVec.ofNat 32 (entry p.1 / 2 ^ (32 * p.2)))
          (t.updCore (partner c.team.core) fun k => { k with fifo := left }))

end Sys2Proof.Machine
end

