-- ==== Sys2Proof/Machine/Elem.lean ====
section
/-! DEFINITION. The FP32 transcendentals of R195: each is computed in integer fixed point with 384 bits
after the point, and the result keeps 320 of them with a last bit set for the part that is dropped, so
the one rounding to binary32 is that of the exact value (assumption 10). -/

namespace Sys2Proof.Machine

/-- The fixed-point places. -/
def fxBits : Nat := 384
/-- One in fixed point. -/
def fxOne : Nat := 2 ^ fxBits

/-- The sum of 1/(n·xⁿ)-like terms of the arctangent of 1/x in fixed point:
x⁻¹ − x⁻³/3 + x⁻⁵/5 − …, with `p` the current power and `n` the current odd divisor. -/
def atanInvTerms (x2 : Nat) : Nat → Nat → Nat → Bool → Int
  | 0, _, _, _ => 0
  | k + 1, p, n, neg =>
    let t : Int := (p / n : Nat)
    (if neg then -t else t) + atanInvTerms x2 k (p / x2) (n + 2) (!neg)

/-- π in fixed point by Machin's formula, 16 arctan(1/5) − 4 arctan(1/239). -/
def fxPi : Nat :=
  (16 * atanInvTerms 25 90 (fxOne / 5) 1 false - 4 * atanInvTerms (239 * 239) 30 (fxOne / 239) 1 false).toNat

/-- The terms z + z³/3 + z⁵/5 + … of artanh z in fixed point. -/
def atanhTerms (z2 : Nat) : Nat → Nat → Nat → Nat
  | 0, _, _ => 0
  | k + 1, p, n => p / n + atanhTerms z2 k (p * z2 / fxOne) (n + 2)

/-- artanh of a fixed-point z ≤ 1/3. -/
def fxAtanh (z : Nat) : Nat := atanhTerms (z * z / fxOne) 130 z 1
/-- ln 2 = 2 artanh(1/3) in fixed point. -/
def fxLn2 : Nat := 2 * fxAtanh (fxOne / 3)

/-- The terms 1 + y + y²/2 + … of exp y in fixed point. -/
def expTerms (y : Nat) : Nat → Nat → Nat → Nat
  | 0, _, _ => 0
  | k + 1, t, n => t + expTerms y k (t * y / fxOne / n) (n + 1)

/-- exp of a fixed-point y below 1. -/
def fxExp (y : Nat) : Nat := expTerms y 90 fxOne 1

/-- The terms t − t·y²/(n(n+1)) + … of sine and cosine. -/
def trigTerms (y2 : Nat) : Nat → Nat → Nat → Bool → Int
  | 0, _, _, _ => 0
  | k + 1, t, n, neg =>
    (if neg then -(t : Int) else t) + trigTerms y2 k (t * y2 / fxOne / (n * (n + 1))) (n + 2) (!neg)

/-- sin y and cos y for a fixed-point y of at most π/2. -/
def fxSin (y : Nat) : Nat := (trigTerms (y * y / fxOne) 60 y 2 false).toNat
/-- cos y. -/
def fxCos (y : Nat) : Nat := (trigTerms (y * y / fxOne) 60 fxOne 1 false).toNat

/-- An irrational result known to `fxBits` places, as a value that rounds as the exact one does. -/
def irrational (neg : Bool) (v : Nat) (e : Int) : Num := .fin neg (2 * (v / 2 ^ 64) + 1) (e - 320 - 1)

/-- 2^(m·2^e) for a finite operand. -/
def exp2Num (neg : Bool) (m : Nat) (e : Int) : Num :=
  if m = 0 then .fin false 1 0
  else if 12 ≤ e + (m.log2 : Nat) then
    -- beyond ±2^12: the result overflows or underflows whatever it is exactly
    .fin false 1 (if neg then -4096 else 4096)
  else
    -- x = n + r/2^fxBits with 0 ≤ r < 2^fxBits; e ≥ −149, so x is exact in fixed point
    let v : Int := scaled neg m e (-(fxBits : Int))
    let n := v.fdiv (fxOne : Int)
    let r := (v.fmod (fxOne : Int)).toNat
    if r = 0 then .fin false 1 n else irrational false (fxExp (r * fxLn2 / fxOne)) n

/-- log2 of a positive finite operand m × 2^e. -/
def log2Num (m : Nat) (e : Int) : Num :=
  let k : Int := e + (m.log2 : Nat)
  if m = 2 ^ m.log2 then Num.ofInt k
  else
    -- ln(f) = 2 artanh((f − 1)/(f + 1)) for the mantissa f in [1, 2)
    let one := 2 ^ m.log2
    let z := (m - one) * fxOne / (m + one)
    let l := 2 * fxAtanh z * fxOne / fxLn2
    let v : Int := k * fxOne + l
    irrational (decide (v < 0)) v.natAbs 0

/-- A finite operand modulo 2 in units of 2^−149: 0 to 2^150 − 1. -/
def mod2 (m : Nat) (e : Int) : Nat := (m * 2 ^ (e + 149).toNat) % 2 ^ 150

/-- sin(πx) of a finite operand. -/
def sinpiNum (neg : Bool) (m : Nat) (e : Int) : Num :=
  let one := 2 ^ 149
  let r := mod2 m e
  let flip := decide (one ≤ r)
  let r1 := r % one
  if r1 = 0 then .fin neg 0 0
  else
    let r2 := if 2 * r1 ≤ one then r1 else one - r1
    let sg := neg != flip
    if 2 * r2 = one then .fin sg 1 0
    else irrational sg (fxSin (r2 * 2 ^ (fxBits - 149) * fxPi / fxOne)) 0

/-- cos(πx) of a finite operand. -/
def cospiNum (m : Nat) (e : Int) : Num :=
  let one := 2 ^ 149
  let r := mod2 m e
  -- cos(π(2 − r)) = cos(πr); cos(π(1 − r)) = −cos(πr)
  let r1 := if one < r then 2 * one - r else r
  let sg := decide (one < 2 * r1)
  let r2 := if one < 2 * r1 then one - r1 else r1
  if r2 = 0 then .fin sg 1 0
  else if 2 * r2 = one then .fin false 0 0
  else if r2 < 2 ^ 20 then .fin sg (2 ^ 400 - 1) (-400)
  else irrational sg (fxCos (r2 * 2 ^ (fxBits - 149) * fxPi / fxOne)) 0

/-- The functions of major 0x1C. -/
inductive ElemFn where
  | rcp
  | rsq
  | sqrt
  | exp2
  | log2
  | sinpi
  | cospi
  deriving DecidableEq, Repr

/-- The result and flags of a transcendental on a binary32 pattern (R195, Table 8.5). -/
def elemResult (fn : ElemFn) (mode : RMode) (a : Nat) : Nat × FFlags :=
  let bad := (fmtF32.qnan, flagNV)
  let r (v : Num) := fmtF32.result mode v
  match fmtF32.value a with
  | .nan sg => (fmtF32.qnan, nvIf sg)
  | .inf neg =>
    match fn with
    | .rcp => r (.fin neg 0 0)
    | .rsq => if neg then bad else r (.fin false 0 0)
    | .sqrt => if neg then bad else r (.inf false)
    | .exp2 => if neg then r (.fin false 0 0) else r (.inf false)
    | .log2 => if neg then bad else r (.inf false)
    | .sinpi | .cospi => bad
  | .fin neg m e =>
    match fn with
    | .rcp =>
      if m = 0 then ((r (.inf neg)).1, flagDZ) else r (quotient neg 1 m (-e))
    | .rsq =>
      if m = 0 then ((r (.inf neg)).1, flagDZ) else if neg then bad else r (sqrtQuotient 1 m (-e))
    | .sqrt => if m = 0 then r (.fin neg 0 0) else if neg then bad else r (sqrtQuotient m 1 e)
    | .exp2 => r (exp2Num neg m e)
    | .log2 => if m = 0 then ((r (.inf true)).1, flagDZ) else if neg then bad else r (log2Num m e)
    | .sinpi => r (sinpiNum neg m e)
    | .cospi => r (cospiNum m e)

end Sys2Proof.Machine
end

