-- ==== Sys2Proof/Machine/Tile.lean ====
section
/-! DEFINITION. Tiles of the accumulator store (R269): their elements, the entering of terms into exact elements
(R51 to R53, R443), rounding out (R54, R55), and the canonical sums (R56, R57). -/

namespace Sys2Proof.Machine

/-! ## Flags of the Trowel -/

/-- Flags in their TFLAGS places: WL in bit 5 above the five exception flags (Table 11.3). -/
abbrev TFlags := BitVec 6
/-- Exception flags as TFLAGS. -/
def tfl (f : FFlags) : TFlags := f.setWidth 6
/-- Window loss. -/
def flagWL : TFlags := 32

/-! ## Tiles -/

/-- The slots that a mode uses (Table 11.6). -/
def TileMode.span (m : TileMode) : Nat :=
  match m with
  | .f32 => 1
  | .f64 => 2
  | .exact => 4
/-- The slots a tile covers. -/
def Tile.covers (t : Tile) : List Nat := (List.range t.mode.span).map (t.slot + ·)

/-- The tile that covers a slot; a slot of no listed tile is an F32 tile of +0 (Table 11.1). -/
def tileAt (ts : List Tile) (s : Nat) : Tile := (ts.find? fun t => t.covers.contains s).getD { slot := s }
/-- The tile a slot names, if the slot is the named slot of its tile (R269). -/
def namedTile (ts : List Tile) (s : Nat) : Option Tile := if (tileAt ts s).slot = s then some (tileAt ts s) else none
/-- The tiles with a new tile in place of those it overlaps; slots that are left become F32 tiles of +0 (R269). -/
def putTile (ts : List Tile) (t : Tile) : List Tile :=
  let keep := ts.filter fun u => !(u.covers.any fun s => t.covers.contains s)
  (keep.filter fun u => decide (u.slot < t.slot)) ++ [t] ++ keep.filter fun u => decide (t.slot < u.slot)

/-- Element (i, j). -/
def Tile.get (t : Tile) (i j : Nat) : Elem := (mapGet t.cells (256 * i + j)).getD t.dflt

/-- The elements at some rising keys changed, each by `f`; an element equal to the default is not listed. -/
def updCells (d : Elem) (f : Nat → Elem → Elem × TFlags) : List Nat → SMap Elem → SMap Elem × TFlags
  | [], cells => (cells, 0)
  | k :: ks, cells =>
    let before := cells.takeWhile fun c => decide (c.1 < k)
    let rest := cells.dropWhile fun c => decide (c.1 < k)
    let (x, rest') := match rest with
      | (k', v) :: r => if k' = k then (v, r) else (d, rest)
      | [] => (d, [])
    let (y, fl) := f k x
    let (out, fl') := updCells d f ks rest'
    (before ++ (if y = d then out else (k, y) :: out), fl ||| fl')

/-- The keys of the elements (i, j) with i < vr and j < vc. -/
def regionKeys (vr vc : Nat) : List Nat := (List.range vr).flatMap fun i => (List.range vc).map (256 * i + ·)

/-- The elements (i, j) with i < vr and j < vc changed. -/
def Tile.updRegion (t : Tile) (vr vc : Nat) (f : Nat → Nat → Elem → Elem × TFlags) : Tile × TFlags :=
  let (cells, fl) := updCells t.dflt (fun k x => f (k / 256) (k % 256) x) (regionKeys vr vc) t.cells
  ({ t with cells := cells }, fl)

/-- Every element changed by one function of its value. -/
def Tile.mapElems (t : Tile) (f : Elem → Elem × TFlags) : Tile × TFlags :=
  let (d, fl) := f t.dflt
  let out := t.cells.map fun c => (c.1, f c.2)
  let fl0 := if t.cells.length < 65536 then fl else 0
  ({ t with dflt := d, cells := (out.filter fun c => decide (c.2.1 ≠ d)).map fun c => (c.1, c.2.1) },
    out.foldl (fun a c => a ||| c.2.2) fl0)

/-- The tile with +0 as the default of its table. -/
def Tile.spread (t : Tile) : Tile :=
  if t.dflt = {} then t
  else { t with dflt := {}, cells := (regionKeys 256 256).filterMap fun k =>
    let x := (mapGet t.cells k).getD t.dflt
    if x = {} then none else some (k, x) }

/-- Every element changed by a function of its place and value. -/
def Tile.mapPlaces (t : Tile) (f : Nat → Nat → Elem → Elem × TFlags) : Tile × TFlags := t.spread.updRegion 256 256 f

/-- A tile with every element zero: +0, or A = 0 with F = 0 and no flag. -/
def Tile.zeroed (t : Tile) : Tile := { t with dflt := {}, cells := [] }

/-! ## Float elements -/

/-- The format of a float tile. -/
def TileMode.fmt (m : TileMode) : Fmt :=
  match m with
  | .f64 => fmtF64
  | _ => fmtF32
/-- An element that holds a bit pattern. -/
def bitsElem (v : Nat) : Elem := { a := BitVec.ofNat 96 v }
/-- The bit pattern of an element of a float tile. -/
def Elem.bits (x : Elem) : Nat := x.a.toNat

/-- The sum of two values rounded once RNE into a format, as a value (R56). -/
def addRound (f : Fmt) (x y : Num) : Num × FFlags :=
  if x.isNan || y.isNan then (.nan false, nvIf (x.isSnan || y.isSnan))
  else match addNum .rne x y with
    | none => (.nan false, flagNV)
    | some v =>
      let (b, fl) := f.result .rne v
      (f.value b, fl)

/-- One level of the tree of R56. -/
def pairSums (f : Fmt) : List Num → List Num × FFlags
  | x :: y :: rest =>
    let (z, fl) := addRound f x y
    let (zs, fl') := pairSums f rest
    (z :: zs, fl ||| fl')
  | l => (l, 0)

/-- `chunk_sum` of R56 over a list whose length is a power of two; `fuel` bounds its levels. -/
def chunkSum (f : Fmt) : Nat → List Num → Num × FFlags
  | 0, l => (l.headD (.fin false 0 0), 0)
  | fuel + 1, l =>
    match l with
    | [] => (.fin false 0 0, 0)
    | [x] => (x, 0)
    | _ =>
      let (l', fl) := pairSums f l
      let (r, fl') := chunkSum f fuel l'
      (r, fl ||| fl')

/-- A product held exactly (R56): a NaN where an operand is one, or for ∞ × 0. -/
def exactProduct (x y : Num) : Num × FFlags :=
  if x.isNan || y.isNan then (.nan false, nvIf (x.isSnan || y.isSnan))
  else match mulNum x y with
    | some v => (v, 0)
    | none => (.nan false, flagNV)

/-- A product rounded RNE into a format. -/
def roundProduct (f : Fmt) (x y : Num) : Num × FFlags :=
  let (v, fl) := exactProduct x y
  match v with
  | .nan _ => (.nan false, fl)
  | v =>
    let (b, fl') := f.result .rne v
    (f.value b, fl ||| fl')

/-! ## Exact elements (R51 to R53, R443) -/

/-- Whether an integer fits 96 bits in two's complement. -/
def fits96 (v : Int) : Bool := decide (-(2 ^ 95 : Int) ≤ v) && decide (v < 2 ^ 95)
/-- An integer shifted right arithmetically. -/
def shr (v : Int) (k : Nat) : Int := v.fdiv (2 ^ k : Nat)

/-- The sum of A and a term, both at one weight, that exceeds 96 bits: the least shift that makes it fit, and
whether a nonzero bit is discarded (R53). -/
def windowShift (a t : Int) : Nat × Int × Bool :=
  let at_ (k : Nat) : Int := shr a k + shr t k
  let k0 := max 1 ((a + t).natAbs.log2 + 1 - 96)
  let k := if fits96 (at_ k0) then k0 else if fits96 (at_ (k0 + 1)) then k0 + 1 else k0 + 2
  (k, at_ k, decide (a.fmod (2 ^ k : Nat) ≠ 0) || decide (t.fmod (2 ^ k : Nat) ≠ 0))

/-- A finite term v × 2^e enters an element (R52, R53). -/
def Elem.enter (x : Elem) (v e : Int) : Elem × TFlags :=
  let lo := min x.f e
  let a := x.a.toInt * 2 ^ (x.f - lo).toNat
  let t := v * 2 ^ (e - lo).toNat
  if fits96 (a + t) then ({ x with a := BitVec.ofInt 96 (a + t), f := lo }, 0)
  else
    let (k, s, lost) := windowShift a t
    ({ x with a := BitVec.ofInt 96 s, f := lo + k }, if lost then flagWL else 0)

/-- A product of two values enters an element, a finite one as a multiple of 2^unit (R443). -/
def Elem.enterProduct (x : Elem) (p q : Num) (unit : Int) : Elem × TFlags :=
  if p.isNan || q.isNan then ({ x with nan := true }, tfl (nvIf (p.isSnan || q.isSnan)))
  else match mulNum p q with
    | none => ({ x with nan := true }, tfl flagNV)
    | some (.inf neg) => (if neg then { x with ninf := true } else { x with pinf := true }, 0)
    | some (.fin neg m e) => x.enter (scaled neg m e unit) unit
    | some (.nan _) => (x, 0)

/-- The exact value of an element that is finite. -/
def Elem.value (x : Elem) : Num := .fin (decide (x.a.toInt < 0)) x.a.toInt.natAbs x.f

/-- The flags of two elements ORed, as a merge does (R443). -/
def Elem.orFlags (x y : Elem) : Elem := { x with pinf := x.pinf || y.pinf, ninf := x.ninf || y.ninf, nan := x.nan || y.nan }

/-- A captured band scale, 1.0 where none has been captured (assumption 17). -/
def Tile.bandA (t : Tile) (i : Nat) : BitVec 16 := nth t.bandsA (i / 64) 0x3F80
/-- The same for the columns. -/
def Tile.bandB (t : Tile) (j : Nat) : BitVec 16 := nth t.bandsB (j / 64) 0x3F80

/-- An element of an EXACT tile of class FLOAT or unset rounded out with two band scales (R54, R443). A zero sum, and a nonzero
sum of either sign times a zero band scale, gives +0 (log 37). -/
def Elem.roundOut (x : Elem) (ba bb : BitVec 16) (f : Fmt) (mode : RMode) (sat : Bool) : Nat × FFlags :=
  if x.nan then (f.qnan, 0)
  else if x.pinf && x.ninf then (f.qnan, flagNV)
  else if x.pinf then f.convert mode 0 sat (.inf false)
  else if x.ninf then f.convert mode 0 sat (.inf true)
  else if x.a = 0 then (0, 0)
  else
    let (p, fl1) := exactProduct (fmtBF16.value ba.toNat) (fmtBF16.value bb.toNat)
    let (v, fl2) := exactProduct x.value p
    match v with
    | .fin _ 0 _ => (0, 0)
    | .nan _ => (f.qnan, fl1 ||| fl2)
    | v => f.convert mode 0 sat v

/-- Element (i, j) of an EXACT tile rounded out into a floating-point format: with the captured band scales for
class FLOAT and unset, the exact integer for the INT classes (R54, R276, R283). -/
def Tile.roundOut (t : Tile) (i j : Nat) (x : Elem) (f : Fmt) (mode : RMode) (sat : Bool) : Nat × FFlags :=
  match t.cls with
  | .intSat | .intWrap => if x.a = 0 then (0, 0) else f.convert mode 0 sat x.value
  | _ => x.roundOut (t.bandA i) (t.bandB j) f mode sat

/-- The true sum of an INT element as S32 (R55). -/
def Tile.roundInt (t : Tile) (x : Elem) : BitVec 32 :=
  let v : Int := if 0 ≤ x.f then x.a.toInt * 2 ^ x.f.toNat else shr x.a.toInt (-x.f).toNat
  match t.cls with
  | .intSat => BitVec.ofInt 32 (max (-(2 ^ 31 : Int)) (min (2 ^ 31 - 1) v))
  | _ => BitVec.ofInt 32 v

end Sys2Proof.Machine
end

