-- ==== Sys2Proof/Machine/Trowel.lean ====
section
/-! DEFINITION. The Trowel context (R260 to R264): its wrapper and traps, the scalar and control forms of major
0x38 (R270 to R272), the descriptor registers of major 0x39 (R273) and the generators of major 0x37 (R285,
R286). -/

namespace Sys2Proof.Machine

/-! ## The wrapper -/

/-- A Trowel instruction as it issues: the team, its grid, and the Trowel context. -/
structure TrowelIssue where
  uid : Nat
  grid : Grid
  team : Team
  w : Trowel

/-- What a Trowel instruction does: its effect with the program counter advanced, or sent to a target; an effect
with the program counter where it stands, as a wait or a part of the instruction leaves it; a trap, with the
state it leaves; a team-ending cause; or nothing now, to be tried again. -/
inductive TRes where
  | ok (s : State)
  | goto (target : VAddr) (s : State)
  | stay (s : State)
  | trap (code : Code) (faddr : BitVec 64) (s : State)
  | endTeam (code : Code)
  | again

/-- The Trowel context changed. -/
def TrowelIssue.upd (c : TrowelIssue) (f : Trowel → Trowel) (s : State) : State :=
  s.updTeam c.uid fun t => { t with trowel := t.trowel.map f }

/-- A Trowel past an instruction, its literals used. -/
def Trowel.goTo (target : VAddr) (w : Trowel) : Trowel := { w with pc := target, imm := [], pfx := none }

/-- The state after a Trowel instruction. -/
def TrowelIssue.settle (c : TrowelIssue) (s : State) (r : TRes) : State :=
  match r with
  | .ok t => c.upd (Trowel.goTo (c.w.pc + 4)) t
  | .goto target t => c.upd (Trowel.goTo target) t
  | .stay t => t
  | .trap code faddr t => trowelTrap t c.uid code faddr
  | .endTeam code => endTeamWith s c.uid code
  | .again => s

/-- Whether literals are bound as R108 has it, the Trowel in the place of the slice (R261). -/
def Trowel.bindingOk (w : Trowel) (j : Instr) : Bool :=
  ((tSources j).contains 0x7F == !w.imm.isEmpty) && decide (w.imm.length ≤ 2)

/-- The Trowel context of a team as an issue. -/
def trowelIssue (s : State) (uid : Nat) : Option TrowelIssue :=
  match s.team? uid with
  | none => none
  | some t => match s.grid? t.grid, t.trowel with
    | some gr, some w => some ⟨uid, gr, t, w⟩
    | _, _ => none

/-- A Trowel instruction: run for the Trowel that executes it (R260); a group that issues it traps ILLEGAL_INSTR
(R123). -/
def trowelInstr (j : Instr) (s : State) (body : TrowelIssue → State → TRes) : Host.Outcome State Fault Refusal :=
  match s.issuer with
  | .trowel uid =>
    match trowelIssue s uid with
    | some c =>
      if !legal j || !c.w.bindingOk j then .next (trowelTrap s uid cIllegal 0) else .next (c.settle s (body c s))
    | none => .fault .noIssuingTrowel
  | .gang uid gid gang =>
    match issueOf s uid gid gang false with
    | some c => .next (c.trapWith { code := cIllegal } s)
    | none => .fault .noIssuingGang
  | .nobody => .fault .noIssuingTrowel

/-- A trap that leaves no effect. -/
def TrowelIssue.fail (_ : TrowelIssue) (code : Code) (s : State) : TRes := .trap code 0 s

/-! ## Scalar operands (Table 11.2) -/

/-- The value of a T-source field. -/
def TrowelIssue.src (c : TrowelIssue) (code : BitVec 7) : DWord :=
  let n := code.toNat
  let gx := c.grid.field 0x18 4
  let gy := c.grid.field 0x1C 4
  if n < 16 then (mapGet c.w.t n).getD 0
  else if n = 0x20 then c.w.tflags.setWidth 64
  else if n = 0x21 then BitVec.ofNat 64 (c.team.teamid % gx)
  else if n = 0x22 then BitVec.ofNat 64 (c.team.teamid / gx % gy)
  else if n = 0x23 then BitVec.ofNat 64 (c.team.teamid / gx / gy)
  else if n = 0x24 then BitVec.ofNat 64 c.team.teamid
  else if n = 0x7F then literalOf c.w.imm
  else 0

/-- Register t of a Trowel. -/
def TrowelIssue.treg (c : TrowelIssue) (n : Nat) : DWord := (mapGet c.w.t n).getD 0

/-- A value written to a T-dest field (R270). Writes reach TFLAGS through TMOV alone (R263): another form that names it writes
nothing (log 36). -/
def TrowelIssue.putT (c : TrowelIssue) (d : BitVec 7) (v : DWord) (s : State) : State :=
  if d.toNat < 16 then c.upd (fun w => { w with t := mapSet w.t d.toNat v }) s else s

/-- Flags ORed into TFLAGS (R263). -/
def TrowelIssue.raise (c : TrowelIssue) (f : TFlags) (s : State) : State :=
  c.upd (fun w => { w with tflags := w.tflags ||| f.setWidth 32 }) s

/-! ## Major 0x38 (R270 to R272) -/

/-- TMOV (R270): a write to TFLAGS takes bits [5:0] of a value whose other bits are 0. -/
def execTmov (d a : BitVec 7) (s : State) : Host.Outcome State Fault Refusal :=
  trowelInstr (.tmov d a) s fun c t =>
    if d ≠ 0x20 then .ok (c.putT d (c.src a) t)
    else if (c.src a).extractLsb' 6 58 ≠ 0 then c.fail cTrowelFault t
    else .ok (c.upd (fun w => { w with tflags := (c.src a).setWidth 32 }) t)
/-- TADD (R270). -/
def execTadd (d a b : BitVec 7) (s : State) : Host.Outcome State Fault Refusal :=
  trowelInstr (.tadd d a b) s fun c t => .ok (c.putT d (c.src a + c.src b) t)
/-- TSUB (R270). -/
def execTsub (d a b : BitVec 7) (s : State) : Host.Outcome State Fault Refusal :=
  trowelInstr (.tsub d a b) s fun c t => .ok (c.putT d (c.src a - c.src b) t)
/-- TMUL (R270). -/
def execTmul (d a b : BitVec 7) (s : State) : Host.Outcome State Fault Refusal :=
  trowelInstr (.tmul d a b) s fun c t => .ok (c.putT d (c.src a * c.src b) t)

/-- Whether an address lies in the Trowel stream of a grid (R271). -/
def inTrowelStream (gr : Grid) (a : VAddr) : Bool := decide (gr.tbase ≤ a.toNat) && decide (a.toNat < gr.tbase + gr.tlen)

/-- A branch of the Trowel (R271): a target outside the stream faults whether or not the branch is taken. -/
def TrowelIssue.branch (c : TrowelIssue) (taken : Bool) (o : BitVec 14) (s : State) : TRes :=
  let target : VAddr := c.w.pc + (o.signExtend 57 <<< 2)
  if !inTrowelStream c.grid target then c.fail cTrowelFault s
  else if taken then .goto target s
  else .ok s

/-- TBRNZ (R271). -/
def execTbrnz (r : BitVec 4) (o : BitVec 14) (s : State) : Host.Outcome State Fault Refusal :=
  trowelInstr (.tbrnz r o) s fun c t => c.branch (c.treg r.toNat != 0) o t
/-- TBRA (R271). -/
def execTbra (o : BitVec 14) (s : State) : Host.Outcome State Fault Refusal :=
  trowelInstr (.tbra o) s fun c t => c.branch true o t

/-- TBAR.ARV (R272, R321, R322). -/
def execTbarArv (b : BitVec 4) (a : BitVec 7) (s : State) : Host.Outcome State Fault Refusal :=
  trowelInstr (.tbarArv b a) s fun c t =>
    let n := (c.src a).toNat
    let x := c.team.barrier b.toNat
    if c.grid.ctl 8 5 ≤ b.toNat ∨ !countOk n then c.fail cBarRange t
    else if x.late .trowel t.clk then .again
    else match x.arrive n with
      | none => c.fail cBarCount t
      | some y =>
        .ok (settleWaits c.uid none
          ((c.upd (fun w => { w with arrivals := mapSet w.arrivals b.toNat { arvd := true, aphase := x.phase } }) t).updTeam c.uid
            fun tm => { tm with barriers := mapSet tm.barriers b.toNat (y.mark .trowel t.clk) }))

/-- TBAR.WT (R272, R323): a released phase lets the Trowel go on. -/
def execTbarWt (b : BitVec 4) (s : State) : Host.Outcome State Fault Refusal :=
  trowelInstr (.tbarWt b) s fun c t =>
    if c.grid.ctl 8 5 ≤ b.toNat then c.fail cBarRange t
    else .stay (settleWaits c.uid none (c.upd (fun w =>
      { w with imm := [], pfx := none, status := .waiting b.toNat (targetOf (w.arrival b.toNat) (c.team.barrier b.toNat)) }) t))

/-- TEND (R271). -/
def execTend (s : State) : Host.Outcome State Fault Refusal :=
  trowelInstr .tend s fun c t => .ok (c.upd (fun w => { w with status := .finished }) t)

/-! ## Major 0x39 (R273) -/

/-- A descriptor register of a team. -/
def Team.mreg (t : Team) (n : Nat) : BitVec 128 := (mapGet t.mregs n).getD 0
/-- A descriptor register written. -/
def TrowelIssue.putM (c : TrowelIssue) (n : Nat) (v : BitVec 128) (s : State) : State :=
  s.updTeam c.uid fun t => { t with mregs := mapSet t.mregs n v }

/-- MSET (R273). -/
def execMset (m : BitVec 4) (a b : BitVec 7) (s : State) : Host.Outcome State Fault Refusal :=
  trowelInstr (.mset m a b) s fun c t => .ok (c.putM m.toNat (c.src b ++ c.src a) t)

/-- MADV (R273): OFF and SOFF advanced modulo 2²⁸. -/
def execMadv (m : BitVec 4) (a b : BitVec 7) (s : State) : Host.Outcome State Fault Refusal :=
  trowelInstr (.madv m a b) s fun c t =>
    let v := c.team.mreg m.toNat
    let off : BitVec 28 := v.extractLsb' 100 28 + (c.src a).setWidth 28
    let soff : BitVec 28 := v.extractLsb' 48 28 + (c.src b).setWidth 28
    .ok (c.putM m.toNat (off ++ v.extractLsb' 76 24 ++ soff ++ v.extractLsb' 0 48) t)

/-- Whether a Trowel access to a local offset waits for a frozen vertical bus (R230). -/
def TrowelIssue.frozen (c : TrowelIssue) (s : State) (o : Nat) : Bool := frozenAt s c.team.core [(o : Int)]

/-- MCPY (R273). -/
def execMcpy (m : BitVec 4) (a : BitVec 7) (n : BitVec 2) (s : State) : Host.Outcome State Fault Refusal :=
  trowelInstr (.mcpy m a n) s fun c t =>
    let k := n.toNat + 1
    let o := (c.src a).toNat
    if 16 < m.toNat + k then c.fail cTrowelFault t
    else if o % 16 ≠ 0 then c.fail cMisaligned t
    else if !localOk c.grid o (16 * k) then c.fail cLocalRange t
    else if frozenAt t c.team.core [(o : Int), (o : Int) + 16 * k - 1] then .again
    else .ok ((List.range k).foldl (fun t i =>
      c.putM (m.toNat + i) (BitVec.ofNat 128 (natOfBytes (c.team.locals (o + 16 * i) 16))) t) t)

/-! ## Major 0x37: generators (R285 to R291) -/

/-- A generator register. -/
def Trowel.gen (w : Trowel) (n : Nat) : BitVec 256 := (mapGet w.g n).getD 0
/-- A generator register written. -/
def TrowelIssue.putG (c : TrowelIssue) (n : Nat) (v : BitVec 256) (s : State) : State :=
  c.upd (fun w => { w with g := mapSet w.g n v }) s

/-- Whether GSET takes a control value (R286). -/
def genOk (v : DWord) : Bool :=
  let kind := (v.extractLsb' 12 4).toNat
  let fmt := (v.extractLsb' 8 4).toNat
  decide (kind ≤ 7) && decide (fmt ≠ 7) && decide (fmt ≤ 8) && !(decide (fmt = 6) && (decide (kind = 3) || decide (kind = 4))) &&
    v.extractLsb' 0 5 == 0

/-- GSET (R286). -/
def execGset (g : BitVec 3) (x : BitVec 7) (s : State) : Host.Outcome State Fault Refusal :=
  trowelInstr (.gset g x) s fun c t =>
    if !genOk (c.src x) then c.fail cTrowelFault t
    else .ok (c.putG g.toNat ((c.w.gen g.toNat).extractLsb' 64 192 ++ c.src x) t)

/-- GSEED (R286). -/
def execGseed (g : BitVec 3) (a b : BitVec 7) (s : State) : Host.Outcome State Fault Refusal :=
  trowelInstr (.gseed g a b) s fun c t => .ok (c.putG g.toNat (c.src b ++ c.src a ++ (c.w.gen g.toNat).extractLsb' 0 128) t)

/-- GORG (R286). -/
def execGorg (g : BitVec 3) (a b : BitVec 7) (s : State) : Host.Outcome State Fault Refusal :=
  trowelInstr (.gorg g a b) s fun c t =>
    let v := c.w.gen g.toNat
    .ok (c.putG g.toNat (v.extractLsb' 128 128 ++ (c.src a).setWidth 32 ++ (c.src b).setWidth 32 ++ v.extractLsb' 0 64) t)

end Sys2Proof.Machine
end

