-- ==== Sys2Proof/Machine/Side.lean ====
section
/-! DEFINITION. The operands of tile instructions: tile descriptors with their checks (R265 to R267), generator
values (R287 to R290), and the sides of an MMA read from either (R266, R278, R302). -/

namespace Sys2Proof.Machine

/-! ## Descriptors -/

/-- A tile descriptor (Table 11.4). -/
structure Desc where
  off : Nat
  stride : Nat
  soff : Nat
  boff : Nat
  delta : Int
  fmt : Nat
  rsv : Nat
  deriving DecidableEq, Repr

/-- The descriptor that an m register holds. -/
def descOf (v : BitVec 128) : Desc :=
  { off := (v.extractLsb' 100 28).toNat, stride := (v.extractLsb' 76 24).toNat, soff := (v.extractLsb' 48 28).toNat,
    boff := (v.extractLsb' 20 28).toNat, delta := (v.extractLsb' 12 8).toInt, fmt := (v.extractLsb' 8 4).toNat,
    rsv := (v.extractLsb' 0 8).toNat }

/-- The element size of a format code in nibbles (Table 11.5). -/
def fmtNibs (f : Nat) : Nat := nth [16, 8, 4, 4, 2, 2, 1, 8, 2, 2, 2, 1, 1] f 1
/-- BLK of a format code: element bytes per block; none for a format without blocks. -/
def fmtBlk (f : Nat) : Option Nat := if f = 9 ∨ f = 10 then some 32 else if f = 11 then some 16 else if f = 12 then some 4 else none
/-- Elements per block of a block format (R34, R35). -/
def fmtPerBlock (f : Nat) : Nat := if f = 12 then 8 else 32
/-- The bytes that `n` elements take. -/
def elemBytes (f n : Nat) : Nat := (n * fmtNibs f + 1) / 2
/-- The blocks that `n` elements reach into. -/
def blocksOf (f n : Nat) : Nat := (n + fmtPerBlock f - 1) / fmtPerBlock f
/-- The 64-line groups that `n` lines reach into. -/
def bandsOf (n : Nat) : Nat := (n + 63) / 64

/-- The offset of line `x`. -/
def Desc.line (d : Desc) (x : Nat) : Nat := d.off + x * d.stride
/-- The offset of the block scales of line `x` (R266). -/
def Desc.scaleLine (d : Desc) (x : Nat) : Nat := d.soff + x * (d.stride / (fmtBlk d.fmt).getD 1)

/-- Every range of bytes that the use of a descriptor touches (R266, R267); `bands` tells whether the use reads or writes band
scales, as every one does but a later MMA and the adjoint of an MMA (Table 11.7, R311). -/
def Desc.touches (d : Desc) (lines elems : Nat) (bands : Bool := true) : List (Nat × Nat) :=
  (if elems = 0 then []
    else (List.range lines).map (fun x => (d.line x, elemBytes d.fmt elems)) ++
      (match fmtBlk d.fmt with
       | some _ => (List.range lines).map fun x => (d.scaleLine x, blocksOf d.fmt elems)
       | none => [])) ++
    (if bands ∧ d.fmt = 12 ∧ lines ≠ 0 then [(d.boff, 2 * bandsOf lines)] else [])

/-- The team that a TDELTA names (R267): the own one, or a resident team of the grid on another core of the
cluster. -/
def TrowelIssue.teamAt (c : TrowelIssue) (s : State) (delta : Int) : Option Team :=
  if delta = 0 then s.team? c.uid
  else s.teams.find? fun t =>
    decide (t.grid = c.team.grid) && decide ((t.teamid : Int) = c.team.teamid + delta) && decide (t.core ≠ c.team.core) &&
      decide (t.core / 4 = c.team.core / 4)

/-- The checks of a descriptor (R267), in their order. -/
def TrowelIssue.descFault (c : TrowelIssue) (s : State) (v : BitVec 128) (accepts : Nat → Bool) (lines elems : Nat) (write : Bool)
    (bands : Bool := true) : Option Code :=
  let d := descOf v
  let blk := (fmtBlk d.fmt).getD 1
  if d.rsv ≠ 0 ∨ 12 < d.fmt ∨ !accepts d.fmt ∨ (write ∧ d.delta ≠ 0) then some cTrowelFault
  else if d.off % max 16 blk ≠ 0 ∨ d.stride % 16 ≠ 0 ∨ d.stride % blk ≠ 0 ∨ d.boff % 2 ≠ 0 then some cMisaligned
  else if (c.teamAt s d.delta).isNone then some cRemoteAbsent
  else if (d.touches lines elems bands).any fun r => !localOk c.grid r.1 r.2 || (decide (d.delta ≠ 0) && decide (columnBase < r.1 + r.2)) then
    some cLocalRange
  else none

/-- Whether a use of a descriptor waits for a frozen vertical bus (R230). -/
def TrowelIssue.descFrozen (c : TrowelIssue) (s : State) (v : BitVec 128) (lines elems : Nat) (bands : Bool := true) :
    Bool :=
  decide ((descOf v).delta = 0) && ((descOf v).touches lines elems bands).any fun r => c.frozen s (r.1 + r.2 - 1)

/-- Bytes of the tile a descriptor names, at a local offset. -/
def TrowelIssue.descBytes (c : TrowelIssue) (s : State) (d : Desc) (o n : Nat) : List Byte :=
  ((c.teamAt s d.delta).map fun t => t.locals o n).getD []

/-- The elements packed in bytes (R36). -/
def unpackElems (f n : Nat) (bs : List Byte) : List Nat :=
  let w := fmtNibs f
  if w = 1 then (List.range n).map fun k => (nth bs (k / 2) 0).toNat / 16 ^ (k % 2) % 16
  else (List.range n).map fun k => natOfBytes ((bs.drop (w / 2 * k)).take (w / 2))

/-- The elements of a line of a descriptor's tile. -/
def TrowelIssue.descLine (c : TrowelIssue) (s : State) (d : Desc) (x n : Nat) : List Nat :=
  unpackElems d.fmt n (c.descBytes s d (d.line x) (elemBytes d.fmt n))

/-! ## Formats of elements -/

/-- The element format of a format code: a floating-point one, or none for S32 and S8 (Table 11.5). -/
def fmtOf (f : Nat) : Option Fmt :=
  if f = 0 then some fmtF64 else if f = 1 then some fmtF32 else if f = 2 then some fmtF16 else if f = 3 then some fmtBF16
  else if f = 4 ∨ f = 9 then some fmtE4M3 else if f = 5 ∨ f = 10 then some fmtE5M2
  else if f = 6 ∨ f = 11 ∨ f = 12 then some fmtE2M1 else none

/-- The value of an element of a format code, block scales apart. -/
def elemValue (f bits : Nat) : Num :=
  match fmtOf f with
  | some m => m.value bits
  | none => Num.ofInt (if f = 7 then (BitVec.ofNat 32 bits).toInt else (BitVec.ofNat 8 bits).toInt)

/-- The value of a block scale of a format code: E8M0, where 0xFF makes every element a NaN (R34), or E3M5. -/
def scaleValue (f : Nat) (b : Byte) : Num :=
  if f = 12 then fmtE3M5.value b.toNat else if b = 0xFF then .nan false else .fin false 1 ((b.toNat : Int) - 127)

/-! ## Generators (R287 to R290) -/

/-- Table 11.15 times 10,000. -/
def gaussTable : List Nat :=
  [0, 1573, 3186, 4888, 6745, 8871, 11503, 15341, 18627, 21539, 24175, 26600, 28856, 30969, 32966, 34869]
/-- G[n] rounded RNE to binary32. -/
def gaussEntry (n : Nat) : Nat := (fmtF32.result .rne (quotient false (nth gaussTable n 0) 10000 0)).1
/-- The bits of an arithmetic result in binary32, RNE, its flags not raised. -/
def arith32 (op : FpOp) (a b : Nat) : Nat := (fpArith fmtF32 op .rne a b 0).1
/-- The number of leading 1 bits of a 23-bit value. -/
def leadingOnes (f : Nat) : Nat := ((List.range 23).takeWhile fun k => f.testBit (22 - k)).length

/-- `gauss` (R290). -/
def gauss (h : Nat) : Nat :=
  let f := h % 2 ^ 23
  let n := leadingOnes f
  let (k, t, sh) : Nat × Nat × Nat :=
    if f / 2 ^ 20 ≠ 7 then (f / 2 ^ 20, f % 2 ^ 20, 20)
    else if 10 ≤ n then (14, f % 2 ^ 13, 13)
    else (n + 4, f % 2 ^ (22 - n), 22 - n)
  let tb := (fmtF32.result .rne (.fin false t (-(sh : Int)))).1
  let z := arith32 .add (gaussEntry k) (arith32 .mul tb (arith32 .sub (gaussEntry (k + 1)) (gaussEntry k)))
  if h.testBit 23 then z ^^^ 2 ^ 31 else z

/-- One and minus one in binary32. -/
def one32 : Nat := 0x3F800000

/-- The binary32 value of a generator's kind at (u, v) with its hash (Table 11.13). -/
def kindValue (kind param : Nat) (x : BitVec 64) (u v : Nat) : Nat :=
  let bit (b : Bool) : Nat := if b then one32 else 0
  let rotary (fn : ElemFn) : Nat :=
    let e := (fmtF32.result .rne (.fin false (v / 2 * param) (-8))).1
    let w := (elemResult .exp2 .rne (e ^^^ 2 ^ 31)).1
    let p := (fmtF32.result .rne ((mulNum (Num.ofNat u) (fmtF32.value w)).getD (.fin false 0 0))).1
    (elemResult fn .rne p).1
  if kind = 0 then (if x.getLsbD 63 then one32 + 2 ^ 31 else one32)
  else if kind = 1 then gauss (x.extractLsb' 40 24).toNat
  else if kind = 2 then (fmtF32.result .rne (.fin false (x.extractLsb' 40 24).toNat (-24))).1
  else if kind = 3 then rotary .cospi
  else if kind = 4 then rotary .sinpi
  else if kind = 5 then bit (decide (v ≤ u))
  else if kind = 6 then bit (decide (u - v ≤ param) && decide (v - u ≤ param))
  else bit (decide ((x.extractLsb' 48 16).toNat < param))

/-- The scope value of a generator (Table 11.14). -/
def scopeValue (g : BitVec 256) (teamid : Nat) : BitVec 64 :=
  match (g.extractLsb' 6 2).toNat with
  | 0 => 0
  | 1 => BitVec.ofNat 64 teamid
  | 2 => (g.extractLsb' 32 32).setWidth 64
  | _ => g.extractLsb' 32 32 ++ BitVec.ofNat 32 teamid

/-- The element format code of a generator. -/
def genFmt (g : BitVec 256) : Nat := (g.extractLsb' 8 4).toNat

/-- The bits of element (x, y) of a generator in its format (R287, R289). -/
def genElem (g : BitVec 256) (teamid x y : Nat) : Nat :=
  let r : BitVec 32 := g.extractLsb' 96 32 + BitVec.ofNat 32 x
  let k : BitVec 32 := g.extractLsb' 64 32 + BitVec.ofNat 32 y
  let (u, v) := if g.getLsbD 5 then (k, r) else (r, k)
  let h := stipple64 (g.extractLsb' 128 128) (scopeValue g teamid) u v
  let val := fmtF32.value (kindValue (g.extractLsb' 12 4).toNat (g.extractLsb' 16 16).toNat h u.toNat v.toNat)
  match fmtOf (genFmt g) with
  | some m => (m.convert .rne 0 true val).1
  | none => (BitVec.ofInt 8 (toInteger true 8 .rne val).1).toNat

/-! ## Sides of an MMA -/

/-- One side of an MMA: its format code, its lines of elements below VK, their block scales, the band scales of
the 64-line groups it has read, and the bytes it read (elements, block scales and band scales, R302). -/
structure Side where
  fmt : Nat
  elems : List (List Nat)
  scales : List (List Byte) := []
  bands : List (BitVec 16) := []
  raw : List (List Byte) := []
  deriving DecidableEq, Repr

/-- The element format that a generator has to hold for a side's format code (R286). -/
def sideElemFmt (f : Nat) : Nat := if f = 9 then 4 else if f = 10 then 5 else if f = 11 ∨ f = 12 then 6 else f

/-- Element `k` of line `x`, block scale apart. -/
def Side.elem (d : Side) (x k : Nat) : Num := elemValue d.fmt (nth (nth d.elems x []) k 0)
/-- The block scale of block `b` of line `x`. -/
def Side.scale (d : Side) (x b : Nat) : Num := scaleValue d.fmt (nth (nth d.scales x []) b 0)
/-- Element `k` of line `x` times its block scale (R312). -/
def Side.value (d : Side) (x k : Nat) : Num :=
  match fmtBlk d.fmt with
  | none => d.elem x k
  | some _ => (exactProduct (d.elem x k) (d.scale x (k / fmtPerBlock d.fmt))).1

/-- A side that a generator supplies: `a` tells whether it is the A side (R278, R287). -/
def genSide (g : BitVec 256) (teamid fmt : Nat) (a : Bool) (lines vk : Nat) : Side :=
  { fmt := fmt
    elems := (List.range lines).map fun x => (List.range vk).map fun k => if a then genElem g teamid x k else genElem g teamid k x
    scales := if (fmtBlk fmt).isSome then List.replicate lines (List.replicate (blocksOf fmt vk) (if fmt = 12 then 0x60 else 0x7F)) else []
    bands := [] }

/-- A list of bytes grown to a length. -/
def padTo (n : Nat) (fill : Nat → Byte) (bs : List Byte) : List Byte :=
  bs ++ (List.range (n - bs.length)).map fun k => fill (bs.length + k)

/-- The last nibble of a line of an odd number of E2M1 elements is that of no element: stored as zero (R302). -/
def trimNibble (f n : Nat) (bs : List Byte) : List Byte :=
  if fmtNibs f = 1 ∧ n % 2 = 1 then bs.dropLast ++ [(bs.getLastD 0) &&& 0x0F] else bs

/-- The band scales in some bytes. -/
def bandScales (bs : List Byte) : List (BitVec 16) :=
  (List.range (bs.length / 2)).map fun k => BitVec.ofNat 16 (natOfBytes ((bs.drop (2 * k)).take 2))

/-- A side read at a descriptor that has passed its checks, with the bytes it saves on the tape: K elements and K's
blocks a line, the elements beyond VK zero (R302). The scales of blocks beyond VK, and the band scales where `bands` is not set,
are not read, and are free values on the tape (assumption 18). -/
def TrowelIssue.descSide (c : TrowelIssue) (s : State) (v : BitVec 128) (lines vk kmax : Nat) (bands : Bool := true) : Side :=
  let d := descOf v
  let bytes := (List.range lines).map fun x => trimNibble d.fmt vk (c.descBytes s d (d.line x) (elemBytes d.fmt vk))
  let scales := if (fmtBlk d.fmt).isSome then
      (List.range lines).map fun x => c.descBytes s d (d.scaleLine x) (blocksOf d.fmt vk) else []
  let read := if bands ∧ d.fmt = 12 then c.descBytes s d d.boff (2 * bandsOf lines) else []
  { fmt := d.fmt
    elems := bytes.map fun b => unpackElems d.fmt vk b
    scales := scales
    bands := bandScales read
    raw := [bytes.flatMap fun b => padTo (elemBytes d.fmt kmax) (fun _ => 0) b] ++
      (if (fmtBlk d.fmt).isSome then
        [scales.flatMap fun b => padTo (kmax / fmtPerBlock d.fmt) (fun k => Config.tapeByte s.tick k) b] else []) ++
      (if d.fmt = 12 then [padTo (2 * bandsOf lines) (fun k => Config.tapeByte s.tick k) read] else []) }

end Sys2Proof.Machine
end

