-- ==== Sys2Proof/Machine/Tape.lean ====
section
/-! DEFINITION. The tape (R294 to R307): its accesses, segments, the records that tile instructions append, and
TREC.ON, TREC.OFF and TREC.EXT. -/

namespace Sys2Proof.Machine

/-! ## Accesses to the tape (R295) -/

/-- An access of the Trowel to global memory: the bytes and the state after it, or what the instruction comes to. -/
inductive TapeIO where
  | ok (bs : List Byte) (s : State)
  | stop (r : TRes)

/-- A read of tape memory on path M, at the home L2 (R295). -/
def TrowelIssue.tapeRead (c : TrowelIssue) (s : State) (va n : Nat) : TapeIO :=
  if !leaseOk c.grid none .r va n then .stop (.endTeam cLeaseViolation)
  else match translateAll s c.team.core c.grid.asid c.grid.root false (accessBytes c.grid none va n) with
    | .ok pas s1 => .ok (l2Reads s1 pas) s1
    | .locked => .stop .again
    | .lost => .stop (.endTeam cXlatLost)

/-- A write of tape memory. -/
def TrowelIssue.tapeWrite (c : TrowelIssue) (s : State) (va : Nat) (bs : List Byte) : TapeIO :=
  if !leaseOk c.grid none .w va bs.length then .stop (.endTeam cLeaseViolation)
  else match translateAll s c.team.core c.grid.asid c.grid.root true (accessBytes c.grid none va bs.length) with
    | .ok pas s1 => .ok [] (l2Writes s1 pas bs)
    | .locked => .stop .again
    | .lost => .stop (.endTeam cXlatLost)

/-- What follows an access. -/
def TapeIO.andThen (x : TapeIO) (k : List Byte → State → TRes) : TRes :=
  match x with
  | .ok bs s => k bs s
  | .stop r => r

/-! ## Segments (R297) -/

/-- TAPEBASE and TAPELEN of a record. -/
def Grid.tapeBase (g : Grid) : Nat := g.field 0x68 8
/-- TAPELEN. -/
def Grid.tapeLen (g : Grid) : Nat := g.field 0x70 8

/-- Whether a range is a valid segment. -/
def segmentOk (g : Grid) (base limit : Nat) : Bool :=
  decide (base % 256 = 0) && decide (limit % 256 = 0) && decide (base + 512 ≤ limit) && decide (g.tapeBase ≤ base) &&
    decide (limit ≤ g.tapeBase + g.tapeLen)

/-- The checks of TREC.ON and TREC.EXT, in their order. -/
def segmentFault (g : Grid) (base limit : Nat) : Option Code :=
  if g.tapeLen = 0 then some cTrowelFault
  else if base % 256 ≠ 0 ∨ limit % 256 ≠ 0 then some cMisaligned
  else if !segmentOk g base limit then some cTrowelFault
  else none

/-! ## Records (R299 to R303) -/

/-- What a tile instruction gives its record (R300 to R303): the word, the valid counts, the operands with the bytes
read, the scalar, the captured band scales, the named tile before it, the accumulator input of TACT, and the
slots that a TZERO or TLD starts. -/
structure TileJob where
  word : Word
  valid : DWord := 0
  desc1 : BitVec 128 := 0
  desc2 : BitVec 128 := 0
  gimg1 : Option (BitVec 256) := none
  gimg2 : Option (BitVec 256) := none
  raw1 : Option (List (List Byte)) := none
  raw2 : Option (List (List Byte)) := none
  scal : DWord := 0
  bands : Bool := false
  tile : Option Tile := none
  input : Bool := false
  starts : List Nat := []

/-- The word of an instruction. -/
def wordOf (j : Instr) : Word := (encode j).getD 0

/-- The code of a mode and of a class in TSTATE (Table 12.3). -/
def modeCode (m : TileMode) : Nat :=
  match m with
  | .f32 => 0
  | .f64 => 1
  | .exact => 2
/-- The code of a class. -/
def classCode (c : ChainClass) : Nat :=
  match c with
  | .unset => 0
  | .float => 1
  | .intSat => 2
  | .intWrap => 3
/-- TSTATE of a record (R300, R444). -/
def tstateOf (t : Option Tile) : Nat := (t.map fun t => modeCode t.mode + 4 * classCode t.cls).getD 0

/-- The eight captured band scales of a tile. -/
def Tile.bandList (t : Tile) : List (BitVec 16) :=
  (List.range 4).map (fun g => t.bandA (64 * g)) ++ (List.range 4).map fun g => t.bandB (64 * g)

/-- Whether a descriptor names a remote tile. -/
def remoteDesc (v : BitVec 128) : Bool := v.extractLsb' 12 8 != 0

/-- Whether a memory operand of an MMA is saved (Table 12.5). -/
def savesOperand (tp : TapeCtx) (raw : Option (List (List Byte))) (v : BitVec 128) : Bool :=
  raw.isSome && (tp.polm || remoteDesc v)
/-- Whether the accumulator input of a TACT is saved. -/
def savesInput (tp : TapeCtx) (job : TileJob) : Bool :=
  job.input && (tp.polx || ((job.tile.map fun t => t.covers).getD []).any fun s => !tp.started.getLsbD s)

/-- The 65,536 elements of a float tile in row-major order (R302). -/
def Tile.image (t : Tile) : List Byte :=
  (List.range 65536).flatMap fun k => bytesOfNat (if t.mode = .f64 then 8 else 4) ((mapGet t.cells k).getD t.dflt).bits

/-- The regions of a record's saved parts, in order (R302). -/
def recordRegions (tp : TapeCtx) (job : TileJob) : List (List Byte) :=
  (if savesOperand tp job.raw1 job.desc1 then job.raw1.getD [] else []) ++
    (if savesOperand tp job.raw2 job.desc2 then job.raw2.getD [] else []) ++
    (if savesInput tp job then [((job.tile.map Tile.image).getD [])] else [])

/-- FLAGS of a record (Table 12.3). -/
def recordFlags (tp : TapeCtx) (job : TileJob) : Nat :=
  let bit (b : Bool) (v : Nat) : Nat := if b then v else 0
  bit (savesOperand tp job.raw1 job.desc1) 1 + bit (savesOperand tp job.raw2 job.desc2) 2 + bit job.gimg1.isSome 4 +
    bit job.gimg2.isSome 8 + bit (savesInput tp job) 16 + bit (job.input && !savesInput tp job) 32

/-- The 256-byte units a region takes. -/
def unitsOf (bs : List Byte) : Nat := (bs.length + 255) / 256
/-- LEN of a record. -/
def recordLen (rs : List (List Byte)) : Nat := rs.foldl (fun n r => n + unitsOf r) 1

/-- A record's bytes; those between a region's end and the next boundary are free values (assumption 18). -/
def recordBytes (tp : TapeCtx) (job : TileJob) (tick : Nat) : List Byte :=
  let rs := recordRegions tp job
  let n (k v : Nat) := bytesOfNat k v
  let bands := if job.bands then (job.tile.map Tile.bandList).getD [] else []
  n 4 job.word.toNat ++ n 2 (recordLen rs) ++ n 1 (recordFlags tp job) ++ n 1 (tstateOf job.tile) ++ n 8 job.valid.toNat ++
    n 16 job.desc1.toNat ++ n 16 job.desc2.toNat ++ n 8 job.scal.toNat ++ n 8 tp.last.toNat ++
    n 32 ((job.gimg1.map fun g => g.toNat).getD 0) ++ n 32 ((job.gimg2.map fun g => g.toNat).getD 0) ++
    padTo 16 (fun _ => 0) (bands.flatMap fun b => n 2 b.toNat) ++ n 8 tp.seq ++ List.replicate 104 0 ++
    (rs.zipIdx).flatMap fun r => padTo (256 * unitsOf r.1) (fun k => Config.tapeByte tick (2 ^ 20 * (r.2 + 1) + k)) r.1

/-- The tape state after a record at PTR (Tables 12.1, 12.4). -/
def TapeCtx.append (tp : TapeCtx) (job : TileJob) (len : Nat) : TapeCtx :=
  { tp with
    last := tp.ptr, ptr := tp.ptr + BitVec.ofNat 57 (256 * len), seq := tp.seq + 1
    started := tp.started ||| maskOf 8 job.starts }

/-- The Trowel's tape state replaced. -/
def TrowelIssue.putTape (c : TrowelIssue) (tp : TapeCtx) (s : State) : State := c.upd (fun w => { w with tape := tp }) s

/-- The record written at PTR, then the instruction's effect. -/
def TrowelIssue.writeRecord (c : TrowelIssue) (tp : TapeCtx) (job : TileJob) (s : State) (k : State → TRes) : TRes :=
  (c.tapeWrite s tp.ptr.toNat (recordBytes tp job s.tick)).andThen fun _ s1 =>
    k (c.putTape (tp.append job (recordLen (recordRegions tp job))) s1)

/-- Whether a record of `len` units fits its segment (R306). -/
def TapeCtx.fits (tp : TapeCtx) (len : Nat) : Bool := decide (tp.ptr.toNat + 256 * len + 256 ≤ tp.limit.toNat)

/-- The end of a segment (Table 12.7). -/
def TrowelIssue.chainSegment (c : TrowelIssue) (tp : TapeCtx) (job : TileJob) (s : State) (k : State → TRes) : TRes :=
  let trailer := tp.limit.toNat - 256
  (c.tapeRead s trailer 16).andThen fun bs s1 =>
    let next : DWord := BitVec.ofNat 64 (natOfBytes (bs.take 8))
    let lim := natOfBytes (bs.drop 8)
    let base := (next.extractLsb' 8 49).toNat * 256
    if next = 0 ∧ lim = 0 then .trap cTapeFull (BitVec.ofNat 64 trailer) s
    else if next.getLsbD 0 then k (c.putTape { tp with broken := true, mode := .off } s1)
    else if next.extractLsb' 57 7 ≠ 0 ∨ next.extractLsb' 1 7 ≠ 0 ∨ !segmentOk c.grid base lim ∨
        (base < tp.limit.toNat ∧ tp.seg.toNat < lim) then .trap cTrowelFault 0 s
    else
      (c.tapeWrite s1 (lim - 256) (List.replicate 256 0)).andThen fun _ s2 =>
        let tp1 := { tp with ptr := BitVec.ofNat 57 base, limit := BitVec.ofNat 57 lim, seg := BitVec.ofNat 57 base }
        if tp1.fits (recordLen (recordRegions tp job)) then c.writeRecord tp1 job s2 k
        else .trap cTapeFull (BitVec.ofNat 64 (lim - 256)) (c.putTape tp1 s2)

/-- A tile instruction that has passed its checks: in state REC its record is written first (R299, R306), then it
takes effect. -/
def TrowelIssue.recorded (c : TrowelIssue) (job : TileJob) (s : State) (k : State → TRes) : TRes :=
  let tp := c.w.tape
  if tp.mode ≠ .recording then k s
  else if tp.fits (recordLen (recordRegions tp job)) then c.writeRecord tp job s k
  else c.chainSegment tp job s k

/-! ## TREC (R296 to R298) -/

/-- TREC.ON (R298). -/
def execTrecOn (b l : BitVec 7) (x m : BitVec 1) (s : State) : Host.Outcome State Fault Refusal :=
  trowelInstr (.trecOn b l x m) s fun c t =>
    let base := (c.src b).toNat
    let limit := (c.src l).toNat
    if c.w.tape.mode = .recording then c.fail cTrowelFault t
    else match segmentFault c.grid base limit with
      | some code => c.fail code t
      | none => (c.tapeWrite t (limit - 256) (List.replicate 256 0)).andThen fun _ t1 =>
          .ok (c.putTape
            { mode := .recording, polm := m == 1, polx := x == 1, ptr := BitVec.ofNat 57 base, limit := BitVec.ofNat 57 limit,
              seg := BitVec.ofNat 57 base } t1)

/-- TREC.OFF (R298). -/
def execTrecOff (s : State) : Host.Outcome State Fault Refusal :=
  trowelInstr .trecOff s fun c t =>
    if c.w.tape.mode = .recording then
      .ok (c.putTape { c.w.tape with mode := if c.w.tape.last = 0 then .off else .held } t)
    else .ok t

/-- TREC.EXT (R298): the next segment is armed in the trailer by one 16-byte write. -/
def execTrecExt (b l : BitVec 7) (s : State) : Host.Outcome State Fault Refusal :=
  trowelInstr (.trecExt b l) s fun c t =>
    let base := (c.src b).toNat
    let limit := (c.src l).toNat
    if c.w.tape.mode ≠ .recording then c.fail cTrowelFault t
    else match segmentFault c.grid base limit with
      | some code => c.fail code t
      | none => (c.tapeWrite t (c.w.tape.limit.toNat - 256) (bytesOfNat 8 base ++ bytesOfNat 8 limit)).andThen fun _ t1 => .ok t1

end Sys2Proof.Machine
end

