-- ==== Sys2Proof/Machine/Matrix.lean ====
section
/-! DEFINITION. Tile moves, MMA and elementwise tile operations: majors 0x34 to 0x36 (R274 to R284). Each has its
effect on tiles as a function that replay uses too (R304). -/

namespace Sys2Proof.Machine

/-! ## Shared parts -/

/-- The valid counts of a t register (Table 11.10). -/
structure Valid where
  vr : Nat
  vc : Nat
  vk : Nat
  deriving DecidableEq, Repr

/-- Valid counts with K at most `kmax`; `none` where they raise TROWEL_FAULT. A tile move ignores VK. -/
def validOf (v : DWord) (kmax : Option Nat) : Option Valid :=
  let x : Valid := ⟨(v.extractLsb' 0 16).toNat, (v.extractLsb' 16 16).toNat, (v.extractLsb' 32 16).toNat⟩
  let kOk := match kmax with
    | some k => decide (x.vk ≤ k)
    | none => true
  if v.extractLsb' 48 16 = 0 ∧ x.vr ≤ 256 ∧ x.vc ≤ 256 ∧ kOk = true then some x else none

/-- The tile a slot names for an instruction that accepts some modes (R269). -/
def TrowelIssue.named (c : TrowelIssue) (s : BitVec 3) (modes : TileMode → Bool) : Option Tile :=
  (namedTile c.w.tiles s.toNat).filter fun t => modes t.mode

/-- A tile put back into the store. -/
def TrowelIssue.setTile (c : TrowelIssue) (t : Tile) (s : State) : State := c.upd (fun w => { w with tiles := putTile w.tiles t }) s

/-- Every mode. -/
def anyMode (_ : TileMode) : Bool := true
/-- The float modes. -/
def floatMode (m : TileMode) : Bool := m == .f32 || m == .f64

/-- The rounding mode of an rm3 field, RNE for 000 (R276, R283). -/
def trowelMode (r : BitVec 3) : RMode := rmodeOf r

/-- Bytes written to the own allocation one range after another; with `fill` every granule written is full
afterwards (R276). -/
def TrowelIssue.store (c : TrowelIssue) (ws : List (Nat × List Byte)) (fill : Bool) (s : State) : State :=
  s.updTeam c.uid fun t =>
    let t1 := ws.foldl (fun t x => t.setLocals x.1 x.2) t
    if fill then ws.foldl (fun t x => if x.2 = [] then t else t.setFulls (granules x.1 x.2.length) true) t1 else t1

/-! ## Tile moves (R274 to R277) -/

/-- The tile after a TLD of lines of elements (R275, Table 11.7). -/
def tldTile (t : Tile) (fmt : Nat) (v : Valid) (lines : List (List Nat)) : Tile × TFlags :=
  let elem (x : Nat) : Elem × TFlags :=
    if fmt = 7 then ({ a := BitVec.ofInt 96 (BitVec.ofNat 32 x).toInt }, 0)
    else if fmt = 0 ∨ fmt = 1 then (bitsElem x, 0)
    else
      let (b, fl) := fmtF32.result .rne (elemValue fmt x)
      (bitsElem b, tfl fl)
  let (t1, fl) := t.zeroed.updRegion v.vr v.vc fun i j _ => elem (nth (nth lines i []) j 0)
  ({ t1 with first := true, cls := if fmt = 7 then .intWrap else .unset }, fl)

/-- Whether TLD takes a format into a mode (R275). -/
def tldAccepts (m : TileMode) (f : Nat) : Bool :=
  match m with
  | .f64 => decide (f = 0)
  | .f32 => decide (f = 1 ∨ f = 2 ∨ f = 3)
  | .exact => decide (f = 7)

/-- TLD (R275). -/
def execTld (r : BitVec 4) (sl : BitVec 3) (m : BitVec 4) (s : State) : Host.Outcome State Fault Refusal :=
  trowelInstr (.tld r sl m) s fun c t =>
    let d := c.team.mreg m.toNat
    match validOf (c.treg r.toNat) none, c.named sl anyMode with
    | some v, some tile =>
      match c.descFault t d (tldAccepts tile.mode) v.vr v.vc false with
      | some code => c.fail code t
      | none =>
        if c.descFrozen t d v.vr v.vc then .again
        else c.recorded { word := wordOf (.tld r sl m), valid := c.treg r.toNat, desc1 := d, tile := some tile, starts := tile.covers } t
          fun t1 =>
            let lines := (List.range v.vr).map fun x => c.descLine t (descOf d) x v.vc
            let (u, fl) := tldTile tile (descOf d).fmt v lines
            .ok (c.raise fl (c.setTile u t1))
    | _, _ => c.fail cTrowelFault t

/-- Whether TST takes a tile to a format (Table 11.11). -/
def tstAccepts (t : Tile) (f : Nat) : Bool :=
  match t.mode with
  | .f32 => decide (1 ≤ f ∧ f ≤ 5)
  | .f64 => decide (f ≤ 1)
  | .exact => match t.cls with
    | .intSat | .intWrap => decide (f = 7 ∨ f = 1)
    | _ => decide (f ≤ 5)

/-- The bits of an element that TST stores (R276). -/
def tstElem (t : Tile) (f : Nat) (mode : RMode) (sat : Bool) (i j : Nat) : Nat × FFlags :=
  let x := t.get i j
  match fmtOf f with
  | none => ((t.roundInt x).toNat, 0)
  | some m => match t.mode with
    | .exact => t.roundOut i j x m mode sat
    | _ => m.convert mode 0 sat (t.mode.fmt.value x.bits)

/-- TST (R276). -/
def execTst (m : BitVec 4) (r : BitVec 4) (sl : BitVec 3) (f k : BitVec 1) (rm : BitVec 3) (s : State) :
    Host.Outcome State Fault Refusal :=
  trowelInstr (.tst m r sl f k rm) s fun c t =>
    let d := c.team.mreg m.toNat
    match validOf (c.treg r.toNat) none, c.named sl anyMode with
    | some v, some tile =>
      match c.descFault t d (tstAccepts tile) v.vr v.vc true with
      | some code => c.fail code t
      | none =>
        if c.descFrozen t d v.vr v.vc then .again
        else c.recorded
          { word := wordOf (.tst m r sl f k rm), valid := c.treg r.toNat, desc1 := d, tile := some tile
            bands := decide (tile.mode = .exact) } t fun t1 =>
            let dd := descOf d
            let row (i : Nat) := (List.range v.vc).map fun j => tstElem tile dd.fmt (trowelMode rm) (k == 1) i j
            let rows := (List.range v.vr).map row
            let bytes (x : List (Nat × FFlags)) := x.flatMap fun e => bytesOfNat (fmtNibs dd.fmt / 2) e.1
            let fl := rows.foldl (fun a x => x.foldl (fun a e => a ||| e.2) a) (0 : FFlags)
            .ok (c.raise (tfl fl) (c.store ((rows.zipIdx).map fun x => (dd.line x.2, bytes x.1)) (f == 1) t1))
    | _, _ => c.fail cTrowelFault t

/-- Whether VC fits whole bytes and whole blocks of a format (R277). -/
def copyCountOk (f vc : Nat) : Bool :=
  if (fmtBlk f).isSome then decide (vc % fmtPerBlock f = 0) else if fmtNibs f = 1 then decide (vc % 2 = 0) else true

/-- The ranges a copy of a tile writes with their bytes: rows, block scales, band scales (R277). -/
def TrowelIssue.copyWrites (c : TrowelIssue) (s : State) (src dst : Desc) (v : Valid) : List (Nat × List Byte) :=
  ((src.touches v.vr v.vc).zip (dst.touches v.vr v.vc)).map fun x => (x.2.1, c.descBytes s src x.1.1 x.1.2)

/-- The copy of TCPY and TLDM (R268, R277). -/
def TrowelIssue.copy (c : TrowelIssue) (j : Instr) (dst src : BitVec 4) (f : BitVec 1) (r : BitVec 4) (t : State) : TRes :=
  let ds := c.team.mreg src.toNat
  let dd := c.team.mreg dst.toNat
  match validOf (c.treg r.toNat) none with
  | none => c.fail cTrowelFault t
  | some v =>
    if !copyCountOk (descOf ds).fmt v.vc then c.fail cTrowelFault t
    else match (c.descFault t ds (fun _ => true) v.vr v.vc false).or (c.descFault t dd (fun k => decide (k = (descOf ds).fmt)) v.vr v.vc true) with
      | some code => c.fail code t
      | none =>
        if c.descFrozen t ds v.vr v.vc ∨ c.descFrozen t dd v.vr v.vc then .again
        else c.recorded { word := wordOf j, valid := c.treg r.toNat, desc1 := dd, desc2 := ds } t fun t1 =>
          .ok (c.store (c.copyWrites t (descOf ds) (descOf dd) v) (f == 1) t1)

/-- TCPY (R277). -/
def execTcpy (d a : BitVec 4) (f : BitVec 1) (r : BitVec 4) (s : State) : Host.Outcome State Fault Refusal :=
  trowelInstr (.tcpy d a f r) s fun c t => c.copy (.tcpy d a f r) d a f r t

/-- TLDM (R268): the effect of TCPY. -/
def execTldm (d a : BitVec 4) (f : BitVec 1) (r : BitVec 4) (s : State) : Host.Outcome State Fault Refusal :=
  trowelInstr (.tldm d a f r) s fun c t => c.copy (.tldm d a f r) d a f r t

/-- The mode a TZERO names. -/
def tzeroMode (m : BitVec 2) : TileMode := if m = 0 then .f32 else if m = 1 then .f64 else .exact

/-- The tile a TZERO makes at a slot (R274, Table 11.7): the band scales stay. -/
def tzeroTile (ts : List Tile) (s : Nat) (m : TileMode) : Tile :=
  { slot := s, mode := m, bandsA := (tileAt ts s).bandsA, bandsB := (tileAt ts s).bandsB }

/-- The slots a TZERO covers, with those of older tiles it leaves (R269, R444). -/
def tzeroSlots (ts : List Tile) (t : Tile) : List Nat :=
  (List.range 8).filter fun s => t.covers.contains s || (tileAt ts s).covers.any fun k => t.covers.contains k

/-- TZERO (R274). -/
def execTzero (sl : BitVec 3) (m : BitVec 2) (s : State) : Host.Outcome State Fault Refusal :=
  trowelInstr (.tzero sl m) s fun c t =>
    let tile := tzeroTile c.w.tiles sl.toNat (tzeroMode m)
    if sl.toNat % tile.mode.span ≠ 0 then c.fail cTrowelFault t
    else c.recorded
      { word := wordOf (.tzero sl m), tile := some (tileAt c.w.tiles sl.toNat), starts := tzeroSlots c.w.tiles tile } t
      fun t1 => .ok (c.setTile tile t1)

/-! ## MMA (R278 to R280) -/

/-- The format of A, the format of B and K of an MMA form (Table 11.9). -/
def mmaForm (fn : Nat) : Nat × Nat × Nat :=
  nth [(4, 4, 64), (4, 5, 64), (5, 4, 64), (5, 5, 64), (8, 8, 64), (8, 8, 64), (9, 9, 64), (9, 10, 64), (10, 9, 64), (10, 10, 64),
    (11, 11, 128), (12, 12, 128), (3, 3, 32), (2, 2, 32), (1, 1, 16)] fn (0, 0, 8)
/-- The mode of the tile of an MMA form. -/
def mmaMode (fn : Nat) : TileMode := if fn < 12 then .exact else if fn < 15 then .f32 else .f64
/-- The class of an MMA form. -/
def mmaClass (fn : Nat) : ChainClass := if fn = 4 then .intSat else if fn = 5 then .intWrap else if fn < 12 then .float else .unset

/-- The weight of the least step of an element format. -/
def unitOf (f : Nat) : Int :=
  match fmtOf f with
  | some m => m.minExp
  | none => 0

/-- A block of products enters an element of an EXACT tile (R52): infinities and NaNs by their flags, the sum of the
others at the weight of the block's scales. -/
def enterBlock (a b : Side) (i j blk vk : Nat) (x : Elem) : Elem × TFlags :=
  let n := fmtPerBlock a.fmt
  let ks := (List.range n).map (n * blk + ·) |>.filter fun k => decide (k < vk)
  let sa := a.scale i blk
  let sb := b.scale j blk
  let unit := unitOf a.fmt + unitOf b.fmt
  let scaledElem (d : Side) (line : Nat) (sc : Num) (k : Nat) : Num := if sc.isNan then .nan false else d.elem line k
  let fin (p : Num) : Bool := match p with
    | .fin _ _ _ => true
    | _ => false
  let pairs := ks.map fun k => (scaledElem a i sa k, scaledElem b j sb k)
  let (y, fl) := (pairs.filter fun p => !(fin p.1 && fin p.2)).foldl
    (fun acc p => let (z, g) := acc.1.enterProduct p.1 p.2 unit; (z, acc.2 ||| g)) (x, 0)
  let sum : Int := pairs.foldl (fun v p => match p.1, p.2 with
    | .fin n1 m1 e1, .fin n2 m2 e2 => v + scaled (n1 != n2) (m1 * m2) (e1 + e2) unit
    | _, _ => v) 0
  match sa, sb with
  | .fin _ ma ea, .fin _ mb eb =>
    let (z, g) := if a.fmt = 12 then y.enter (sum * (ma : Int) * (mb : Int) * 2 ^ (ea + 7).toNat * 2 ^ (eb + 7).toNat) (unit - 14)
      else y.enter (sum * (ma : Int) * (mb : Int)) (unit + ea + eb)
    (z, fl ||| g)
  | _, _ => (y, fl)

/-- An element of an EXACT tile after the products of an MMA have entered it, in program order (R51 to R53). -/
def enterExact (a b : Side) (vk i j : Nat) (x : Elem) : Elem × TFlags :=
  let step (f : Nat → Elem → Elem × TFlags) (n : Nat) : Elem × TFlags :=
    (List.range n).foldl (fun acc k => let (y, g) := f k acc.1; (y, acc.2 ||| g)) (x, 0)
  if (fmtBlk a.fmt).isSome then step (fun k y => enterBlock a b i j k vk y) (blocksOf a.fmt vk)
  else step (fun k y => y.enterProduct (a.elem i k) (b.elem j k) (unitOf a.fmt + unitOf b.fmt)) vk

/-- An element of a float tile after an MMA (R56, R57): products of BF16 and FP16 operands are held exactly, those
of FP32 and FP64 rounded; then the chunk's tree, and one addition. -/
def addCanonical (f : Fmt) (a b : Side) (kmax vk i j : Nat) (x : Elem) : Elem × TFlags :=
  let product (k : Nat) : Num × FFlags :=
    if vk ≤ k then (.fin false 0 0, 0)
    else if a.fmt = 2 ∨ a.fmt = 3 then exactProduct (a.elem i k) (b.elem j k)
    else roundProduct f (a.elem i k) (b.elem j k)
  let ps := (List.range kmax).map product
  let (c, fl1) := chunkSum f 8 (ps.map fun p => p.1)
  let (y, fl2) := addRound f (f.value x.bits) c
  let fl := ps.foldl (fun g p => g ||| p.2) (fl1 ||| fl2)
  (bitsElem (f.result .rne y).1, tfl fl)

/-- The four band scales a side captures (Table 11.7): 1.0 for a side that is not TB4, a generator, and a group
without a valid line. -/
def Side.captured (d : Side) : List (BitVec 16) := (List.range 4).map fun g => nth d.bands g 0x3F80

/-- The tile after an MMA (R279). -/
def mmaTile (fn : Nat) (a b : Side) (v : Valid) (t : Tile) : Tile × TFlags :=
  let t1 := if t.first then { t with first := false, cls := mmaClass fn, bandsA := a.captured, bandsB := b.captured } else t
  let (_, _, kmax) := mmaForm fn
  t1.updRegion v.vr v.vc fun i j x =>
    match t.mode with
    | .exact => enterExact a b v.vk i j x
    | m => addCanonical m.fmt a b kmax v.vk i j x

/-- An operand of an MMA: a checked side and what the record keeps of it, or a fault. -/
inductive Operand where
  | side (d : Side) (desc : BitVec 128) (gen : Option (BitVec 256))
  | fault (code : Code)

/-- An operand field read as one side of an MMA (Table 11.2, R267, R278, R286), with its band scales where `bands` is set. -/
def TrowelIssue.operand (c : TrowelIssue) (s : State) (o : BitVec 5) (fmt : Nat) (a bands : Bool) (lines vk kmax : Nat) : Operand :=
  if o.getLsbD 4 then
    let g := c.w.gen (o.toNat % 8)
    if genFmt g ≠ sideElemFmt fmt then .fault cTrowelFault
    else .side (genSide g c.team.teamid fmt a lines vk) 0 (some g)
  else
    let d := c.team.mreg o.toNat
    match c.descFault s d (fun f => decide (f = fmt)) lines vk false bands with
    | some code => .fault code
    | none => .side (c.descSide s d lines vk kmax bands) d none

/-- Whether an operand waits for a frozen vertical bus. -/
def TrowelIssue.operandFrozen (c : TrowelIssue) (s : State) (o : BitVec 5) (bands : Bool) (lines vk : Nat) : Bool :=
  !o.getLsbD 4 && c.descFrozen s (c.team.mreg o.toNat) lines vk bands

/-- Whether a tile takes an MMA of a class (Table 11.7). -/
def chainOk (t : Tile) (fn : Nat) : Bool := t.mode != .exact || t.first || t.cls == mmaClass fn

/-- MMA (R279): a tile's first MMA reads the band scales of its operands, a later one does not (Table 11.7). -/
def execMma (f : BitVec 4) (r : BitVec 4) (sl : BitVec 3) (x y : BitVec 5) (s : State) : Host.Outcome State Fault Refusal :=
  trowelInstr (.mma f r sl x y) s fun c t =>
    let fn := f.toNat
    let (fa, fb, kmax) := mmaForm fn
    match validOf (c.treg r.toNat) (some kmax), c.named sl fun m => m == mmaMode fn with
    | some v, some tile =>
      if !chainOk tile fn then c.fail cTrowelFault t
      else match c.operand t x fa true tile.first v.vr v.vk kmax, c.operand t y fb false tile.first v.vc v.vk kmax with
        | .fault code, _ => c.fail code t
        | _, .fault code => c.fail code t
        | .side a da ga, .side b db gb =>
          if c.operandFrozen t x tile.first v.vr v.vk ∨ c.operandFrozen t y tile.first v.vc v.vk then .again
          else c.recorded
            { word := wordOf (.mma f r sl x y), valid := c.treg r.toNat, desc1 := da, desc2 := db, gimg1 := ga, gimg2 := gb
              raw1 := if ga.isSome then none else some a.raw, raw2 := if gb.isSome then none else some b.raw
              tile := some tile } t fun t1 =>
            let (u, fl) := mmaTile fn a b v tile
            .ok (c.raise fl (c.setTile u t1))
    | _, _ => c.fail cTrowelFault t

/-! ## Elementwise operations (R281 to R284) -/

/-- A tile after TSCL (R281). -/
def tsclTile (x : DWord) (t : Tile) : Tile × TFlags :=
  let f := t.mode.fmt
  let v := if t.mode = .f64 then x.toNat else x.toNat % 2 ^ 32
  t.mapElems fun e => let (b, fl) := fpArith f .mul .rne e.bits v 0; (bitsElem b, tfl fl)

/-- A tile after TBIAS with a vector (R281). -/
def tbiasTile (row : Bool) (v : List Nat) (t : Tile) : Tile × TFlags :=
  t.mapPlaces fun i j e =>
    let (b, fl) := fpArith t.mode.fmt .add .rne e.bits (nth v (if row then i else j) 0) 0
    (bitsElem b, tfl fl)

/-- The activations (R282): 0 relu, 1 silu, 2 sq. -/
def activate (kind : Nat) (f : Fmt) (x : Nat) : Nat × FFlags :=
  let v := f.value x
  if v.isNan then (f.qnan, nvIf v.isSnan)
  else if kind = 0 then (if v.neg? || v.isZero then 0 else x, 0)
  else if kind = 2 then fpArith f .mul .rne x x 0
  else if v.isInf then (if v.neg? then 2 ^ 31 else x, 0)
  else
    let (a, f1) := fpArith fmtF32 .mul .rne x 0x3FB8AA3B 0
    let (e, f2) := elemResult .exp2 .rne (a ^^^ 2 ^ 31)
    let (d, f3) := fpArith fmtF32 .add .rne one32 e 0
    let (y, f4) : Nat × FFlags := match v, fmtF32.value d with
      | .fin n m e, .fin _ md ed => fmtF32.result .rne (if m = 0 then .fin n 0 0 else quotient n m md (e - ed))
      | _, _ => (if v.neg? then 2 ^ 31 else 0, 0)
    (y, f1 ||| f2 ||| f3 ||| f4)

/-- A tile after TACT (R282). -/
def tactTile (kind : Nat) (t : Tile) : Tile × TFlags :=
  t.mapElems fun e => let (b, fl) := activate kind t.mode.fmt e.bits; (bitsElem b, tfl fl)

/-- A transposed tile (R281, R443). -/
def txposeTile (t : Tile) : Tile := { t with cells := t.cells.foldl (fun m c => mapSet m (256 * (c.1 % 256) + c.1 / 256) c.2) [] }

/-- The tile that TCVT leaves in the named slot (R283). -/
def tcvtTile (mode : RMode) (t : Tile) : Tile × TFlags :=
  let t0 := t.spread
  let one (k : Nat) (x : Elem) : Nat × FFlags := match t.mode with
    | .exact => t.roundOut (k / 256) (k % 256) x fmtF32 mode false
    | m => fmtF32.convert mode 0 false (m.fmt.value x.bits)
  let out := t0.cells.map fun c => (c.1, one c.1 c.2)
  ({ t0 with mode := .f32, first := true, cls := .unset
             cells := (out.filter fun c => decide (bitsElem c.2.1 ≠ {})).map fun c => (c.1, bitsElem c.2.1) },
    tfl (out.foldl (fun a c => a ||| c.2.2) 0))

/-- The sum of a line of elements (R284): the tree of R56 for a float tile, the exact sum for an EXACT one. -/
def lineSum (m : TileMode) (l : List Elem) : Elem × TFlags :=
  match m with
  | .exact => match l with
    | [] => ({}, 0)
    | x :: rest => rest.foldl (fun acc y =>
        let (z, g) := acc.1.enter y.a.toInt y.f
        (z.orFlags y, acc.2 ||| g)) (x, 0)
  | _ =>
    let (v, fl) := chunkSum m.fmt 8 (l.map fun e => m.fmt.value e.bits)
    (bitsElem (m.fmt.result .rne v).1, tfl fl)

/-- A tile after TRED (R284): `row` sums each row into column 0, else each column into row 0. -/
def tredTile (row : Bool) (t : Tile) : Tile × TFlags :=
  let sums := (List.range 256).map fun k => lineSum t.mode ((List.range 256).map fun n => if row then t.get k n else t.get n k)
  let fl := sums.foldl (fun a x => a ||| x.2) 0
  t.zeroed.updRegion (if row then 256 else 1) (if row then 1 else 256) fun i j _ => ((nth sums (if row then i else j) ({}, 0)).1, 0)
    |> fun u => (u.1, fl)

/-- An elementwise operation on a named tile (R281). -/
def TrowelIssue.elementwise (c : TrowelIssue) (j : Instr) (sl : BitVec 3) (modes : TileMode → Bool) (job : Tile → TileJob)
    (f : Tile → Tile × TFlags) (t : State) : TRes :=
  match c.named sl modes with
  | none => c.fail cTrowelFault t
  | some tile => c.recorded { job tile with word := wordOf j, tile := some tile } t fun t1 =>
      let (u, fl) := f tile
      .ok (c.raise fl (c.setTile u t1))

/-- TSCL (R281). -/
def execTscl (sl : BitVec 3) (x : BitVec 7) (s : State) : Host.Outcome State Fault Refusal :=
  trowelInstr (.tscl sl x) s fun c t =>
    c.elementwise (.tscl sl x) sl floatMode (fun _ => { word := 0, scal := c.src x }) (tsclTile (c.src x)) t

/-- TBIAS (R281). -/
def execTbias (sl : BitVec 3) (m : BitVec 4) (r : BitVec 1) (s : State) : Host.Outcome State Fault Refusal :=
  trowelInstr (.tbias sl m r) s fun c t =>
    let d := c.team.mreg m.toNat
    match c.named sl floatMode with
    | none => c.fail cTrowelFault t
    | some tile =>
      match c.descFault t d (fun f => decide (f = if tile.mode = .f64 then 0 else 1)) 1 256 false with
      | some code => c.fail code t
      | none =>
        if c.descFrozen t d 1 256 then .again
        else c.elementwise (.tbias sl m r) sl floatMode (fun _ => { word := 0, desc1 := d })
          (tbiasTile (r == 1) (c.descLine t (descOf d) 0 256)) t

/-- TACT (R282). -/
def execTact (sl : BitVec 3) (k : BitVec 2) (s : State) : Host.Outcome State Fault Refusal :=
  trowelInstr (.tact sl k) s fun c t =>
    c.elementwise (.tact sl k) sl (fun m => if k = 1 then m == .f32 else floatMode m) (fun _ => { word := 0, input := true })
      (tactTile k.toNat) t

/-- TXPOSE (R281). -/
def execTxpose (sl : BitVec 3) (s : State) : Host.Outcome State Fault Refusal :=
  trowelInstr (.txpose sl) s fun c t =>
    c.elementwise (.txpose sl) sl anyMode (fun _ => { word := 0 }) (fun u => (txposeTile u, 0)) t

/-- TCVT (R283). -/
def execTcvt (sl : BitVec 3) (m : BitVec 3) (s : State) : Host.Outcome State Fault Refusal :=
  trowelInstr (.tcvt sl m) s fun c t =>
    c.elementwise (.tcvt sl m) sl (fun k => k == .exact || k == .f64) (fun u => { word := 0, bands := decide (u.mode = .exact) })
      (tcvtTile (trowelMode m)) t

/-- TRED (R284). -/
def execTred (sl : BitVec 3) (r : BitVec 1) (s : State) : Host.Outcome State Fault Refusal :=
  trowelInstr (.tred sl r) s fun c t =>
    c.elementwise (.tred sl r) sl anyMode (fun _ => { word := 0 }) (tredTile (r == 1)) t

end Sys2Proof.Machine
end

