-- ==== Sys2Proof/Machine/Adjoint.lean ====
section
/-! DEFINITION. TREV (R308 to R316): the records read back, replay (R304), the gradient bindings (R310, R311), the
adjoints of Table 12.9 and their arithmetic. One step of the machine processes one record (R318). -/

namespace Sys2Proof.Machine

/-- What a part of TREV gives, with the state after it, or what the instruction comes to. -/
abbrev Got (α : Type) := Except TRes (α × State)

/-- A trap of TREV, which leaves REVPTR and every tile as they stand (R309). -/
def trevTrap {α : Type} (code : Code) (faddr : Nat) (s : State) : Got α := .error (.trap code (BitVec.ofNat 64 faddr) s)

/-- A read of the tape. -/
def TrowelIssue.tapeGet (c : TrowelIssue) (s : State) (va n : Nat) : Got (List Byte) :=
  match c.tapeRead s va n with
  | .ok bs s1 => .ok (bs, s1)
  | .stop r => .error r

/-! ## Headers (R300, R309, R444) -/

/-- A record's header (Tables 12.3 and 12.4) at its address. -/
structure TapeHdr where
  addr : Nat
  word : Word
  len : Nat
  flags : Nat
  tstate : Nat
  valid : DWord
  desc1 : BitVec 128
  desc2 : BitVec 128
  scal : DWord
  prev : Nat
  gimg1 : BitVec 256
  gimg2 : BitVec 256
  bands : List (BitVec 16)
  seq : Nat
  rest : Nat
  deriving DecidableEq, Repr

/-- The header found in 256 bytes. -/
def hdrOf (a : Nat) (bs : List Byte) : TapeHdr :=
  let f (o n : Nat) : Nat := natOfBytes ((bs.drop o).take n)
  { addr := a, word := BitVec.ofNat 32 (f 0 4), len := f 4 2, flags := f 6 1, tstate := f 7 1, valid := BitVec.ofNat 64 (f 8 8)
    desc1 := BitVec.ofNat 128 (f 0x10 16), desc2 := BitVec.ofNat 128 (f 0x20 16), scal := BitVec.ofNat 64 (f 0x30 8), prev := f 0x38 8
    gimg1 := BitVec.ofNat 256 (f 0x40 32), gimg2 := BitVec.ofNat 256 (f 0x60 32)
    bands := (List.range 8).map fun k => BitVec.ofNat 16 (f (0x80 + 2 * k) 2), seq := f 0x90 8, rest := f 0x98 104 }

/-- A flag of FLAGS. -/
def TapeHdr.flag (h : TapeHdr) (k : Nat) : Bool := h.flags.testBit k
/-- The mode of the record's tile (R444). -/
def TapeHdr.mode (h : TapeHdr) : TileMode := if h.tstate % 4 = 1 then .f64 else if h.tstate % 4 = 2 then .exact else .f32
/-- The class of the record's tile. -/
def TapeHdr.cls (h : TapeHdr) : ChainClass := nth [.unset, .float, .intSat, .intWrap] (h.tstate / 4 % 4) .unset
/-- Whether the record's tile is of an INT class. -/
def TapeHdr.isInt (h : TapeHdr) : Bool := h.cls == .intSat || h.cls == .intWrap

/-- The bytes of the regions of a saved MMA operand (R302). -/
def regionLens (fmt lines kmax : Nat) : List Nat :=
  [lines * elemBytes fmt kmax] ++ (if (fmtBlk fmt).isSome then [lines * (kmax / fmtPerBlock fmt)] else []) ++
    (if fmt = 12 then [2 * bandsOf lines] else [])
/-- The 256-byte units of some regions. -/
def regionUnits (ls : List Nat) : Nat := ls.foldl (fun n b => n + (b + 255) / 256) 0

/-- The valid counts of a record's form, and the units its saved parts take; `none` where the counts are out of
range. -/
def TapeHdr.parts (h : TapeHdr) (j : Instr) : Option (Valid × Nat) :=
  match j with
  | .mma f _ _ _ _ =>
    let (fa, fb, kmax) := mmaForm f.toNat
    (validOf h.valid (some kmax)).map fun v =>
      (v, (if h.flag 0 then regionUnits (regionLens fa v.vr kmax) else 0) +
        (if h.flag 1 then regionUnits (regionLens fb v.vc kmax) else 0))
  | .tact _ _ => some (⟨0, 0, 0⟩, if h.flag 4 then (if h.mode = .f64 then 2048 else 1024) else 0)
  | .tld _ _ _ | .tst _ _ _ _ _ _ | .tcpy _ _ _ _ | .tldm _ _ _ _ => (validOf h.valid none).map fun v => (v, 0)
  | _ => some (⟨0, 0, 0⟩, 0)

/-- The instruction of a well-formed header with its valid counts (R309, R444). -/
def TapeHdr.wellFormed (h : TapeHdr) : Option (Instr × Valid) :=
  match decodeRaw h.word with
  | none => none
  | some j =>
    match h.parts j with
    | none => none
    | some (v, n) =>
      if legal j && (majorOf j == 0x34 || majorOf j == 0x35 || majorOf j == 0x36) && decide (1 + n ≤ h.len) && decide (h.flags < 64) &&
          decide (h.tstate < 16) && decide (h.tstate % 4 ≠ 3) && decide (h.rest = 0) then some (j, v)
      else none

/-- A header read and checked; one that is not well formed is TAPE_CORRUPT (R309). -/
def TrowelIssue.hdrAt (c : TrowelIssue) (s : State) (a : Nat) : Got (TapeHdr × Instr × Valid) :=
  match c.tapeGet s a 256 with
  | .error r => .error r
  | .ok (bs, s1) => match (hdrOf a bs).wellFormed with
    | some (j, v) => .ok ((hdrOf a bs, j, v), s1)
    | none => trevTrap cTapeCorrupt a s

/-- The named slot of a tile instruction; `none` for TLDM and TCPY. -/
def slotOf (j : Instr) : Option Nat :=
  match j with
  | .tld _ s _ | .tst _ _ s _ _ _ | .tzero s _ | .mma _ _ s _ _ | .tscl s _ | .tbias s _ _ | .tact s _ | .txpose s | .tcvt s _
  | .tred s _ => some s.toNat
  | _ => none

/-- The slots of a tile of a mode that holds a slot. -/
def spanSlots (m : TileMode) (s : Nat) : List Nat := (List.range m.span).map (s - s % m.span + ·)

/-- The slots that a record's tile covers, a TZERO's with those it leaves (R444). -/
def TapeHdr.covers (h : TapeHdr) (j : Instr) : List Nat :=
  match slotOf j with
  | none => []
  | some s => spanSlots h.mode s ++ (match j with
      | .tzero _ m => (List.range (tzeroMode m).span).map (s + ·)
      | _ => [])

/-! ## Operands of a record (R302, R303) -/

/-- A side from its saved regions. -/
def savedSide (fmt lines vk kmax : Nat) (raw : List (List Byte)) : Side :=
  let line (k n : Nat) : List Byte := ((nth raw k []).drop n)
  { fmt := fmt
    elems := (List.range lines).map fun x => unpackElems fmt vk ((line 0 (x * elemBytes fmt kmax)).take (elemBytes fmt kmax))
    scales := if (fmtBlk fmt).isSome then
      (List.range lines).map fun x => (line 1 (x * (kmax / fmtPerBlock fmt))).take (blocksOf fmt vk) else []
    bands := if fmt = 12 then bandScales ((line 2 0).take (2 * bandsOf lines)) else [] }

/-- The regions at a tape address, each on a 256-byte boundary. -/
def TrowelIssue.readRegions (c : TrowelIssue) : List Nat → Nat → State → Got (List (List Byte))
  | [], _, s => .ok ([], s)
  | n :: ns, a, s =>
    match c.tapeGet s a n with
    | .error r => .error r
    | .ok (bs, s1) => match c.readRegions ns (a + 256 * ((n + 255) / 256)) s1 with
      | .error r => .error r
      | .ok (rest, s2) => .ok (bs :: rest, s2)

/-- Operand 1 or 2 of an MMA record: formed again from its generator, read from its saved part, or read again at its
descriptor, which is checked (R303, R313), with its band scales where `bands` is set. -/
def TrowelIssue.recordSide (c : TrowelIssue) (h : TapeHdr) (first bands : Bool) (fmt lines vk kmax at_ : Nat) (s : State) : Got Side :=
  let g := if first then h.gimg1 else h.gimg2
  let d := if first then h.desc1 else h.desc2
  if h.flag (if first then 2 else 3) then
    if genFmt g ≠ sideElemFmt fmt then trevTrap cTrowelFault 0 s else .ok (genSide g c.team.teamid fmt first lines vk, s)
  else if h.flag (if first then 0 else 1) then
    match c.readRegions (regionLens fmt lines kmax) at_ s with
    | .error r => .error r
    | .ok (raw, s1) => .ok (savedSide fmt lines vk kmax raw, s1)
  else match c.descFault s d (fun f => decide (f = fmt)) lines vk false bands with
    | some code => trevTrap code 0 s
    | none => if c.descFrozen s d lines vk bands then .error .again else .ok (c.descSide s d lines vk kmax bands, s)

/-- The operands of an MMA record that are needed, A where `na` is set and B where `nb` is (R303); one that is not is empty. -/
def TrowelIssue.recordSides (c : TrowelIssue) (h : TapeHdr) (na nb bands : Bool) (fn : Nat) (v : Valid) (s : State) :
    Got (Side × Side) :=
  let (fa, fb, kmax) := mmaForm fn
  let at2 := h.addr + 256 + (if h.flag 0 then 256 * regionUnits (regionLens fa v.vr kmax) else 0)
  match if na then c.recordSide h true bands fa v.vr v.vk kmax (h.addr + 256) s else .ok ({ fmt := fa, elems := [] }, s) with
  | .error r => .error r
  | .ok (a, s1) => match if nb then c.recordSide h false bands fb v.vc v.vk kmax at2 s1 else .ok ({ fmt := fb, elems := [] }, s1) with
    | .error r => .error r
    | .ok (b, s2) => .ok ((a, b), s2)

/-! ## Replay (R304) -/

/-- The chain from a record back to the nearest TZERO or TLD whose tile covers a slot of `slots`: the records to
re-execute, the earliest first. -/
def TrowelIssue.chain (c : TrowelIssue) (slots : List Nat) (origin : Nat) :
    Nat → Nat → List (TapeHdr × Instr × Valid) → State → Got (List (TapeHdr × Instr × Valid))
  | 0, _, _, s => trevTrap cTapeCorrupt origin s
  | fuel + 1, a, acc, s =>
    if a = 0 then trevTrap cTapeCorrupt origin s
    else match c.hdrAt s a with
      | .error r => .error r
      | .ok ((h, j, v), s1) =>
        let hits := (h.covers j).any fun k => slots.contains k
        let starts := match j with
          | .tzero _ _ | .tld _ _ _ => true
          | _ => false
        let takes := hits && (starts || majorOf j == 0x35 || majorOf j == 0x36)
        let acc' := if takes then (h, j, v) :: acc else acc
        if hits && starts then .ok (acc', s1) else c.chain slots origin fuel h.prev acc' s1

/-- One record re-executed on the replay group (R304): no memory is written and no flag raised. -/
def TrowelIssue.replayOne (c : TrowelIssue) (base : Nat) (h : TapeHdr) (j : Instr) (v : Valid) (ts : List Tile) (s : State) :
    Got (List Tile) :=
  let slot (n : Nat) : Nat := base + n % 4
  let on (n : Nat) (f : Tile → Tile) : Got (List Tile) :=
    match namedTile ts (slot n) with
    | some t => if t.mode = h.mode then .ok (putTile ts (f t), s) else trevTrap cTrowelFault 0 s
    | none => trevTrap cTrowelFault 0 s
  match j with
  | .tzero n m =>
    let cleared := (h.covers j).foldl (fun ts k => putTile ts { slot := slot k }) ts
    .ok (putTile cleared (tzeroTile cleared (slot n.toNat) (tzeroMode m)), s)
  | .tld _ n _ =>
    match c.descFault s h.desc1 (tldAccepts h.mode) v.vr v.vc false with
    | some code => trevTrap code 0 s
    | none =>
      if c.descFrozen s h.desc1 v.vr v.vc then .error .again
      else
        let lines := (List.range v.vr).map fun x => c.descLine s (descOf h.desc1) x v.vc
        .ok (putTile ts (tldTile { slot := slot n.toNat, mode := h.mode } (descOf h.desc1).fmt v lines).1, s)
  | .mma f _ n _ _ =>
    match namedTile ts (slot n.toNat) with
    | none => trevTrap cTrowelFault 0 s
    | some t =>
      if t.mode ≠ mmaMode f.toNat ∨ !chainOk t f.toNat then trevTrap cTrowelFault 0 s
      else match c.recordSides h true true t.first f.toNat v s with
        | .error r => .error r
        | .ok ((a, b), s1) => .ok (putTile ts (mmaTile f.toNat a b v t).1, s1)
  | .tscl n _ => on n.toNat fun t => (tsclTile h.scal t).1
  | .tbias n _ r =>
    match c.descFault s h.desc1 (fun f => decide (f = if h.mode = .f64 then 0 else 1)) 1 256 false with
    | some code => trevTrap code 0 s
    | none =>
      if c.descFrozen s h.desc1 1 256 then .error .again
      else on n.toNat fun t => (tbiasTile (r == 1) (c.descLine s (descOf h.desc1) 0 256) t).1
  | .tact n k => on n.toNat fun t => (tactTile k.toNat t).1
  | .txpose n => on n.toNat txposeTile
  | .tcvt n m => on n.toNat fun t => (tcvtTile (trowelMode m) t).1
  | .tred n r => on n.toNat fun t => (tredTile (r == 1) t).1
  | _ => .ok (ts, s)

/-- Some records re-executed. -/
def TrowelIssue.replayAll (c : TrowelIssue) (base : Nat) : List (TapeHdr × Instr × Valid) → List Tile → State → Got (List Tile)
  | [], ts, s => .ok (ts, s)
  | (h, j, v) :: rest, ts, s =>
    match c.replayOne base h j v ts s with
    | .error r => .error r
    | .ok (ts1, s1) => c.replayAll base rest ts1 s1

/-! ## Elements in row-major order -/

/-- The elements at some rising keys. -/
def listCells (d : Elem) : List Nat → SMap Elem → List Elem
  | [], _ => []
  | k :: ks, cells =>
    match cells.dropWhile fun c => decide (c.1 < k) with
    | (k', v) :: rest => if k' = k then v :: listCells d ks rest else d :: listCells d ks ((k', v) :: rest)
    | [] => d :: listCells d ks []
/-- The 65,536 elements of a tile in row-major order. -/
def Tile.elems (t : Tile) : List Elem := listCells t.dflt (regionKeys 256 256) t.cells
/-- A tile with the elements of a row-major list. -/
def Tile.ofElems (t : Tile) (es : List Elem) : Tile :=
  { t with dflt := {}, cells := (es.zipIdx.filter fun x => decide (x.1 ≠ {})).map fun x => (x.2, x.1) }

/-- The accumulator input of a TACT record: its saved part, or the tile that replay forms (R303, R304); the second
part is the tile store after it. -/
def TrowelIssue.tactInput (c : TrowelIssue) (h : TapeHdr) (slot : Nat) (replay : Option Nat) (ts : List Tile) (s : State) :
    Got (List Elem × List Tile) :=
  let n := if h.mode = .f64 then 8 else 4
  if h.flag 4 then
    match c.tapeGet s (h.addr + 256) (65536 * n) with
    | .error r => .error r
    | .ok (bs, s1) => .ok (((List.range 65536).map fun k => bitsElem (natOfBytes ((bs.drop (n * k)).take n)), ts), s1)
  else match replay with
    | none => trevTrap cTrowelFault 0 s
    | some base =>
      match c.chain (spanSlots h.mode slot) h.addr (h.seq + 1) h.prev [] s with
      | .error r => .error r
      | .ok (rs, s1) => match c.replayAll base rs ts s1 with
        | .error r => .error r
        | .ok (ts1, s2) => .ok (((tileAt ts1 (base + slot % 4)).elems, ts1), s2)

/-! ## Gradient bindings (R310, R311) -/

/-- A gradient binding entry (Table 12.8). -/
structure Binding where
  foff : Nat
  flen : Nat
  stride : Nat
  fmt : Nat
  slot : Nat
  rsv : Nat
  deriving DecidableEq, Repr

/-- The entry in 32 bytes. -/
def bindingOf (v : BitVec 256) : Binding :=
  { foff := (v.extractLsb' 0 32).toNat, flen := (v.extractLsb' 32 32).toNat, stride := (v.extractLsb' 64 32).toNat,
    fmt := (v.extractLsb' 96 8).toNat, slot := (v.extractLsb' 104 8).toNat, rsv := (v.extractLsb' 112 144).toNat }

/-- Where a gradient lies: the named slot of its tile and the place of its element (0, 0). -/
structure Grad where
  slot : Nat
  row : Nat
  col : Nat
  deriving DecidableEq, Repr

/-- What R311 makes of an operand. -/
inductive Match where
  | found (g : Grad)
  | discarded
  | fault

/-- The gradient of an operand of some lines of elements (R311). -/
def matchOperand (bs : List Binding) (v : BitVec 128) (lines elems : Nat) : Match :=
  let d := descOf v
  if d.delta ≠ 0 ∨ lines = 0 ∨ elems = 0 then .discarded
  else
    let same := bs.filter fun b => decide (b.fmt = d.fmt) && decide (b.stride = d.stride)
    let w := elemBytes d.fmt elems
    let meets (b : Binding) (x : Nat) : Bool := decide (d.line x < b.foff + b.flen) && decide (b.foff < d.line x + w)
    let inside (b : Binding) (x : Nat) : Bool := decide (b.foff ≤ d.line x) && decide (d.line x + w ≤ b.foff + b.flen)
    let xs := List.range lines
    if same.any fun b => xs.any (meets b) && !xs.all (inside b) then .fault
    else match same.find? fun b => xs.all (inside b) with
      | none => .discarded
      | some b =>
        let o := d.off - b.foff
        let g : Grad := { slot := b.slot, row := o / d.stride, col := (if d.stride = 0 then o else o % d.stride) * 2 / fmtNibs d.fmt }
        if 256 < g.row + lines ∨ 256 < g.col + elems then .fault else .found g

/-- The keys of the elements of a gradient. -/
def Grad.keys (g : Grad) (lines elems : Nat) : List Nat :=
  (List.range lines).flatMap fun x => (List.range elems).map fun e => 256 * (g.row + x) + (g.col + e)

/-- The elements of a gradient changed, by line and element. -/
def Grad.upd (g : Grad) (ts : List Tile) (lines elems : Nat) (f : TileMode → Nat → Nat → Elem → Elem × TFlags) : List Tile × TFlags :=
  let t := tileAt ts g.slot
  let (cells, fl) := updCells t.dflt (fun k x => f t.mode (k / 256 - g.row) (k % 256 - g.col) x) (g.keys lines elems) t.cells
  (putTile ts { t with cells := cells }, fl)

/-- An element of a gradient as it is read out: from an EXACT tile, rounded once to binary32 with band scales 1
(R316). -/
def gradRead (m : TileMode) (x : Elem) : Num × FFlags :=
  match m with
  | .exact => let (b, fl) := x.roundOut 0x3F80 0x3F80 fmtF32 .rne false; (fmtF32.value b, fl)
  | m => (m.fmt.value x.bits, 0)

/-- The values of a gradient, by line. -/
def Grad.read (g : Grad) (ts : List Tile) (lines elems : Nat) : List (List Num) × FFlags :=
  let t := tileAt ts g.slot
  let vals := (List.range lines).map fun x => (List.range elems).map fun e => gradRead t.mode (t.get (g.row + x) (g.col + e))
  (vals.map fun l => l.map fun v => v.1, vals.foldl (fun a l => l.foldl (fun a v => a ||| v.2) a) 0)

/-! ## Arithmetic (R314 to R316) -/

/-- The value 1. -/
def oneNum : Num := .fin false 1 0
/-- +0. -/
def zeroNum : Num := .fin false 0 0

/-- `contribution`'s sum over chunks of `n` terms (R315); `fuel` bounds the chunks. -/
def chunkedSum (f : Fmt) (n : Nat) : Nat → List Num → Num → Num × FFlags
  | 0, _, c => (c, 0)
  | fuel + 1, l, c =>
    if l = [] then (c, 0)
    else
      let chunk := l.take n
      let (p, f1) := chunkSum f 8 (chunk ++ List.replicate (n - chunk.length) zeroNum)
      let (c1, f2) := addRound f c p
      let (r, f3) := chunkedSum f n fuel (l.drop n) c1
      (r, f1 ||| f2 ||| f3)

/-- A term of a sum (R315): in an F32 record the multiplier is first rounded to binary32. -/
def gradTerm (f64 : Bool) (u v : Num) : Num × FFlags :=
  if f64 then roundProduct fmtF64 u v
  else
    let (b, f1) := fmtF32.result .rne v
    let (p, f2) := roundProduct fmtF32 u (fmtF32.value b)
    (p, f1 ||| f2)

/-- A term enters an EXACT gradient element (R316): its adjoint value rounded to E5M2, times its multiplier, whose
least step is 2^unit. -/
def enterGrad (unit : Int) (u v : Num) (x : Elem) : Elem × TFlags :=
  if u.isNan then
    let (y, fl) := x.enterProduct zeroNum v (unitOf 5 + unit)
    (y, fl ||| tfl flagNV)
  else
    let (b, f1) := fmtE5M2.convert .rne 0 true u
    let (y, fl) := x.enterProduct (fmtE5M2.value b) v (unitOf 5 + unit)
    (y, fl ||| tfl f1)

/-- A sum of terms enters a gradient element (R315, R316). -/
def enterSum (f64 : Bool) (unit : Int) (terms : List (Num × Num)) (m : TileMode) (x : Elem) : Elem × TFlags :=
  match m with
  | .exact => terms.foldl (fun acc p => let (y, g) := enterGrad unit p.1 p.2 acc.1; (y, acc.2 ||| g)) (x, 0)
  | m =>
    let ts := terms.map fun p => gradTerm f64 p.1 p.2
    let f := if f64 then fmtF64 else fmtF32
    let (c, f1) := chunkedSum f (if f64 then 8 else 16) (ts.length + 1) (ts.map fun t => t.1) zeroNum
    let (y, f2) := addRound m.fmt (m.fmt.value x.bits) c
    (bitsElem (m.fmt.result .rne y).1, tfl (ts.foldl (fun a t => a ||| t.2) (f1 ||| f2)))

/-- A single addition to a gradient element (R315). -/
def enterOne (u : Num) (m : TileMode) (x : Elem) : Elem × TFlags :=
  match m with
  | .exact => enterGrad 0 u oneNum x
  | m =>
    let (y, fl) := addRound m.fmt (m.fmt.value x.bits) u
    (bitsElem (m.fmt.result .rne y).1, tfl fl)

/-- The derivative of an activation at x (R314). -/
def derivative (kind : Nat) (f : Fmt) (x : Nat) : Num × FFlags :=
  let v := f.value x
  if kind = 0 then (if v.isNan || v.neg? || v.isZero then zeroNum else oneNum, 0)
  else if kind = 2 then (match v with
    | .fin n m e => .fin n m (e + 1)
    | w => w, 0)
  else match v with
    | .nan sg => (.nan sg, 0)
    | .inf n => (if n then zeroNum else oneNum, 0)
    | .fin _ _ _ =>
      let (a, f1) := fpArith fmtF32 .mul .rne x 0x3FB8AA3B 0
      let (e, f2) := elemResult .exp2 .rne (a ^^^ 2 ^ 31)
      let (d, f3) := fpArith fmtF32 .add .rne one32 e 0
      let (s, f4) := elemResult .rcp .rne d
      let (p, f5) := fpArith fmtF32 .sub .rne one32 s 0
      let (q, f6) := fpArith fmtF32 .mul .rne x p 0
      let (r, f7) := fpArith fmtF32 .add .rne one32 q 0
      let (y, f8) := fpArith fmtF32 .mul .rne s r 0
      (fmtF32.value y, f1 ||| f2 ||| f3 ||| f4 ||| f5 ||| f6 ||| f7 ||| f8)

/-- The product of an adjoint element with exact factors, rounded once to binary32 (R314). -/
def scaleAdjoint (x : Elem) (fs : List Num) : Elem × TFlags :=
  let (p, f1) := fs.foldl (fun acc v => let (q, g) := exactProduct acc.1 v; (q, acc.2 ||| g)) (fmtF32.value x.bits, (0 : FFlags))
  let (b, f2) := fmtF32.result .rne p
  (bitsElem b, tfl (f1 ||| f2))

/-! ## The adjoint of a record (R312, R313) -/

/-- bf of a record (R312): the two band scales of element (i, j). -/
def TapeHdr.bandFactors (h : TapeHdr) (i j : Nat) : List Num :=
  if h.mode = .exact ∧ h.cls = .float then
    [fmtBF16.value (nth h.bands (i / 64) 0).toNat, fmtBF16.value (nth h.bands (4 + j / 64) 0).toNat]
  else [oneNum, oneNum]

/-- What TREV works on: the map, the bindings, and the replay group where there is one. -/
structure TrevCtx where
  map : BitVec 32
  binds : List Binding
  replay : Option Nat

/-- The adjoint slot of a forward slot (R308). -/
def TrevCtx.slot (k : TrevCtx) (s : Nat) : Option Nat :=
  let n := k.map.toNat / 16 ^ s % 16
  if n < 8 then some n else none
/-- The adjoint tile of a forward slot, where the map gives one. -/
def TrevCtx.tbar (k : TrevCtx) (ts : List Tile) (s : Nat) : Option Tile := (k.slot s).map fun n => tileAt ts n
/-- An element of the adjoint tile; zero where there is none. -/
def tbarAt (t : Option Tile) (i j : Nat) : Num := (t.map fun t => fmtF32.value (t.get i j).bits).getD zeroNum
/-- The adjoint tile of a forward slot changed; without one it reads as zero, its flags rise and the write is discarded. -/
def TrevCtx.setTbar (k : TrevCtx) (ts : List Tile) (s : Nat) (f : Tile → Tile × TFlags) : List Tile × TFlags :=
  match k.tbar ts s with
  | some t => let (u, fl) := f t; (putTile ts u, fl)
  | none => (ts, (f { slot := s }).2)
/-- The adjoint tiles of some slots set to +0. -/
def TrevCtx.zeroTbars (k : TrevCtx) (ts : List Tile) (ss : List Nat) : List Tile :=
  ss.foldl (fun ts s => (k.setTbar ts s fun t => (t.zeroed, 0)).1) ts

/-- What a record's adjoint leaves: the tile store and the flags. -/
abbrev Applied := List Tile × TFlags

/-- The effect of a gradient that is found. -/
def withGrad (m : Match) (ts : List Tile) (f : Grad → Applied) : Applied :=
  match m with
  | .found g => f g
  | _ => (ts, 0)
/-- Whether a match is a fault. -/
def Match.isFault (m : Match) : Bool :=
  match m with
  | .fault => true
  | _ => false
/-- Whether a gradient is found. -/
def Match.isFound (m : Match) : Bool :=
  match m with
  | .found _ => true
  | _ => false
/-- Whether a gradient lies in an EXACT tile. -/
def Match.isExact (m : Match) (ts : List Tile) : Bool :=
  match m with
  | .found g => (tileAt ts g.slot).mode == .exact
  | _ => false

/-- The adjoint of TLD. -/
def tldAdjoint (k : TrevCtx) (h : TapeHdr) (slot : Nat) (v : Valid) (m : Match) (ts : List Tile) : Applied :=
  let t := k.tbar ts slot
  let (ts1, fl) := if h.isInt then (ts, 0) else
    withGrad m ts fun g => g.upd ts v.vr v.vc fun md i j x => enterOne (tbarAt t i j) md x
  (k.zeroTbars ts1 [slot], fl)

/-- The adjoint of TST. -/
def tstAdjoint (k : TrevCtx) (h : TapeHdr) (slot : Nat) (v : Valid) (m : Match) (ts : List Tile) : Applied :=
  withGrad m ts fun g =>
    let (vals, f1) := g.read ts v.vr v.vc
    let (ts1, _) := g.upd ts v.vr v.vc fun _ _ _ _ => ({}, 0)
    let (ts2, f2) := if h.isInt then (ts1, 0) else
      k.setTbar ts1 slot fun t => t.updRegion v.vr v.vc fun i j x =>
        let (p, g1) := (h.bandFactors i j).foldl (fun acc b => let (q, z) := exactProduct acc.1 b; (q, acc.2 ||| z))
          (nth (nth vals i []) j zeroNum, (0 : FFlags))
        let (y, g2) := addRound fmtF32 (fmtF32.value x.bits) p
        (bitsElem (fmtF32.result .rne y).1, tfl (g1 ||| g2))
    (ts2, tfl f1 ||| f2)

/-- The adjoint of TCPY and TLDM. -/
def copyAdjoint (v : Valid) (md ms : Match) (ts : List Tile) : Applied :=
  withGrad md ts fun gd =>
    let (vals, f1) := gd.read ts v.vr v.vc
    let (ts1, _) := gd.upd ts v.vr v.vc fun _ _ _ _ => ({}, 0)
    let (ts2, f2) := withGrad ms ts1 fun gs => gs.upd ts1 v.vr v.vc fun m i j x => enterOne (nth (nth vals i []) j zeroNum) m x
    (ts2, tfl f1 ||| f2)

/-- The adjoint of an MMA of class FLOAT, or of an F32 or F64 tile. -/
def mmaAdjoint (k : TrevCtx) (slot : Nat) (v : Valid) (f64 : Bool) (a b : Side) (ma mb : Match) (ts : List Tile) : Applied :=
  let t := k.tbar ts slot
  let (ts1, f1) := withGrad ma ts fun g => g.upd ts v.vr v.vk fun m i e x =>
    enterSum f64 (unitOf b.fmt) ((List.range v.vc).map fun j => (tbarAt t i j, b.value j e)) m x
  let (ts2, f2) := withGrad mb ts1 fun g => g.upd ts1 v.vc v.vk fun m j e x =>
    enterSum f64 (unitOf a.fmt) ((List.range v.vr).map fun i => (tbarAt t i j, a.value i e)) m x
  (ts2, f1 ||| f2)

/-- The adjoint of TBIAS. -/
def tbiasAdjoint (k : TrevCtx) (slot : Nat) (f64 row : Bool) (m : Match) (ts : List Tile) : Applied :=
  let t := k.tbar ts slot
  withGrad m ts fun g => g.upd ts 1 256 fun md _ e x =>
    enterSum f64 0 ((List.range 256).map fun n => (if row then tbarAt t e n else tbarAt t n e, oneNum)) md x

/-- The adjoint of TRED. -/
def tredAdjoint (row : Bool) (t : Tile) : Tile :=
  t.ofElems ((regionKeys 256 256).map fun n => if row then t.get (n / 256) 0 else t.get 0 (n % 256))

/-- The adjoint of TACT with its accumulator input. -/
def tactAdjoint (kind : Nat) (f : Fmt) (xs : List Elem) (t : Tile) : Tile × TFlags :=
  let out := (t.elems.zip xs).map fun p =>
    let (d, f1) := derivative kind f p.2.bits
    let (y, f2) := scaleAdjoint p.1 [d]
    (y, tfl f1 ||| f2)
  (t.ofElems (out.map fun p => p.1), out.foldl (fun a p => a ||| p.2) 0)

/-- The adjoint of TCVT. -/
def tcvtAdjoint (h : TapeHdr) (t : Tile) : Tile × TFlags :=
  t.mapPlaces fun i j x => scaleAdjoint x (h.bandFactors i j)

/-- Whether an operand is a multiplier that an EXACT gradient takes: E4M3 or E5M2, from memory or from a generator of that format
(R316). -/
def narrowOperand (gen : Bool) (g : BitVec 256) (fmt : Nat) : Bool :=
  let x := if gen then genFmt g else fmt
  x == 4 || x == 5

/-- The adjoint of a record applied to the tile store (Table 12.9), after every check (R313). -/
def TrowelIssue.adjoint (c : TrowelIssue) (k : TrevCtx) (h : TapeHdr) (j : Instr) (v : Valid) (ts : List Tile) (s : State) :
    Got Applied :=
  let mat (d : BitVec 128) (n e : Nat) : Match := matchOperand k.binds d n e
  let done (r : Applied) : Got Applied := .ok (r, s)
  let fault : Got Applied := trevTrap cTrowelFault 0 s
  match j with
  | .tzero _ _ => done (k.zeroTbars ts (h.covers j), 0)
  | .tld _ n _ =>
    let m := mat h.desc1 v.vr v.vc
    if m.isFault then fault else done (tldAdjoint k h n.toNat v m ts)
  | .tst _ _ n _ _ _ =>
    let m := mat h.desc1 v.vr v.vc
    if m.isFault then fault else done (tstAdjoint k h n.toNat v m ts)
  | .tcpy _ _ _ _ | .tldm _ _ _ _ =>
    let md := mat h.desc1 v.vr v.vc
    let ms := mat h.desc2 v.vr v.vc
    if md.isFault || ms.isFault then fault else done (copyAdjoint v md ms ts)
  | .mma f _ n _ _ =>
    let (fa, fb, _) := mmaForm f.toNat
    let ma := if h.flag 2 then Match.discarded else mat h.desc1 v.vr v.vk
    let mb := if h.flag 3 then Match.discarded else mat h.desc2 v.vc v.vk
    if ma.isFault || mb.isFault then fault
    else if f = 4 ∨ f = 5 then done (ts, 0)
    else if (ma.isExact ts && !narrowOperand (h.flag 3) h.gimg2 fb) || (mb.isExact ts && !narrowOperand (h.flag 2) h.gimg1 fa) then fault
    else match c.recordSides h mb.isFound ma.isFound false f.toNat v s with
      | .error r => .error r
      | .ok ((a, b), s1) => .ok (mmaAdjoint k n.toNat v (decide (f.toNat = 15)) a b ma mb ts, s1)
  | .tscl n _ =>
    let x := if h.mode = .f64 then fmtF64.value h.scal.toNat else fmtF32.value (h.scal.toNat % 2 ^ 32)
    done (k.setTbar ts n.toNat fun t => t.mapElems fun e => scaleAdjoint e [x])
  | .tbias n _ r =>
    let m := mat h.desc1 1 256
    if m.isFault then fault else done (tbiasAdjoint k n.toNat (decide (h.mode = .f64)) (r == 1) m ts)
  | .tact n a =>
    if h.flag 5 ∧ k.replay.isNone then fault
    else match c.tactInput h n.toNat k.replay ts s with
      | .error r => .error r
      | .ok ((xs, ts1), s1) => .ok (k.setTbar ts1 n.toNat (tactAdjoint a.toNat h.mode.fmt xs), s1)
  | .txpose n => done (k.setTbar ts n.toNat fun t => (txposeTile t, 0))
  | .tcvt n _ =>
    let (ts1, fl) := k.setTbar ts n.toNat (tcvtAdjoint h)
    done (k.zeroTbars ts1 ((spanSlots h.mode n.toNat).filter fun x => decide (x ≠ n.toNat)), fl)
  | .tred n r => done (k.setTbar ts n.toNat fun t => (tredAdjoint (r == 1) t, 0))
  | _ => done (ts, 0)

/-! ## TREV (R308 to R310) -/

/-- The mapped slots of a map, and whether its nibbles are 0 to 7 or 15. -/
def mapSlots (m : BitVec 32) : Option (List Nat) :=
  let ns := (List.range 8).map fun s => m.toNat / 16 ^ s % 16
  if ns.any fun n => decide (8 ≤ n) && decide (n ≠ 15) then none else some (ns.filter fun n => decide (n < 8))

/-- Whether no element of a list occurs twice. -/
def noTwice (l : List Nat) : Bool :=
  match l with
  | [] => true
  | x :: rest => !rest.contains x && noTwice rest

/-- Whether two bindings' forward ranges overlap. -/
def Binding.meets (a b : Binding) : Bool := decide (a.foff < b.foff + b.flen) && decide (b.foff < a.foff + a.flen)
/-- Whether no two ranges of a list overlap. -/
def apart (l : List Binding) : Bool :=
  match l with
  | [] => true
  | x :: rest => !rest.any (x.meets ·) && apart rest

/-- Whether a binding entry is admitted (R310). -/
def bindingOk310 (ts : List Tile) (mapped : List Nat) (b : Binding) : Bool :=
  decide (b.rsv = 0) && decide (b.flen ≠ 0) && decide (b.fmt ≠ 7) && decide (b.fmt ≤ 12) && decide (b.slot < 8) &&
    !mapped.contains b.slot &&
    (match namedTile ts b.slot with
     | none => false
     | some t => match t.mode with
       | .f32 => true
       | .f64 => decide (b.fmt = 0)
       | .exact => t.cls == .float || t.cls == .unset)

/-- The start of a TREV (R309, R310): its checks, then STATE = REV with the map and the binding table read. -/
def TrowelIssue.trevStart (c : TrowelIssue) (map bind : DWord) (r p : BitVec 1) (s : State) : TRes :=
  let tp := c.w.tape
  let ts := c.w.tiles
  let off := (bind.extractLsb' 0 32).toNat
  let n := (bind.extractLsb' 32 4).toNat
  if tp.broken then .trap cTapeCorrupt 0 s
  else if tp.mode ≠ .held then c.fail cTrowelFault s
  else if map.extractLsb' 32 32 ≠ 0 ∨ bind.extractLsb' 36 28 ≠ 0 ∨ 8 < n then c.fail cTrowelFault s
  else match mapSlots (map.setWidth 32) with
    | none => c.fail cTrowelFault s
    | some mapped =>
      if !noTwice mapped || mapped.any fun m => (namedTile ts m).map (fun t => t.mode) != some .f32 then c.fail cTrowelFault s
      else if off % 32 ≠ 0 then c.fail cMisaligned s
      else if c.grid.field 0x28 4 < off + 32 * n then c.fail cLocalRange s
      else
        let raw := (List.range n).map fun k => BitVec.ofNat 256 (natOfBytes (c.team.locals (off + 32 * k) 32))
        let bs := raw.map bindingOf
        let group := (List.range 4).map (4 * r.toNat + ·)
        if !(bs.all (bindingOk310 ts mapped)) || !apart bs ||
            (p == 1 && group.any fun x => mapped.contains x || bs.any fun b =>
              (tileAt ts b.slot).covers.contains x) then c.fail cTrowelFault s
        else .stay (c.putTape { tp with mode := .reversing, revptr := tp.last, expect := none, map := map.setWidth 32, binds := raw } s)

/-- Whether a header follows the one processed last (R309). -/
def TapeHdr.inOrder (h : TapeHdr) (last : Option Nat) : Bool :=
  (match last with
   | none => true
   | some n => decide (h.seq + 1 = n)) && !(decide (h.prev = 0) && decide (h.seq ≠ 0))

/-- One record of a TREV in progress, or its end (R309). -/
def TrowelIssue.trevStep (c : TrowelIssue) (keep r p : BitVec 1) (s : State) : TRes :=
  let tp := c.w.tape
  if tp.revptr = 0 then
    .ok (c.putTape (if keep = 1 then { tp with mode := .held, expect := none, binds := [], map := 0 }
      else { tp with mode := .off, last := 0, expect := none, binds := [], map := 0 }) s)
  else
    match c.hdrAt s tp.revptr.toNat with
    | .error x => x
    | .ok ((h, j, v), s1) =>
      if !h.inOrder tp.expect then .trap cTapeCorrupt (BitVec.ofNat 64 tp.revptr.toNat) s
      else
        let k : TrevCtx := { map := tp.map, binds := tp.binds.map bindingOf, replay := if p = 1 then some (4 * r.toNat) else none }
        match c.adjoint k h j v c.w.tiles s1 with
        | .error x => x
        | .ok ((ts, fl), s2) =>
          .stay (c.raise fl (c.upd (fun w => { w with
            tiles := ts
            tape := { tp with expect := some h.seq, revptr := BitVec.ofNat 57 (h.prev / 256 * 256) } }) s2))

/-- TREV (R309): started, then resumed record by record until none is left. -/
def execTrev (m b : BitVec 7) (k r p : BitVec 1) (s : State) : Host.Outcome State Fault Refusal :=
  trowelInstr (.trev m b k r p) s fun c t =>
    if c.w.tape.mode = .reversing then c.trevStep k r p t else c.trevStart (c.src m) (c.src b) r p t

end Sys2Proof.Machine
end

