-- ==== Sys2Proof/Machine/Memory.lean ====
section
/-! DEFINITION. Loads, stores, block accesses, atomics, reserved pairs, fences and cache maintenance: majors
0x24 to 0x2D (R233 to R249). -/

namespace Sys2Proof.Machine

/-! ## Scopes -/

/-- Whether a scope reaches beyond the core (Table 13.3): .clu, .twr, .pkg and .sys. -/
def beyondCore (sc : BitVec 3) : Bool := decide (3 ≤ sc.toNat)

/-- The acquire of an LD.acq: beyond the core, later loads refetch (R329, R331). -/
def acquireAt (sc : BitVec 3) (core : Nat) (s : State) : State := if beyondCore sc then dropClean s core else s

/-- FENCE at a scope (R248, R332): every earlier store that the core's L1 holds is performed, and later loads
refetch. -/
def fenceAt (sc : BitVec 3) (core : Nat) (s : State) : State := if beyondCore sc then dropAll s core else s

/-! ## Global loads and stores (R237, R238) -/

/-- A load of every live pair through the core's L1, followed by what an acquire does. -/
def Issue.loadGlobal (c : Issue) (f : BitVec 3) (d b : BitVec 7) (off : Int) (after : State → State) (s : State) : Res :=
  let w := loadWidth f
  let va := c.globalAddr b off w
  if c.live.isEmpty then .ok s
  else (c.globalCheck c.live va w .r).orElse fun _ => c.withToken s fun s =>
    (c.accesses va w false (fun s _ pas => coreLoads s c.team.core pas) c.live s).andThen fun vs s =>
      .ok (c.putLoaded f d vs (after s))

/-- A store of every live pair through the core's L1, after what a release does. -/
def Issue.storeGlobal (c : Issue) (f : BitVec 3) (d b : BitVec 7) (off : Int) (before : State → State) (s : State) : Res :=
  let w := storeWidth f
  let va := c.globalAddr b off w
  if c.live.isEmpty then .ok s
  else (c.globalCheck c.live va w .w).orElse fun _ =>
    (c.accesses va w true (fun s p pas => ([], coreStores s c.team.core pas (c.storeBytes d w p))) c.live (before s)).andThen
      fun _ s => .ok s

/-- LD (R237). -/
def execLd (f : BitVec 3) (d b : BitVec 7) (o : BitVec 9) (s : State) : Host.Outcome State Fault Refusal :=
  groupInstr (.ld f d b o) s fun c t => c.loadGlobal f d b o.toInt id t

/-- ST (R237). -/
def execSt (f : BitVec 3) (d b : BitVec 7) (o : BitVec 9) (s : State) : Host.Outcome State Fault Refusal :=
  groupInstr (.st f d b o) s fun c t => c.storeGlobal f d b o.toInt id t

/-- LD.acq (R238). -/
def execLdAcq (f : BitVec 3) (d b : BitVec 7) (sc : BitVec 3) (o : BitVec 6) (s : State) : Host.Outcome State Fault Refusal :=
  groupInstr (.ldAcq f d b sc o) s fun c t => c.loadGlobal f d b o.toInt (acquireAt sc c.team.core) t

/-- ST.rel (R238). -/
def execStRel (f : BitVec 3) (d b : BitVec 7) (sc : BitVec 3) (o : BitVec 6) (s : State) : Host.Outcome State Fault Refusal :=
  groupInstr (.stRel f d b sc o) s fun c t => c.storeGlobal f d b o.toInt (fenceAt sc c.team.core) t

/-! ## Hawk and column (R239) -/

/-- A local load of every live pair; a .WF access waits for its granules and acts on them in the same step. -/
def Issue.loadLocal (c : Issue) (j : Instr) (f : BitVec 3) (d b : BitVec 7) (off : Int) (s : State) : Res :=
  let w := loadWidth f
  let at_ := c.localAddr b off w
  if c.live.isEmpty then .ok s
  else (c.localCheck c.live at_ w w).orElse fun _ => c.withTokenWf j s fun s =>
    if frozenAt s c.team.core (c.live.map at_) then .again
    else
      let go (n : Option WfNeed) : Res :=
        .ok (c.putLoaded f d (c.live.map fun p => (p, c.team.locals (at_ p).toNat w)) (s.updTeam c.uid fun t => t.wfDone n))
      match c.wfNeed j with
      | none => go none
      | some n => if c.wfGo n s then go (some n) else c.holdWf j s

/-- A local store of every live pair; `fill` sets the full bits after the data. -/
def Issue.storeLocal (c : Issue) (f : BitVec 3) (d b : BitVec 7) (off : Int) (fill : Bool) (s : State) : Res :=
  let w := storeWidth f
  let at_ := c.localAddr b off w
  if c.live.isEmpty then .ok s
  else (c.localCheck c.live at_ w w).orElse fun _ =>
    if frozenAt s c.team.core (c.live.map at_) then .again
    else .ok (s.updTeam c.uid fun t =>
      let t1 := c.live.foldl (fun t p => t.setLocals (at_ p).toNat (c.storeBytes d w p)) t
      if fill then t1.setFulls (c.pairCells at_ w) true else t1)

/-- LDH (R239). -/
def execLdh (f : BitVec 3) (d b o : BitVec 7) (s : State) : Host.Outcome State Fault Refusal :=
  groupInstr (.ldh f d b o) s fun c t => c.loadLocal (.ldh f d b o) f d b o.toInt t

/-- LDH.WF.KEEP (R212, R239). -/
def execLdhWfKeep (f : BitVec 3) (d b o : BitVec 7) (s : State) : Host.Outcome State Fault Refusal :=
  groupInstr (.ldhWfKeep f d b o) s fun c t => c.loadLocal (.ldhWfKeep f d b o) f d b o.toInt t

/-- LDH.WF.CLR (R212, R239). -/
def execLdhWfClr (f : BitVec 3) (d b o : BitVec 7) (s : State) : Host.Outcome State Fault Refusal :=
  groupInstr (.ldhWfClr f d b o) s fun c t => c.loadLocal (.ldhWfClr f d b o) f d b o.toInt t

/-- STH (R239). -/
def execSth (f : BitVec 3) (d b o : BitVec 7) (s : State) : Host.Outcome State Fault Refusal :=
  groupInstr (.sth f d b o) s fun c t => c.storeLocal f d b o.toInt false t

/-- STH.F (R211, R239). -/
def execSthF (f : BitVec 3) (d b o : BitVec 7) (s : State) : Host.Outcome State Fault Refusal :=
  groupInstr (.sthF f d b o) s fun c t => c.storeLocal f d b o.toInt true t

/-! ## Atomics (R242, R243) -/

/-- The new value of an atomic on `w` bits from the old value, b and c (Table 10.4). -/
abbrev AtomOp := (w : Nat) → BitVec w → BitVec w → BitVec w → BitVec w

/-- An atomic of every live pair at the home L2, each seeing the result of the one before it. -/
def Issue.atomic (c : Issue) (w : BitVec 1) (d a b : BitVec 7) (op : Nat × Nat → AtomOp)
    (fl : Nat × Nat → Nat → FFlags) (s : State) : Res :=
  let n := regsOf w
  let va := fun p => c.src64 a p
  if c.live.isEmpty then .ok s
  else (c.globalCheck c.live va (4 * n) .rw).orElse fun _ =>
    (c.accesses va (4 * n) true (fun s p pas =>
        let s1 := dropLines s c.team.core pas
        let old := l2Reads s1 pas
        let new := op p (32 * n) (BitVec.ofNat _ (natOfBytes old)) (BitVec.ofNat _ (c.srcNat b n p))
          (BitVec.ofNat _ (match c.third p with
            | some code => c.srcNat code n p
            | none => 0))
        (old, l2Writes s1 pas (bytesOfNat (4 * n) new.toNat))) c.live s).andThen fun vs s =>
      .ok (c.raise none (fun p => fl p (natOfBytes (bytesOf vs p)))
        (c.putN none d n (fun p => natOfBytes (bytesOf vs p)) s))

/-- No flags. -/
def noFlags (_ : Nat × Nat) (_ : Nat) : FFlags := 0

/-- The lesser of two values, signed or unsigned. -/
def lesser {n : Nat} (unsigned : Bool) (a b : BitVec n) : BitVec n := if (if unsigned then a.ule b else a.sle b) then a else b
/-- The greater of two values, signed or unsigned. -/
def greater {n : Nat} (unsigned : Bool) (a b : BitVec n) : BitVec n := if (if unsigned then a.ule b else a.sle b) then b else a

/-- ATOM.ADD (R242). -/
def execAtomAdd (w : BitVec 1) (d a b : BitVec 7) (s : State) : Host.Outcome State Fault Refusal :=
  groupInstr (.atomAdd w d a b) s fun c t => c.atomic w d a b (fun _ _ x y _ => x + y) noFlags t
/-- ATOM.MIN.S (R242). -/
def execAtomMinS (w : BitVec 1) (d a b : BitVec 7) (s : State) : Host.Outcome State Fault Refusal :=
  groupInstr (.atomMinS w d a b) s fun c t => c.atomic w d a b (fun _ _ x y _ => lesser false x y) noFlags t
/-- ATOM.MIN.U (R242). -/
def execAtomMinU (w : BitVec 1) (d a b : BitVec 7) (s : State) : Host.Outcome State Fault Refusal :=
  groupInstr (.atomMinU w d a b) s fun c t => c.atomic w d a b (fun _ _ x y _ => lesser true x y) noFlags t
/-- ATOM.MAX.S (R242). -/
def execAtomMaxS (w : BitVec 1) (d a b : BitVec 7) (s : State) : Host.Outcome State Fault Refusal :=
  groupInstr (.atomMaxS w d a b) s fun c t => c.atomic w d a b (fun _ _ x y _ => greater false x y) noFlags t
/-- ATOM.MAX.U (R242). -/
def execAtomMaxU (w : BitVec 1) (d a b : BitVec 7) (s : State) : Host.Outcome State Fault Refusal :=
  groupInstr (.atomMaxU w d a b) s fun c t => c.atomic w d a b (fun _ _ x y _ => greater true x y) noFlags t
/-- ATOM.EXCH (R242). -/
def execAtomExch (w : BitVec 1) (d a b : BitVec 7) (s : State) : Host.Outcome State Fault Refusal :=
  groupInstr (.atomExch w d a b) s fun c t => c.atomic w d a b (fun _ _ _ y _ => y) noFlags t
/-- ATOM.CAS (R242). -/
def execAtomCas (w : BitVec 1) (d a b : BitVec 7) (s : State) : Host.Outcome State Fault Refusal :=
  groupInstr (.atomCas w d a b) s fun c t => c.atomic w d a b (fun _ _ x y z => if x = y then z else x) noFlags t
/-- ATOM.AND (R242). -/
def execAtomAnd (w : BitVec 1) (d a b : BitVec 7) (s : State) : Host.Outcome State Fault Refusal :=
  groupInstr (.atomAnd w d a b) s fun c t => c.atomic w d a b (fun _ _ x y _ => x &&& y) noFlags t
/-- ATOM.OR (R242). -/
def execAtomOr (w : BitVec 1) (d a b : BitVec 7) (s : State) : Host.Outcome State Fault Refusal :=
  groupInstr (.atomOr w d a b) s fun c t => c.atomic w d a b (fun _ _ x y _ => x ||| y) noFlags t
/-- ATOM.XOR (R242). -/
def execAtomXor (w : BitVec 1) (d a b : BitVec 7) (s : State) : Host.Outcome State Fault Refusal :=
  groupInstr (.atomXor w d a b) s fun c t => c.atomic w d a b (fun _ _ x y _ => x ^^^ y) noFlags t

/-- The format of ATOM.FADD by its width. -/
def atomFmt (w : BitVec 1) : Fmt := if w = 1 then fmtF64 else fmtF32

/-- ATOM.FADD (R243). -/
def execAtomFadd (w : BitVec 1) (d a b : BitVec 7) (s : State) : Host.Outcome State Fault Refusal :=
  groupInstr (.atomFadd w d a b) s fun c t =>
    let sum (p : Nat × Nat) (x : Nat) := fpArith (atomFmt w) .add (c.mode 0 false p) x (c.srcNat b (regsOf w) p) 0
    c.atomic w d a b (fun p k x _ _ => BitVec.ofNat k (sum p x.toNat).1) (fun p x => (sum p x).2) t

/-! ## Reserved load and conditional store (R244, R245) -/

/-- The reservation of a pair replaced, or dropped. -/
def Issue.reserve (c : Issue) (p : Nat × Nat) (line : Option Nat) (s : State) : State :=
  s.updGroup c.uid c.gid fun g =>
    { g with resv := match line with
        | some l => mapSet g.resv (32 * p.1 + p.2) l
        | none => mapErase g.resv (32 * p.1 + p.2) }

/-- The line a pair holds reserved. -/
def reservedLine (s : State) (uid gid : Nat) (p : Nat × Nat) : Option Nat :=
  ((s.team? uid).bind fun t => t.group? gid).bind fun g => mapGet g.resv (32 * p.1 + p.2)

/-- LR (R244). -/
def execLr (w : BitVec 1) (d a : BitVec 7) (s : State) : Host.Outcome State Fault Refusal :=
  groupInstr (.lr w d a) s fun c t =>
    let n := regsOf w
    let va := fun p => c.src64 a p
    if c.live.isEmpty then .ok t
    else (c.globalCheck c.live va (4 * n) .rw).orElse fun _ => c.withToken t fun t =>
      (c.accesses va (4 * n) false (fun s p pas =>
          let s1 := dropLines s c.team.core pas
          (l2Reads s1 pas, c.reserve p (some (pas.headD 0 / 64)) s1)) c.live t).andThen fun vs s =>
        .ok (c.putN none d n (fun p => natOfBytes (bytesOf vs p)) s)

/-- SC (R244). -/
def execSc (w : BitVec 1) (d a b : BitVec 7) (s : State) : Host.Outcome State Fault Refusal :=
  groupInstr (.sc w d a b) s fun c t =>
    let n := regsOf w
    let va := fun p => c.src64 a p
    if c.live.isEmpty then .ok t
    else (c.globalCheck c.live va (4 * n) .rw).orElse fun _ =>
      (c.accesses va (4 * n) true (fun s p pas =>
          let s1 := dropLines s c.team.core pas
          if reservedLine s1 c.uid c.gid p = some (pas.headD 0 / 64) then
            ([0], c.reserve p none (l2Writes s1 pas (bytesOfNat (4 * n) (c.srcNat b n p))))
          else ([1], c.reserve p none s1)) c.live t).andThen fun vs s =>
        .ok (c.putN none d 1 (fun p => natOfBytes (bytesOf vs p)) s)

/-! ## Block accesses (R240, R241) -/

/-- The element of lane `l` in element bytes, and its scale in scale bytes (Table 10.3). -/
def blockWord (fm : BlockForm) (es ss : List Byte) (l : Nat) : Word :=
  let el := if fm.elems = 32 then (nth es l 0).toNat else (nth es (l / 2) 0).toNat / 16 ^ (l % 2) % 16
  let sc := (nth ss (if fm.scales = 4 then l / 8 else 0) 0).toNat
  BitVec.ofNat 32 (sc * 256 + el)

/-- The element and scale bytes of a block form after its live lanes have stored their words: in each block
with a live lane, the scale is that of its lowest live lane (R241). -/
def blockBytes (fm : BlockForm) (lanes : List Nat) (word : Nat → Word) (es ss : List Byte) : List Byte × List Byte :=
  let span := if fm.scales = 4 then 8 else 32
  let put (e : List Byte) (l : Nat) : List Byte :=
    let v := (word l).toNat
    if fm.elems = 32 then e.set l (BitVec.ofNat 8 v)
    else
      let old := (nth e (l / 2) 0).toNat
      e.set (l / 2) (BitVec.ofNat 8 (if l % 2 = 0 then old / 16 * 16 + v % 16 else old % 16 + v % 16 * 16))
  let scale (k : Nat) (b : Byte) : Byte := match lanes.find? fun l => decide (l / span = k) with
    | some l => (word l).extractLsb' 8 8
    | none => b
  (lanes.foldl put es, ss.mapIdx scale)

/-- The words of the lanes of a loaded block form by member slot. -/
def Issue.putBlocks (c : Issue) (fm : BlockForm) (d : BitVec 7) (vs : Nat → List Byte × List Byte) (s : State) : State :=
  c.put none d (fun p => blockWord fm (vs p.1).1 (vs p.1).2 p.2) s

/-- The checks of a global block form: alignment of elements and scales of each live member context in turn, then the leases
(R235). -/
def Issue.blockCheck (c : Issue) (fm : BlockForm) (a b : BitVec 7) (perm : Perm) : Check :=
  let ps := c.slots.map c.memberPair
  let off (p : Nat × Nat) : Bool := decide ((c.src64 a p).toNat % fm.elems ≠ 0)
  (failAt ps cMisaligned (fun p => off p || decide ((c.src64 b p).toNat % fm.scales ≠ 0))
      (fun p => if off p then c.src64 a p else c.src64 b p)).andThen
    ((c.leaseCheck ps (fun p => c.src64 a p) fm.elems perm).andThen (c.leaseCheck ps (fun p => c.src64 b p) fm.scales perm))

/-- The accesses of a block form, one member context after another (R236): its element bytes and its scale bytes are
translated, and `f` acts on both. -/
def Issue.blockAccesses (c : Issue) (fm : BlockForm) (a b : BitVec 7) (write : Bool)
    (f : State → Nat × Nat → List Nat → List Nat → List Byte × State) : List (Nat × Nat) → State → Accessed
  | [], s => .ok [] s
  | p :: rest, s =>
    let at_ (code : BitVec 7) (n : Nat) := accessBytes c.grid (some (c.group.memberId p.1)) (c.src64 code p).toNat n
    match translateAll s c.team.core c.grid.asid c.grid.root write (at_ a fm.elems ++ at_ b fm.scales) with
    | .locked => .locked
    | .lost => .lost
    | .ok pas s1 =>
      let (v, s2) := f s1 p (pas.take fm.elems) (pas.drop fm.elems)
      match c.blockAccesses fm a b write f rest s2 with
      | .ok vs s3 => .ok ((p, v) :: vs) s3
      | .locked => .locked
      | .lost => .lost

/-- A core's load of a block form's bytes, each block one unit with its scale (R37). -/
def blockLoad (core : Nat) (s : State) (_p : Nat × Nat) (es ss : List Nat) : List Byte × State :=
  coreLoads (blockSync s core (es ++ ss)) core (es ++ ss)

/-- A global block load: LDB. -/
def Issue.loadBlocks (c : Issue) (fm : BlockForm) (d a b : BitVec 7) (s : State) : Res :=
  let ps := c.slots.map c.memberPair
  if c.live.isEmpty then .ok s
  else (c.blockCheck fm a b .r).orElse fun _ => c.withToken s fun s =>
    (c.blockAccesses fm a b false (blockLoad c.team.core) ps s).andThen fun vs s =>
      .ok (c.putBlocks fm d (fun e =>
        let bs := bytesOf vs (c.memberPair e)
        (bs.take fm.elems, bs.drop fm.elems)) s)

/-- The bytes of a block form that its live lanes cover: those of elements, and those of scales. -/
def blockCovers (fm : BlockForm) (lanes : List Nat) : List Nat × List Nat :=
  let span := if fm.scales = 4 then 8 else 32
  ((List.range fm.elems).filter fun k => lanes.any fun l => decide ((if fm.elems = 32 then l else l / 2) = k),
    (List.range fm.scales).filter fun k => lanes.any fun l => decide (l / span = k))

/-- A list restricted to some places. -/
def pick {α : Type} (l : List α) (ks : List Nat) : List α := ks.filterMap fun k => l[k]?

/-- The lanes of a block of a block form, among the live lanes of a member context. -/
def BlockForm.lanesOf (fm : BlockForm) (lanes : List Nat) (k : Nat) : List Nat :=
  lanes.filter fun l => decide (l / (if fm.scales = 4 then 8 else 32) = k)

/-- One block with a live lane stored by a core: the element bytes of its live lanes, then its scale, as one unit (R37,
R241). -/
def Issue.storeBlock (c : Issue) (fm : BlockForm) (d : BitVec 7) (e : Nat) (es ss : List Nat) (s : State) (k : Nat) : State :=
  let lanes := fm.lanesOf (c.lanes e) k
  let new := blockBytes fm lanes (fun l => c.src d (e, l)) (es.map (coreView s c.team.core)) (List.replicate fm.scales 0)
  let (ke, ks) := blockCovers fm lanes
  let s1 := coreStores (coreStores s c.team.core (pick es ke) (pick new.1 ke)) c.team.core (pick ss ks) (pick new.2 ks)
  if lanes = [] then s else blockBond s1 c.team.core (pick es ke ++ pick ss ks)

/-- A global block store: STB. The blocks with a live lane are stored one after another (R236, R241). -/
def Issue.storeBlocks (c : Issue) (fm : BlockForm) (d a b : BitVec 7) (s : State) : Res :=
  if c.live.isEmpty then .ok s
  else (c.blockCheck fm a b .w).orElse fun _ =>
    (c.blockAccesses fm a b true (fun s p es ss => ([], (List.range fm.scales).foldl (c.storeBlock fm d p.1 es ss) s))
      (c.slots.map c.memberPair) s).andThen fun _ s => .ok s

/-- The local offsets E and S of a member context (R240). -/
def Issue.blockOffs (c : Issue) (a : BitVec 7) (p : Nat × Nat) : Nat × Nat := ((c.reg a 0 p).toNat, (c.reg a 1 p).toNat)

/-- The checks of a local block form. -/
def Issue.blockCheckLocal (c : Issue) (fm : BlockForm) (a : BitVec 7) : Check :=
  let ps := c.slots.map c.memberPair
  let bad (n : Nat) (o : Nat) : Bool := !localOk c.grid o n
  (failAt ps cMisaligned (fun p => decide ((c.blockOffs a p).1 % fm.elems ≠ 0) || decide ((c.blockOffs a p).2 % fm.scales ≠ 0))
      (fun p => BitVec.ofNat 64 (if (c.blockOffs a p).1 % fm.elems ≠ 0 then (c.blockOffs a p).1 else (c.blockOffs a p).2))).andThen
    (failAt ps cLocalRange (fun p => bad fm.elems (c.blockOffs a p).1 || bad fm.scales (c.blockOffs a p).2)
      (fun p => BitVec.ofNat 64 (if bad fm.elems (c.blockOffs a p).1 then (c.blockOffs a p).1 else (c.blockOffs a p).2)))

/-- The offsets a local block form touches, for the freeze of R230. -/
def Issue.blockInts (c : Issue) (a : BitVec 7) : List Int :=
  (c.slots.map c.memberPair).flatMap fun p => [((c.blockOffs a p).1 : Int), ((c.blockOffs a p).2 : Int)]

/-- A local block load: LDHB. -/
def Issue.loadBlocksLocal (c : Issue) (j : Instr) (fm : BlockForm) (d a : BitVec 7) (s : State) : Res :=
  if c.live.isEmpty then .ok s
  else (c.blockCheckLocal fm a).orElse fun _ => c.withTokenWf j s fun s =>
    if frozenAt s c.team.core (c.blockInts a) then .again
    else
      let go (n : Option WfNeed) : Res :=
        .ok (c.putBlocks fm d (fun e =>
          let o := c.blockOffs a (c.memberPair e)
          (c.team.locals o.1 fm.elems, c.team.locals o.2 fm.scales)) (s.updTeam c.uid fun t => t.wfDone n))
      match c.wfNeed j with
      | none => go none
      | some n => if c.wfGo n s then go (some n) else c.holdWf j s

/-- One block with a live lane stored at local offsets: the element bytes of its live lanes, then its scale; with `fill` their
granules are set full after the data (R241). -/
def Issue.storeBlockLocal (c : Issue) (fm : BlockForm) (d a : BitVec 7) (fill : Bool) (e : Nat) (t : Team) (k : Nat) : Team :=
  let o := c.blockOffs a (c.memberPair e)
  let lanes := fm.lanesOf (c.lanes e) k
  let new := blockBytes fm lanes (fun l => c.src d (e, l)) (t.locals o.1 fm.elems) (List.replicate fm.scales 0)
  let (ke, ks) := blockCovers fm lanes
  let t1 := ke.foldl (fun t j => t.setLocal (o.1 + j) (nth new.1 j 0)) t
  let t2 := ks.foldl (fun t j => t.setLocal (o.2 + j) (nth new.2 j 0)) t1
  if fill then (ke.map (o.1 + ·) ++ ks.map (o.2 + ·)).foldl (fun t k => t.setFull k true) t2 else t2

/-- A local block store: STHB; `fill` sets the full bits of every granule written, after the data. -/
def Issue.storeBlocksLocal (c : Issue) (fm : BlockForm) (d a : BitVec 7) (fill : Bool) (s : State) : Res :=
  if c.live.isEmpty then .ok s
  else (c.blockCheckLocal fm a).orElse fun _ =>
    if frozenAt s c.team.core (c.blockInts a) then .again
    else .ok (s.updTeam c.uid fun t => c.slots.foldl (fun t e =>
      (List.range fm.scales).foldl (c.storeBlockLocal fm d a fill e) t) t)

/-- LDB.MX8 (R240, R241). -/
def execLdbMx8 (d a b : BitVec 7) (s : State) : Host.Outcome State Fault Refusal :=
  groupInstr (.ldbMx8 d a b) s fun c t => c.loadBlocks formMx8 d a b t
/-- LDB.MX4. -/
def execLdbMx4 (d a b : BitVec 7) (s : State) : Host.Outcome State Fault Refusal :=
  groupInstr (.ldbMx4 d a b) s fun c t => c.loadBlocks formMx4 d a b t
/-- LDB.TB4. -/
def execLdbTb4 (d a b : BitVec 7) (s : State) : Host.Outcome State Fault Refusal :=
  groupInstr (.ldbTb4 d a b) s fun c t => c.loadBlocks formTb4 d a b t
/-- STB.MX8 (R240, R241). -/
def execStbMx8 (d a b : BitVec 7) (s : State) : Host.Outcome State Fault Refusal :=
  groupInstr (.stbMx8 d a b) s fun c t => c.storeBlocks formMx8 d a b t
/-- STB.MX4. -/
def execStbMx4 (d a b : BitVec 7) (s : State) : Host.Outcome State Fault Refusal :=
  groupInstr (.stbMx4 d a b) s fun c t => c.storeBlocks formMx4 d a b t
/-- STB.TB4. -/
def execStbTb4 (d a b : BitVec 7) (s : State) : Host.Outcome State Fault Refusal :=
  groupInstr (.stbTb4 d a b) s fun c t => c.storeBlocks formTb4 d a b t
/-- LDHB.MX8, with its .WF qualifiers (R240, R241). -/
def execLdhbMx8 (d a : BitVec 7) (q : BitVec 2) (s : State) : Host.Outcome State Fault Refusal :=
  groupInstr (.ldhbMx8 d a q) s fun c t => c.loadBlocksLocal (.ldhbMx8 d a q) formMx8 d a t
/-- LDHB.MX4. -/
def execLdhbMx4 (d a : BitVec 7) (q : BitVec 2) (s : State) : Host.Outcome State Fault Refusal :=
  groupInstr (.ldhbMx4 d a q) s fun c t => c.loadBlocksLocal (.ldhbMx4 d a q) formMx4 d a t
/-- LDHB.TB4. -/
def execLdhbTb4 (d a : BitVec 7) (q : BitVec 2) (s : State) : Host.Outcome State Fault Refusal :=
  groupInstr (.ldhbTb4 d a q) s fun c t => c.loadBlocksLocal (.ldhbTb4 d a q) formTb4 d a t
/-- STHB.MX8, with its .F qualifier (R240, R241). -/
def execSthbMx8 (d a : BitVec 7) (q : BitVec 2) (s : State) : Host.Outcome State Fault Refusal :=
  groupInstr (.sthbMx8 d a q) s fun c t => c.storeBlocksLocal formMx8 d a (q == 1) t
/-- STHB.MX4. -/
def execSthbMx4 (d a : BitVec 7) (q : BitVec 2) (s : State) : Host.Outcome State Fault Refusal :=
  groupInstr (.sthbMx4 d a q) s fun c t => c.storeBlocksLocal formMx4 d a (q == 1) t
/-- STHB.TB4. -/
def execSthbTb4 (d a : BitVec 7) (q : BitVec 2) (s : State) : Host.Outcome State Fault Refusal :=
  groupInstr (.sthbTb4 d a q) s fun c t => c.storeBlocksLocal formTb4 d a (q == 1) t

/-! ## Fences and cache maintenance (R247 to R249) -/

/-- FENCE (R248, R332). -/
def execFence (sc : BitVec 3) (s : State) : Host.Outcome State Fault Refusal :=
  groupInstr (.fence sc) s fun c t => if c.live.isEmpty then .ok t else .ok (fenceAt sc c.team.core t)

/-- Whether accesses that a group has commanded on a path are not yet done (R247, R248): on H its Hod commands and the walk
of the channel, on B its halo operations, on W its reflections. Stores of V stand in the L1, and those of M and C are done in
the step that makes them. -/
def Issue.pathBusy (c : Issue) (p : BitVec 6) (s : State) : Bool :=
  match p.toNat with
  | 2 => (c.team.hods.any fun h => decide (h.gid = c.gid)) || (c.team.hodch.busy && decide (c.team.hodch.gid = c.gid))
  | 4 => c.team.beads.any fun b => decide (b.gid = c.gid)
  | 32 => s.undelivered.any fun w => decide (w.1 = c.uid) && decide (w.2.1 = c.gid)
  | _ => false

/-- FENCE.X (R248): from another path, it waits until what the group has commanded there is done; from path V, the L1's
stores reach the home L2, where the other paths read; to path V from another, later loads refetch; between V and V it is a
FENCE. -/
def execFenceX (sc : BitVec 3) (p q : BitVec 6) (s : State) : Host.Outcome State Fault Refusal :=
  groupInstr (.fenceX sc p q) s fun c t =>
    if c.live.isEmpty then .ok t
    else if c.pathBusy p t then .hold 0 t
    else if p = 1 then .ok (if q = 1 then fenceAt sc c.team.core t else writeBackAll t c.team.core)
    else if q = 1 then .ok (dropAll t c.team.core)
    else .ok t

/-- FENCE.W (R248, R337): it waits until every earlier WST of the group has arrived, and is cumulative as
FENCE.sys is. -/
def execFenceW (s : State) : Host.Outcome State Fault Refusal :=
  groupInstr .fenceW s fun c t =>
    if c.live.isEmpty then .ok t
    else if t.undelivered.any fun w => decide (w.1 = c.uid) && decide (w.2.1 = c.gid) then .hold 0 t
    else .ok (dropAll t c.team.core)

/-- The line a cache instruction names, where its address is canonical, aligned, leased and mapped (R249). -/
def Issue.cacheLine (c : Issue) (a : BitVec 7) (s : State) : Option Nat × State :=
  let va := (c.groupValue64 a).toNat
  let member := (c.lead).map fun p => c.group.memberId p.1
  if va % 64 ≠ 0 ∨ !leaseOk c.grid member .r va 1 then (none, s)
  else match translateAll s c.team.core c.grid.asid c.grid.root false (accessBytes c.grid member va 1) with
    | .ok [pa] s1 => (some (pa / 64), s1)
    | _ => (none, s)

/-- A cache instruction on one line; an address it cannot use is dropped. -/
def Issue.cacheOp (c : Issue) (a : BitVec 7) (f : State → Nat → State) (s : State) : Res :=
  if c.live.isEmpty then .ok s
  else match c.cacheLine a s with
    | (some ln, s1) => .ok (f s1 ln)
    | (none, s1) => .ok s1

/-- CWB.L1 (R249): one line, or every line of the core's L1. -/
def execCwbL1 (a : BitVec 7) (s : State) : Host.Outcome State Fault Refusal :=
  groupInstr (.cwbL1 a) s fun c t =>
    if a = 0x7E then .ok (if c.live.isEmpty then t else writeBackAll t c.team.core)
    else c.cacheOp a (fun t ln => writeBackLine t c.team.core ln) t

/-- CINV.L1 (R249). -/
def execCinvL1 (a : BitVec 7) (s : State) : Host.Outcome State Fault Refusal :=
  groupInstr (.cinvL1 a) s fun c t =>
    if a = 0x7E then .ok (if c.live.isEmpty then t else dropAll t c.team.core)
    else c.cacheOp a (fun t ln => dropLine t c.team.core ln) t

/-- CWB.L2 (R249): the dirty sectors of the 256-byte line are written to memory. -/
def execCwbL2 (a : BitVec 7) (s : State) : Host.Outcome State Fault Refusal :=
  groupInstr (.cwbL2 a) s fun c t =>
    c.cacheOp a (fun t ln => { t with l2Dirty := t.l2Dirty.filter fun k => decide (k / 4 ≠ ln / 4) }) t

/-- PREF.L1 (R113, R249). -/
def execPrefL1 (a : BitVec 7) (s : State) : Host.Outcome State Fault Refusal :=
  groupInstr (.prefL1 a) s fun c t => c.cacheOp a (fun t ln => coreFill t c.team.core (64 * ln)) t

/-- PREF.L2 (R113, R249): the L2's contents are those of memory. -/
def execPrefL2 (a : BitVec 7) (s : State) : Host.Outcome State Fault Refusal :=
  groupInstr (.prefL2 a) s fun c t => c.cacheOp a (fun t _ => t) t

end Sys2Proof.Machine
end

