-- ==== Sys2Proof/Machine/Window.lean ====
section
/-! DEFINITION. The window map (R343 to R346) and WST (R246). -/

namespace Sys2Proof.Machine

/-! ## Entries -/

/-- A field of a 256-bit register or entry. -/
def fld256 (v : BitVec 256) (lo len : Nat) : Nat := v.toNat / 2 ^ lo % 2 ^ len

/-- A transmit entry (Table 14.3). -/
def State.txEntry (s : State) (i : Nat) : BitVec 256 := (mapGet s.txw i).getD 0
/-- A receive entry (Table 14.4). -/
def State.rxEntry (s : State) (i : Nat) : BitVec 256 := (mapGet s.rxw i).getD 0

/-- EN of a transmit or a receive entry. -/
def winEn (v : BitVec 256) : Bool := v.getLsbD 0
/-- W of a transmit entry. -/
def txW (v : BitVec 256) : Bool := v.getLsbD 1
/-- ASID of a transmit entry. -/
def txAsid (v : BitVec 256) : Nat := fld256 v 32 12
/-- VBASE of a transmit entry. -/
def txBase (v : BitVec 256) : Nat := fld256 v 64 57
/-- LEN of an entry. -/
def winLen (v : BitVec 256) : Nat := fld256 v 128 40
/-- DCHIP of a transmit entry. -/
def txChip (v : BitVec 256) : Nat := fld256 v 176 10
/-- RXIDX of a transmit entry. -/
def txRx (v : BitVec 256) : Nat := fld256 v 192 9

/-- The transmit entry that a WST of `w` bytes at an address uses (R346): enabled, writable, of the work's ASID,
and holding every byte. -/
def State.window? (s : State) (asid : BitVec 12) (va w : Nat) : Option Nat :=
  (s.txw.find? fun e =>
    winEn e.2 && txW e.2 && decide (txAsid e.2 = asid.toNat) && decide (txBase e.2 ≤ va) &&
      decide (va + w ≤ txBase e.2 + winLen e.2)).map fun e => e.1

/-! ## WST (R246) -/

/-- The reflection of the bytes of one access, sent towards its destination (R346). -/
def reflect (s : State) (c : Issue) (va : Nat) (bs : List Byte) : State :=
  match s.window? c.grid.asid va bs.length with
  | none => s
  | some i =>
    let e := s.txEntry i
    let f : Flit :=
      { serial := s.nextFlit, dchip := BitVec.ofNat 10 (txChip e), schip := s.lath.chipId, core := c.team.core, tx := i,
        rxIdx := txRx e, offset := va - txBase e, data := bs }
    { s with
      outbox := s.outbox ++ [f]
      undelivered := s.undelivered ++ [(c.uid, c.gid, s.nextFlit)]
      nextFlit := s.nextFlit + 1 }

/-- Whether a WST waits for link credit (R348): its window is mapped to this package, which holds all the reflections it can.
The buffer of another package is that package's (assumption 65). -/
def creditShort (s : State) (asid : BitVec 12) (va w : Nat) : Bool :=
  match s.window? asid va w with
  | some i => decide (txChip (s.txEntry i) = s.lath.chipId.toNat) && decide (4096 ≤ s.heldRefl.length)
  | none => false

/-- WST (R246): a store at the home L2 that drops the issuing core's L1 copy, and a reflection for each pair. -/
def execWst (f : BitVec 3) (d b : BitVec 7) (o : BitVec 9) (s : State) : Host.Outcome State Fault Refusal :=
  groupInstr (.wst f d b o) s fun c t =>
    let w := storeWidth f
    let va := c.globalAddr b o.toInt w
    if c.live.isEmpty then .ok t
    else (((alignCheck c.live va w).andThen
          (failAt c.live cWindowFault (fun p => (t.window? c.grid.asid (va p).toNat w).isNone) va)).andThen
        (c.leaseCheck c.live va w .w)).orElse fun _ =>
      if c.live.any fun p => creditShort t c.grid.asid (va p).toNat w then .hold 0 t
      else
      (c.accesses va w true (fun s p pas =>
          let bs := c.storeBytes d w p
          ([], reflect (l2Writes (dropLines s c.team.core pas) pas bs) c (va p).toNat bs)) c.live t).andThen fun _ s => .ok s

end Sys2Proof.Machine
end

