-- ==== Sys2Proof/Machine/Work.lean ====
section
/-! DEFINITION. Creating work: SPAWN, LAUNCH and CWSET, major 0x32 (R96, R181 to R183). -/

namespace Sys2Proof.Machine

/-- One task entered in a core's bins; `none` when it has to wait: the bin of its key is full, or no bin holds
the key and none is empty (R96, R97). -/
def enterBin (uid clk : Nat) (entry : VAddr) (arg : DWord) (bins : List Bin) : Option (List Bin) :=
  match bins.find? fun b => decide (b.team = uid) && decide (b.entry = entry) with
  | some b =>
    if 32 ≤ b.tasks.length then none
    else some (bins.map fun x => if x.team = uid ∧ x.entry = entry then { x with tasks := x.tasks ++ [arg] } else x)
  | none => if 16 ≤ bins.length then none else some (bins ++ [{ team := uid, entry := entry, tasks := [arg], first := clk }])

/-- Tasks entered one after another; the count of those entered, and the bins. -/
def enterTasks (uid clk : Nat) : List (VAddr × DWord) → List Bin → Nat × List Bin
  | [], bins => (0, bins)
  | x :: rest, bins => match enterBin uid clk x.1 x.2 bins with
    | none => (0, bins)
    | some b => let (n, b') := enterTasks uid clk rest b; (n + 1, b')

/-- SPAWN (R96, R181): its tasks enter in ascending slot and lane; tasks that have entered stay, and it goes on
with the next (R184). -/
def execSpawn (a b : BitVec 7) (s : State) : Host.Outcome State Fault Refusal :=
  groupInstr (.spawn a b) s fun c t =>
    if c.live.any fun p => !targetOk c.grid (c.src64 a p) then .trap { code := cBadTarget }
    else
      let done := (c.group.slice (c.slices.headD 0)).progress
      let tasks := (c.live.map fun p => ((c.src64 a p).setWidth 57, c.src64 b p)).drop done
      let (n, bins) := enterTasks c.uid t.clk tasks (t.core c.team.core).bins
      let t1 := t.updCore c.team.core fun k => { k with bins := bins }
      if n = tasks.length then .ok t1 else .hold (done + n) t1

/-- The records a queue holds (R76). -/
def Queue.count (q : Queue) : Nat := (q.tail - q.head).toNat
/-- The slots of a queue's ring. -/
def Queue.slots (q : Queue) : Nat := 2 ^ q.log2n.toNat
/-- The physical address of the slot of the record with count `n` (R76). -/
def Queue.slotAddr (q : Queue) (n : Nat) : Nat := q.base.toNat * 256 + 256 * (n % q.slots)

/-- One submission: its status, and the queue's next slot written with TAIL advanced (R182). -/
def submit (s : State) (queue : Word) (bs : List Byte) : Nat × State :=
  if 1024 ≤ queue.toNat then (3, s)
  else
    let q := s.queue queue.toNat
    if !q.en ∨ !q.prod then (1, s)
    else if q.slots ≤ q.count then (2, s)
    else (0, (l2WriteBytes s (q.slotAddr q.tail.toNat) bs).updQueue queue.toNat fun q => { q with tail := q.tail + 1 })

/-- Whether one of the next `n` slots of a queue lies on a page that an exchange has locked (R92). -/
def slotsLocked (s : State) (n : Nat) (queue : Word) : Bool :=
  (List.range n).any fun k => rangeLocked s ((s.queue queue.toNat).slotAddr ((s.queue queue.toNat).tail.toNat + k)) 256

/-- LAUNCH (R182): the pair's stores are performed first, and each record goes to its queue in one step; it waits while a
slot is locked (R92). -/
def execLaunch (d a b : BitVec 7) (s : State) : Host.Outcome State Fault Refusal :=
  groupInstr (.launch d a b) s fun c t =>
    let va := fun p => c.src64 a p
    if c.live.isEmpty then .ok t
    else (c.globalCheck c.live va 256 .r).orElse fun _ =>
      if c.live.any fun p => slotsLocked t c.live.length (c.src b p) then .hold 0 t
      else
      (c.accesses va 256 false (fun s p pas =>
          let (bs, s1) := coreLoads s c.team.core pas
          let (st, s2) := submit s1 (c.src b p) bs
          ([BitVec.ofNat 8 st], s2)) c.live (dropAll t c.team.core)).andThen fun vs s =>
        .ok (c.putN none d 1 (fun p => natOfBytes (bytesOf vs p)) s)

/-- CWSET (R183): a release at .sys, then an OR at the home L2 for each live pair. -/
def execCwset (a b : BitVec 7) (s : State) : Host.Outcome State Fault Refusal :=
  groupInstr (.cwset a b) s fun c t =>
    let va := fun p => c.src64 a p
    if c.live.isEmpty then .ok t
    else (c.globalCheck c.live va 8 .w).orElse fun _ =>
      (c.accesses va 8 true (fun s p pas =>
          let old := natOfBytes (l2Reads s pas)
          ([], l2Writes s pas (bytesOfNat 8 (BitVec.ofNat 64 old ||| c.src64 b p).toNat))) c.live
        (dropAll t c.team.core)).andThen fun _ s => .ok s

end Sys2Proof.Machine
end

