-- ==== Sys2Proof/Machine/Lath.lean ====
section
/-! DEFINITION. The Lath port (R430, Table 22.6): frames in and out, the error log and the event counters (R431,
R432), and the register space (R440, Table 23.2) with each register's read and its plain write. -/

namespace Sys2Proof.Machine

/-! ## CRC-32C -/

/-- One bit of CRC-32C, least significant bit first. -/
def crcBit (c : Word) : Word := if c.getLsbD 0 then (c >>> 1) ^^^ 0x82F63B78 else c >>> 1
/-- One byte of CRC-32C. -/
def crcByte (c : Word) (b : Byte) : Word := (List.range 8).foldl (fun c _ => crcBit c) (c ^^^ b.setWidth 32)
/-- CRC-32C of a byte string. -/
def crc32c (bs : List Byte) : Word := (bs.foldl crcByte 0xFFFFFFFF) ^^^ 0xFFFFFFFF

end Sys2Proof.Machine

namespace Sys2Proof

open Sys2Proof.Machine

/-! ## The form of a frame (R430, Table 22.6) -/

/-- The 16 bytes of a header (Table 22.6). -/
def LathHdr.bytes (h : LathHdr) : List Byte :=
  [h.ty, h.rsv1] ++ bytesOfNat 2 h.seq.toNat ++ bytesOfNat 2 h.len.toNat ++ bytesOfNat 2 h.rsv2.toNat ++ bytesOfNat 8 h.addr.toNat

/-- Whether the CRC-32C of header and payload holds, over as many payload bytes as LEN says. -/
def LathIn.crcOk (f : LathIn) : Bool :=
  decide (f.payload.length = f.hdr.len.toNat) && decide (f.crc = crc32c (f.hdr.bytes ++ f.payload))

/-- The frame types of Table 22.6. -/
def lathTypes : List Byte := [0x01, 0x02, 0x03, 0x04, 0x05, 0x10, 0x20, 0x21, 0x22, 0x30, 0x31, 0x40, 0x41, 0x42]

/-- Whether a header is of the form of Table 22.6: a known TYPE, reserved fields zero, and a payload of at most 4,096
bytes (assumption 66). -/
def LathIn.formOk (f : LathIn) : Bool :=
  lathTypes.contains f.hdr.ty && decide (f.hdr.rsv1 = 0) && decide (f.hdr.rsv2 = 0) && decide (f.hdr.len.toNat ≤ 4096)

/-- ADDR. -/
def LathIn.addr (f : LathIn) : BitVec 64 := f.hdr.addr
/-- Whether a frame reads a register. -/
def LathIn.read (f : LathIn) : Bool := decide (f.hdr.ty = 0x01)
/-- The value that a register write carries, least significant byte first (assumption 66). -/
def LathIn.val (f : LathIn) : BitVec 256 := BitVec.ofNat 256 (natOfBytes f.payload)
/-- The number of bytes that a memory read asks for, in the first four bytes of its payload (assumption 66). -/
def LathIn.count (f : LathIn) : Nat := min 4096 (natOfBytes (f.payload.take 4))
/-- The value that a compare-and-swap expects, bytes 0 to 7 of its payload (assumption 66). -/
def LathIn.expect (f : LathIn) : BitVec 64 := BitVec.ofNat 64 (natOfBytes (f.payload.take 8))
/-- The value that a compare-and-swap puts, bytes 8 to 15 of its payload (assumption 66). -/
def LathIn.new (f : LathIn) : BitVec 64 := BitVec.ofNat 64 (natOfBytes ((f.payload.drop 8).take 8))
/-- The nonce of an attestation request: its first 32 payload bytes (R429, assumption 66). -/
def LathIn.nonce (f : LathIn) : BitVec 256 := BitVec.ofNat 256 (natOfBytes (f.payload.take 32))

end Sys2Proof

namespace Sys2Proof.Machine

/-- The payload of a frame this package sends, and its header: a response carries its status in bits [63:56] of ADDR
(assumption 66). -/
def LathFrame.hdr (f : LathFrame) : LathHdr :=
  { ty := f.ty, seq := f.seq, len := BitVec.ofNat 16 f.payload.length, addr := f.addr ||| (f.status.setWidth 64 <<< 56) }

/-- A frame as it goes out: the header, the payload, and the CRC-32C of both (R430). -/
def LathFrame.bytes (f : LathFrame) : List Byte :=
  let b := f.hdr.bytes ++ f.payload
  b ++ bytesOfNat 4 (crc32c b).toNat

/-! ## Frames in and out -/

/-- Sends a numbered frame: at once while fewer than 256 are unacknowledged, else once some are. -/
def lathSend (ty : Byte) (addr : BitVec 64) (status : Byte) (payload : List Byte) (s : State) : State :=
  let l := s.lath
  let f : LathFrame := { ty := ty, seq := l.txSeq, addr := addr, status := status, payload := payload }
  if l.unacked.length < 256 ∧ l.backlog = [] then
    { s with lath := { l with txSeq := l.txSeq + 1, unacked := l.unacked ++ [f], sent := l.sent ++ [f] } }
  else { s with lath := { l with txSeq := l.txSeq + 1, backlog := l.backlog ++ [f] } }

/-- Sends an ACK or a NAK, which carries the SEQ it acknowledges or expects and is not itself numbered. -/
def lathReply (ty : Byte) (seq : BitVec 16) (s : State) : State :=
  { s with lath := { s.lath with sent := s.lath.sent ++ [{ ty := ty, seq := seq, addr := 0, status := 0, payload := [] }] } }

/-- A response frame (TYPE 0x10). -/
def lathRespond (addr : BitVec 64) (status : Byte) (payload : List Byte) (s : State) : State :=
  lathSend 0x10 addr status payload s

/-- A frame as it arrives (R430): with a CRC error or out of order it draws a NAK with the expected SEQ; with an
unknown TYPE or a nonzero reserved field, a response with status 1; else it has its effect. An accepted frame is
acknowledged after its effect. Without power nothing answers. -/
def lathFrame (f : LathIn) (act : State → State) (s : State) : State :=
  if !s.firmware.powered then s
  else if !f.crcOk ∨ f.hdr.seq ≠ s.lath.rxSeq then lathReply 0x31 s.lath.rxSeq s
  else
    let s1 := { s with lath := { s.lath with rxSeq := s.lath.rxSeq + 1 } }
    lathReply 0x30 f.hdr.seq (if f.formOk then act s1 else lathRespond f.addr 1 [] s1)

/-- Whether a frame is in order and well formed, so that it has the effect of its TYPE. -/
def frameSound (f : LathIn) (s : State) : Bool :=
  s.firmware.powered && f.crcOk && decide (f.hdr.seq = s.lath.rxSeq) && f.formOk

/-- Whether a frame is an ACK or a NAK, which are not numbered themselves. -/
def isReply (f : LathIn) : Bool := decide (f.hdr.ty = 0x30) || decide (f.hdr.ty = 0x31)

/-- The event of a numbered frame that `p` picks by its header and what it holds: it has its effect; one that draws a NAK or a
status 1 draws it whatever TYPE it shows; any other leaves the state as it is. -/
def lathRow (p : LathIn → Bool) (act : LathIn → State → State) (s : State) : State :=
  match s.arg with
  | .frame f =>
    if f.crcOk && isReply f then s
    else if frameSound f s then (if p f then lathFrame f (act f) s else s)
    else lathFrame f id s
  | _ => s

/-- The event of an ACK or NAK frame of TYPE `ty`: a CRC error draws a NAK, a nonzero reserved field a status 1. -/
def replyRow (ty : Byte) (act : BitVec 16 → State → State) (s : State) : State :=
  match s.arg with
  | .frame f =>
    if !s.firmware.powered then s
    else if !f.crcOk then lathReply 0x31 s.lath.rxSeq s
    else if f.hdr.ty ≠ ty then s
    else if f.formOk then act f.hdr.seq s
    else lathRespond f.addr 1 [] s
  | _ => s

/-! ## The error log and the counters -/

/-- An event counter raised by 1 (R432). -/
def countEvent (n : Nat) (s : State) : State :=
  { s with counters := mapSet s.counters n ((mapGet s.counters n).getD 0 + 1) }

/-- The ASCII bytes of a text. -/
def asciiOf (t : String) : List Byte := t.toList.map fun c => BitVec.ofNat 8 c.toNat
/-- A number as two decimal digits. -/
def twoDigits (n : Nat) : String := toString (n / 10 % 10) ++ toString (n % 10)
/-- The path of a core (R27). -/
def corePath (c : Nat) : String :=
  "tower" ++ toString (c / 32) ++ (if c / 16 % 2 = 0 then ".lower.core" else ".upper.core") ++ twoDigits (c % 16)

/-- The names of the units of a core that can be in error (Table 1.9). -/
def coreUnitName (what : BitVec 3) : String :=
  nth ["hawk", "l1", "regfile", "tacc", "lacc", "mac" ++ "ro", "tlb", "vfifo"] what.toNat ""
/-- The names of the units of a base die (Table 1.9). -/
def baseUnitName (what : BitVec 3) : String :=
  nth ["l2", "walker", "bridge", "dispatcher", "lath"] (what.toNat % 5) ""

/-- The path of a unit (R27): the Dispatcher and Lath are tower 0's alone. -/
def unitPath (u : FaultUnit) : String :=
  match u with
  | .coreSram c what => corePath c ++ "." ++ coreUnitName what
  | .column c l => if l < 4 then corePath c ++ ".column.layer" ++ toString l else corePath c ++ ".column.vbus"
  | .l2Line pa => "tower" ++ toString (homeTower pa) ++ ".base.l2"
  | .hbm n _ => "tower" ++ toString (n / 6) ++ ".base.hbm" ++ twoDigits n
  | .reducer n => "tower" ++ toString (n / 6) ++ ".base.hbm" ++ twoDigits n ++ ".reducer"
  | .scrimPort n => "tower" ++ toString (n / 24) ++ ".base.scrim" ++ twoDigits n
  | .cxlLink n => "tower" ++ toString (n / 4) ++ ".base.cxl" ++ toString n
  | .baseDie t what => "tower" ++ toString (if what.toNat % 5 < 3 then t else 0) ++ ".base." ++ baseUnitName what

/-- The bytes of an error-log entry (Table 22.7). -/
def logEntry (seq : BitVec 64) (clk kind : Nat) (path : String) : List Byte :=
  bytesOfNat 8 seq.toNat ++ bytesOfNat 8 clk ++ [BitVec.ofNat 8 kind] ++ List.replicate 7 0 ++
    (asciiOf path ++ List.replicate 40 0).take 40

/-- An entry written to the error log, and sent as a notice for KIND 2 or above (R431). -/
def logError (kind : Nat) (path : String) (s : State) : State :=
  let e := logEntry s.errHead (if s.level = 0 then 0 else s.clk) kind path
  let s1 := { s with
    errHead := s.errHead + 1
    errLog := mapSet s.errLog (s.errHead.toNat % 256) (BitVec.ofNat 512 (natOfBytes e)) }
  if 2 ≤ kind then lathSend 0x22 0 0 e s1 else s1

/-! ## The registers -/

/-- A register of the Lath register space (Table 23.2). -/
inductive LathReg where
  | pkginfo | coremap | colclk | scrimid | colltmo | pwrlim | errhead | placectl | spawnctl | rttbase | xlatinv
  | swapa | swapb | swapctl | xctl | ximg | ximglen
  | qbase (q : Nat) | qctl (q : Nat) | qptr (q : Nat) | qroot (q : Nat) | qfault (q : Nat) | qstat (q : Nat)
  | locctl (c : Nat) | locstat (c : Nat) | vgate (c : Nat)
  | txw (i : Nat) | rxw (i : Nat) | route (c : Nat)
  | linkst (cxl : Bool) (n : Nat)
  | errEntry (e : Nat) | counter (n : Nat)
  deriving DecidableEq, Repr

/-- The number of the register of an array that an offset names. -/
def regSlot (base stride n o : Nat) : Option Nat :=
  if base ≤ o ∧ o < base + stride * n ∧ (o - base) % stride = 0 then some ((o - base) / stride) else none

/-- The registers that stand alone, with their offsets. -/
def loneRegs : List (Nat × LathReg) :=
  [(0x10, .pkginfo), (0x18, .coremap), (0x20, .colclk), (0x30, .scrimid), (0x38, .colltmo), (0x40, .pwrlim), (0x50, .errhead),
   (0x100, .placectl), (0x108, .spawnctl), (0x110, .rttbase), (0x120, .xlatinv), (0x140, .swapa), (0x148, .swapb),
   (0x150, .swapctl), (0x200, .xctl), (0x208, .ximg), (0x210, .ximglen)]

/-- The arrays of registers: base, stride, number of entries, and the register of an entry. -/
def regArrays : List (Nat × Nat × Nat × (Nat → LathReg)) :=
  [(0x100000, 32, 1024, .qbase), (0x100008, 32, 1024, .qctl), (0x100010, 32, 1024, .qptr), (0x100018, 32, 1024, .qroot),
   (0x200000, 8, 1024, .qfault), (0x300000, 16, 64, .locctl), (0x300008, 16, 64, .locstat), (0x400000, 8, 64, .vgate),
   (0x500000, 32, 512, .txw), (0x504000, 32, 512, .rxw), (0x508000, 8, 1024, .route), (0x600000, 8, 1024, .qstat),
   (0x700000, 8, 48, .linkst false), (0x700200, 8, 8, .linkst true), (0x800000, 64, 256, .errEntry), (0x804000, 8, 7, .counter)]

/-- The register an offset names (Table 23.2). -/
def lathReg? (o : Nat) : Option LathReg :=
  match loneRegs.find? fun r => decide (r.1 = o) with
  | some r => some r.2
  | none => regArrays.findSome? fun a => (regSlot a.1 a.2.1 a.2.2.1 o).map a.2.2.2

/-- A flag as 0 or 1. -/
def bit (b : Bool) : Nat := if b then 1 else 0

/-- The mask of the online cores (Table 1.8). -/
def onlineMap (s : State) : BitVec 64 := maskOf 64 ((List.range 64).filter (coreOnline s))
/-- The number of online cores (R26). -/
def onlineCores (s : State) : Nat := ((List.range 64).filter (coreOnline s)).length
/-- CXLUP: the CXL links that bring-up trained and that are not fenced. A link that leaves STATE 2 later does not change it, since
PKGINFO changes in three cases only (DESIGN CHOICE, assumption 68). -/
def cxlCount (s : State) : Nat := (bitsOf 8 s.cxlUp).length
/-- PKGINFO (Table 1.7). -/
def pkgInfo (s : State) : BitVec 32 :=
  Config.stepping ++ 0#4 ++ s.level ++ BitVec.ofNat 4 (cxlCount s) ++ BitVec.ofNat 4 (bitsOf 12 s.hbmUp).length ++ 0#1 ++
    BitVec.ofNat 7 (onlineCores s)

/-- A queue's grids that have been taken and have not ended, and its resident graphs. -/
def queueLive (s : State) (qi : Nat) : Bool :=
  (s.grids.any fun g => decide (g.queue = qi) && decide (g.stage ≠ .ended)) || s.graphs.any fun g => decide (g.queue = qi)

/-- STATE of a queue (Table 4.5). Of a queue that is disabled with records pending while SERIAL holds them back it is
SERIALWAIT (DESIGN CHOICE, assumption 69). -/
def queueState (s : State) (qi : Nat) : Nat :=
  let q := s.queue qi
  let first : Option GridStage := (q.pending.head?.bind fun u => s.grid? u).map fun g => g.stage
  match first with
  | some (.leasing _ _) => 1
  | some (.lwait _ _) => 2
  | some .placing => 3
  | _ =>
    if q.serial ∧ queueLive s qi then 4
    else if !q.en ∧ q.count ≠ 0 then 5
    else 0

/-- LINKST of a Scrim port or CXL link. -/
def linkOf (s : State) (cxl : Bool) (n : Nat) : Link := if cxl then s.cxlLink n else s.scrimPort n
/-- LINKST of a Scrim port or CXL link changed. -/
def updLink (cxl : Bool) (n : Nat) (f : Link → Link) (s : State) : State :=
  if cxl then { s with cxl := mapSet s.cxl n (f (s.cxlLink n)) } else { s with scrim := mapSet s.scrim n (f (s.scrimPort n)) }

/-- The value a register reads as (R9, R10, and the maps of Table 23.2). LOOP of a transmit entry follows its Meaning, also right
after reset, where DCHIP and SCRIMID.ID are both 0 and the Reset column says 0 (DESIGN CHOICE, assumption 70). -/
def regRead (s : State) (r : LathReg) : Nat :=
  let l := s.lath
  match r with
  | .pkginfo => (pkgInfo s).toNat
  | .coremap => (onlineMap s).toNat
  | .colclk => bit l.colErr * 2 ^ 31 + bit l.colBusy * 2 ^ 30 + l.ratioNew.toNat
  | .scrimid => bit l.scrimErr * 2 ^ 31 + l.chipId.toNat
  | .colltmo => l.colltmo.toNat
  | .pwrlim => l.freq.toNat * 2 ^ 32 + bit l.pwrErr * 2 ^ 31 + l.pwrLimit.toNat
  | .errhead => s.errHead.toNat % 2 ^ 32
  | .placectl => l.placeD.toNat * 2 ^ 28 + l.placeTref.toNat * 2 ^ 20 + l.placeTw.toNat * 2 ^ 12 + l.placeVw.toNat * 2 ^ 4
  | .spawnctl => l.spawnTimeout.toNat
  | .rttbase => l.rttBase.toNat * 2 ^ 26 + bit l.rttEn
  | .xlatinv => bit l.xiBusy * 2 ^ 63 + bit l.xiErr * 2 ^ 62 + l.xiPage.toNat * 2 ^ 16 + l.xiAsid.toNat * 2 ^ 4
  | .swapa => l.swapA.toNat * 2 ^ 4
  | .swapb => l.swapB.toNat * 2 ^ 4
  | .swapctl => bit l.swap.isSome * 2 ^ 4 + l.swapStatus.toNat
  | .xctl => bit l.xcBusy * 2 ^ 63 + bit l.xcErr * 2 ^ 62 + l.xcStatus.toNat * 2 ^ 56 + l.xcQ.toNat * 2 ^ 16
  | .ximg => l.ximg.toNat * 2 ^ 16
  | .ximglen => l.ximgLen.toNat
  | .qbase q => (s.queue q).base.toNat * 2 ^ 8 + (s.queue q).log2n.toNat
  | .qctl q =>
    let x := s.queue q
    x.asid.toNat * 2 ^ 32 + bit x.en * 2 ^ 31 + bit x.prod * 2 ^ 30 + bit x.serial * 2 ^ 29 + bit x.err * 2 ^ 28 +
      x.prio.toNat * 2 ^ 20 + queueState s q * 2 ^ 16
  | .qptr q => (s.queue q).head.toNat * 2 ^ 32 + (s.queue q).tail.toNat
  | .qroot q => (s.queue q).root.toNat * 2 ^ 22
  | .qfault q => (s.queue q).qfault.toNat
  | .qstat q => (s.queue q).grids.toNat * 2 ^ 32 + (s.queue q).failed.toNat * 2 ^ 16 + (s.queue q).lastcode.toNat
  | .locctl c =>
    let k := s.core c
    bit k.locEn * 2 ^ 31 + k.wlog2.toNat * 2 ^ 24 + k.thr.toNat * 2 ^ 12 + k.maxld.toNat
  | .locstat c => (s.core c).limit.toNat * 2 ^ 16 + (s.core c).lastEvents.toNat
  | .vgate c => bit (s.core c).vgErr * 4 + bit (s.core c).gated * 2 + bit (s.core c).vgReq
  | .txw i =>
    let e := s.txEntry i
    e.toNat + (if txChip e = l.chipId.toNat then 8 else 0)
  | .rxw i => (s.rxEntry i).toNat
  | .route c => ((mapGet s.route c).getD 0).toNat
  | .linkst cxl n =>
    let k := linkOf s cxl n
    k.retrains.toNat * 2 ^ 16 + bit k.en * 8 + k.state.toNat
  | .errEntry e => ((mapGet s.errLog e).getD 0).toNat
  | .counter n => ((mapGet s.counters n).getD 0).toNat

/-- The bytes of a register. -/
def regBytes (r : LathReg) : Nat :=
  match r with
  | .txw _ | .rxw _ => 32
  | .errEntry _ => 64
  | _ => 8

/-- A field of a value written. -/
def vfld (v : BitVec 256) (lo len : Nat) : BitVec len := v.extractLsb' lo len

/-- A write of QCTL (R76): rejected with ERR when it changes ASID or PROD of an enabled queue, or enables one whose
ring length is out of range or at level L0; else its fields are taken. The state, and whether it was accepted. -/
def qctlWrite (q : Nat) (v : BitVec 256) (s : State) : State × Bool :=
  let x := s.queue q
  let asid := vfld v 32 12
  let en := v.getLsbD 31
  let prod := v.getLsbD 30
  let ringOk := decide (1 ≤ x.log2n.toNat) && decide (x.log2n.toNat ≤ 12)
  if (x.en ∧ (asid ≠ x.asid ∨ prod ≠ x.prod)) ∨ (en ∧ (!ringOk ∨ s.level = 0)) then
    (s.updQueue q fun x => { x with err := true }, false)
  else
    (s.updQueue q fun x =>
      { x with asid := asid, en := en, prod := prod, serial := v.getLsbD 29, err := x.err && !v.getLsbD 28, prio := vfld v 20 4 }, true)

/-- A write of QSTAT (R389): of a write and the Dispatcher's updates of the same clock the write comes first, and they add to it. -/
def Queue.qstatWritten (clk : Nat) (grids : BitVec 32) (failed : BitVec 16) (x : Queue) : Queue :=
  if x.updClk = clk then
    { x with grids := grids + BitVec.ofNat 32 x.updGrids, failed := BitVec.ofNat 16 (min 65535 (failed.toNat + x.updFailed)) }
  else { x with grids := grids, failed := failed }

/-- The plain write of a register: what a value written does to the register's own fields (R440). Registers that
are read-only change nothing. Those with a row of their own in the opcode table are written there. -/
def regWrite (r : LathReg) (v : BitVec 256) (s : State) : State :=
  let l := s.lath
  match r with
  | .colltmo => { s with lath := { l with colltmo := vfld v 0 32 } }
  | .placectl => { s with lath := { l with placeD := vfld v 28 4, placeTref := vfld v 20 8, placeTw := vfld v 12 8, placeVw := vfld v 4 8 } }
  | .spawnctl => { s with lath := { l with spawnTimeout := vfld v 0 16 } }
  | .rttbase => { s with lath := { l with
      rttBase := vfld v 26 26, rttEn := v.getLsbD 0, rttSet := v.getLsbD 0 || (l.rttSet && decide (vfld v 26 26 = l.rttBase)) } }
  | .xlatinv =>
    if l.xiBusy then { s with lath := { l with xiErr := true } }
    else { s with lath := { l with xiErr := l.xiErr && !v.getLsbD 62, xiPage := vfld v 16 41, xiAsid := vfld v 4 12 } }
  | .swapa => { s with lath := { l with swapA := vfld v 4 48 } }
  | .swapb => { s with lath := { l with swapB := vfld v 4 48 } }
  | .xctl =>
    if l.xcBusy ∨ v.getLsbD 2 then { s with lath := { l with xcErr := true } }
    else { s with lath := { l with xcErr := l.xcErr && !v.getLsbD 62, xcQ := vfld v 16 10 } }
  | .ximg => { s with lath := { l with ximg := vfld v 16 41 } }
  | .ximglen => { s with lath := { l with ximgLen := vfld v 0 48 } }
  | .qbase q =>
    s.updQueue q fun x => if x.en then { x with err := true } else { x with base := vfld v 8 44, log2n := vfld v 0 4 }
  | .qroot q => s.updQueue q fun x => if x.en then { x with err := true } else { x with root := vfld v 22 30 }
  | .qctl q => (qctlWrite q v s).1
  | .qstat q => s.updQueue q (Queue.qstatWritten s.clk (vfld v 32 32) (vfld v 16 16))
  | .locctl c =>
    let m : BitVec 7 := vfld v 0 7
    s.updCore c fun k =>
      { k with locEn := v.getLsbD 31, wlog2 := vfld v 24 4, thr := vfld v 12 12, maxld := if m = 0 ∨ 64 < m.toNat then 64 else m }
  | .route c => { s with route := mapSet s.route c (vfld v 0 48) }
  | _ => s

/-- The rows of the opcode table that are writes of one register, by what the frame holds. -/
inductive RegRow where
  | colclk | tail | retry | cancel | xiPage | xiAsid | xiAll | swapGo | preempt | restore | abort | vgateReq | vgateOff
  | scrimid | window | linkOff | linkOn | pwrlim | plain
  deriving DecidableEq, Repr

/-- The row a register write belongs to. -/
def rowOf (r : LathReg) (v : BitVec 256) : RegRow :=
  match r with
  | .colclk => .colclk
  | .qptr _ => .tail
  | .qctl _ => if v.extractLsb' 0 2 = 1 then .retry else if v.extractLsb' 0 2 = 2 then .cancel else .plain
  | .xlatinv => nth [.plain, .xiPage, .xiAsid, .xiAll] (v.extractLsb' 0 2).toNat .plain
  | .swapctl => if v.getLsbD 3 then .swapGo else .plain
  | .xctl => nth [.plain, .preempt, .restore, .abort] (v.extractLsb' 0 3).toNat .plain
  | .vgate _ => if v.getLsbD 0 then .vgateReq else .vgateOff
  | .scrimid => .scrimid
  | .txw _ | .rxw _ => .window
  | .linkst _ _ => if v.getLsbD 3 then .linkOn else .linkOff
  | .pwrlim => .pwrlim
  | _ => .plain

/-- A register write frame of one row: it has its effect as a frame of its kind; any other leaves the state as it is. -/
def registerRow (row : RegRow) (s : State) (act : LathReg → BitVec 256 → State → State) : State :=
  lathRow
    (fun f => decide (f.hdr.ty = 0x02) && match lathReg? f.addr.toNat with
      | some r => decide (rowOf r f.val = row)
      | none => false)
    (fun f => match lathReg? f.addr.toNat with
      | some r => act r f.val
      | none => id) s

/-- A register write with no row of its own, a read of any register, a register frame to an offset that no register occupies,
or a frame of a TYPE that the package only sends. -/
def plainFrame (f : LathIn) : Bool :=
  if f.hdr.ty = 0x01 then true
  else if f.hdr.ty = 0x02 then match lathReg? f.addr.toNat with
    | some r => decide (rowOf r f.val = .plain)
    | none => true
  else [0x10, 0x20, 0x21, 0x22].contains f.hdr.ty

/-- What such a frame does (R440): an offset that no register occupies draws status 2. -/
def plainAct (f : LathIn) (s : State) : State :=
  if f.hdr.ty = 0x01 ∨ f.hdr.ty = 0x02 then
    match lathReg? f.addr.toNat with
    | none => lathRespond f.addr 2 [] s
    | some r => if f.read then lathRespond f.addr 0 (bytesOfNat (regBytes r) (regRead s r)) s else regWrite r f.val s
  else s

/-- LATH_REGISTER_WRITE (R440): a write of a register with no row of its own, a read of any register, and the frames that no
other row takes. -/
def execLathRegisterWrite (s : State) : Host.Outcome State Fault Refusal := .next (lathRow plainFrame plainAct s)

/-! ## Memory frames -/

/-- Whether every byte of a physical range has backing (R442). A range of no bytes has it, so a memory frame of no bytes
answers status 0 whatever its address (DESIGN CHOICE, assumption 67). -/
def rangeBacked (s : State) (pa n : Nat) : Bool := (List.range n).all fun j => backed s (pa + j)

/-- A Lath access of TYPE `ty` to `n` bytes of physical memory: it waits on LOCK (R92), and draws status 3 where a byte has no
backing (R442). -/
def memoryFrame (ty : Byte) (n : LathIn → Nat) (act : LathIn → State → State) (s : State) : State :=
  match s.arg with
  | .frame f =>
    if f.hdr.ty = ty ∧ frameSound f s ∧ rangeLocked s f.addr.toNat (n f) then s
    else lathRow (fun f => decide (f.hdr.ty = ty))
      (fun f s => if rangeBacked s f.addr.toNat (n f) then act f s else lathRespond f.addr 3 [] s) s
  | _ => s

/-- LATH_MEMORY_READ (R430). -/
def execLathMemoryRead (s : State) : Host.Outcome State Fault Refusal :=
  .next (memoryFrame 0x03 LathIn.count (fun f s => lathRespond f.addr 0 (l2ReadBytes s f.addr.toNat f.count) s) s)

/-- LATH_MEMORY_WRITE (R430): the bytes are at their home L2 before the ACK. -/
def execLathMemoryWrite (s : State) : Host.Outcome State Fault Refusal :=
  .next (memoryFrame 0x04 (fun f => f.payload.length) (fun f s => l2WriteBytes s f.addr.toNat f.payload) s)

/-- LATH_MEMORY_CAS (R430): an 8-byte compare-and-swap that answers the value it found. -/
def execLathMemoryCas (s : State) : Host.Outcome State Fault Refusal :=
  .next (memoryFrame 0x05 (fun _ => 8)
    (fun f s =>
      let old := l2Read64 s f.addr.toNat
      lathRespond f.addr 0 (bytesOfNat 8 old.toNat) (if old = f.expect then l2Write64 s f.addr.toNat f.new else s)) s)

/-! ## Acknowledgement and resending -/

/-- Waiting frames sent while fewer than 256 are unacknowledged. -/
def lathPump (s : State) : State :=
  let room := 256 - s.lath.unacked.length
  let go := s.lath.backlog.take room
  { s with lath := { s.lath with unacked := s.lath.unacked ++ go, sent := s.lath.sent ++ go, backlog := s.lath.backlog.drop room } }

/-- The acknowledged frames, up to the one with SEQ `seq`, retired. -/
def lathAcked (seq : BitVec 16) (s : State) : State :=
  let n := (s.lath.unacked.findIdx? fun f => decide (f.seq = seq)).map (· + 1)
  lathPump { s with lath := { s.lath with unacked := s.lath.unacked.drop (n.getD 0) } }

/-- LATH_ACK (R430): the acknowledged frames, up to the one whose SEQ it carries, retire. -/
def execLathAck (s : State) : Host.Outcome State Fault Refusal := .next (replyRow 0x30 lathAcked s)

/-- The frames from SEQ `seq` on sent again; those before it have arrived. -/
def lathResent (seq : BitVec 16) (s : State) : State :=
  match s.lath.unacked.findIdx? fun f => decide (f.seq = seq) with
  | some n =>
    let again := s.lath.unacked.drop n
    again.foldl (fun s _ => countEvent 6 s)
      (lathPump { s with lath := { s.lath with unacked := again, sent := s.lath.sent ++ again } })
  | none => if seq = s.lath.txSeq - BitVec.ofNat 16 s.lath.backlog.length then lathPump { s with lath := { s.lath with unacked := [] } } else s

/-- LATH_NAK (R430): the frames from the expected SEQ on are sent again. -/
def execLathNak (s : State) : Host.Outcome State Fault Refusal := .next (replyRow 0x31 lathResent s)

/-- LATH_RESEND_TIMEOUT (R430, R432): 10 µs without an ACK, the oldest unacknowledged frame is sent again. -/
def execLathResendTimeout (s : State) : Host.Outcome State Fault Refusal :=
  .next <| match s.lath.unacked with
    | [] => s
    | f :: _ => countEvent 6 { s with lath := { s.lath with sent := s.lath.sent ++ [f] } }

end Sys2Proof.Machine
end

