-- ==== Sys2Proof/Machine/Regs.lean ====
section
/-! DEFINITION. The control registers whose writes are rows of the opcode table, and the events they start: COLCLK
(R20, R231), SCRIMID (R341), the window map (R343 to R345, R349), LINKST (R433 to R435, R445), PWRLIM and the power
controller (R29, R436), VGATE (R229), XLATINV (R89), the swap engine (R90 to R92), the locality detector (R148,
R149), load tokens (R150), the walker (R85) and the age of L1 lines (R329). -/

namespace Sys2Proof.Machine

/-! ## COLCLK -/

/-- A write of COLCLK (R20). -/
def colclkSet (v : BitVec 256) (s : State) : State :=
  let l := s.lath
  if l.colBusy ∨ v.extractLsb' 0 2 = 3 then { s with lath := { l with colErr := true } }
  else { s with lath := { l with colErr := l.colErr && !v.getLsbD 31, colBusy := true, colSince := s.clk, ratioNew := vfld v 0 2 } }

/-- COLCLK_WRITE (R20). -/
def execColclkWrite (s : State) : Host.Outcome State Fault Refusal :=
  .next (registerRow .colclk s fun _ v => colclkSet v)

/-- Whether a column's vertical bus is frozen (R230). -/
def anyFrozen (s : State) : Bool := s.cores.any fun k => k.2.frozen.isSome

/-- COLCLK_RATIO_APPLY (R231): a freeze in progress ends first. -/
def execColclkRatioApply (s : State) : Host.Outcome State Fault Refusal :=
  .next (if s.lath.colBusy ∧ !anyFrozen s then
      let s1 := notCounted (fun _ => true) s.lath.colSince s.clk s
      { s1 with lath := { s1.lath with ratio := s.lath.ratioNew, colBusy := false } }
    else s)

/-! ## SCRIMID, LINKST -/

/-- Whether every Scrim port is down (R341). -/
def portsDown (s : State) : Bool := (List.range 48).all fun n => (s.scrimPort n).state == 0

/-- A write of SCRIMID (R341). -/
def scrimidSet (v : BitVec 256) (s : State) : State :=
  if vfld v 0 10 ≠ s.lath.chipId ∧ !portsDown s then { s with lath := { s.lath with scrimErr := true } }
  else { s with lath := { s.lath with scrimErr := s.lath.scrimErr && !v.getLsbD 31, chipId := vfld v 0 10 } }

/-- SCRIMID_WRITE (R341). -/
def execScrimidWrite (s : State) : Host.Outcome State Fault Refusal :=
  .next (registerRow .scrimid s fun _ v => scrimidSet v)

/-- A link that enters STATE 1: RETRAINS counts every entry after the first (R445). -/
def Link.train (k : Link) : Link :=
  { k with state := 1, trained := true, retrains := if k.trained ∧ k.retrains ≠ 0xFFFF then k.retrains + 1 else k.retrains }

/-- LINKST_EN_CLEAR (R445). -/
def execLinkstEnClear (s : State) : Host.Outcome State Fault Refusal :=
  .next (registerRow .linkOff s fun r _ => match r with
    | .linkst cxl n => updLink cxl n fun k => { k with en := false, state := 0 }
    | _ => id)

/-- Whether a Scrim port or CXL link is fenced, and so stays untrained (R379). -/
def linkFenced (s : State) (cxl : Bool) (n : Nat) : Bool := if cxl then s.fencedLinks.getLsbD n else s.fencedPorts.getLsbD n

/-- LINKST_EN_SET (R445): training starts from STATE 0 alone, and not of one that is fenced. -/
def execLinkstEnSet (s : State) : Host.Outcome State Fault Refusal :=
  .next (registerRow .linkOn s fun r _ s => match r with
    | .linkst cxl n =>
      if linkFenced s cxl n then s else updLink cxl n (fun k => if k.state = 0 then { k.train with en := true } else k) s
    | _ => s)

/-- LINK_TRAINING_END (R434, R435, R445): up, or failed. -/
def execLinkTrainingEnd (s : State) : Host.Outcome State Fault Refusal :=
  .next <| match s.arg with
    | .link cxl n up => if (linkOf s cxl n).state = 1 then updLink cxl n (fun k => { k with state := if up then 2 else 3 }) s else s
    | _ => s

/-- LINK_ERROR (R445). -/
def execLinkError (s : State) : Host.Outcome State Fault Refusal :=
  .next <| match s.arg with
    | .link cxl n _ => if (linkOf s cxl n).state = 2 then updLink cxl n Link.train s else s
    | _ => s

/-! ## The window map -/

/-- The mask of a bit range. -/
def bitRange (lo len : Nat) : BitVec 256 := BitVec.ofNat 256 ((2 ^ len - 1) * 2 ^ lo)

/-- The fields of a transmit entry that software writes (Table 14.3). -/
def txFields : BitVec 256 :=
  bitRange 192 9 ||| bitRange 176 10 ||| bitRange 128 40 ||| bitRange 64 57 ||| bitRange 32 12 ||| bitRange 0 2
/-- The fields of a receive entry that software writes (Table 14.4). -/
def rxFields : BitVec 256 :=
  bitRange 180 10 ||| bitRange 168 12 ||| bitRange 128 40 ||| bitRange 64 64 ||| bitRange 32 10 ||| bitRange 2 2 ||| bitRange 0 1

/-- TXDROP and ERR of a transmit entry, DROP and ERR of a receive entry. -/
def txSticky : BitVec 256 := 0x14
/-- DROP and ERR of a receive entry. -/
def rxSticky : BitVec 256 := 0x30
/-- ERR of a transmit entry. -/
def txErr : BitVec 256 := 4
/-- ERR of a receive entry. -/
def rxErr : BitVec 256 := 0x10
/-- TXDROP of a transmit entry. -/
def txDropBit : BitVec 256 := 0x10
/-- DROP of a receive entry. -/
def rxDropBit : BitVec 256 := 0x20

/-- An entry after a write with no check: the writable fields taken, the sticky bits cleared where 1 is written. -/
def entryWritten (fields sticky old v : BitVec 256) : BitVec 256 := (v &&& fields) ||| (old &&& sticky &&& ~~~v)

/-- Whether an enabled transmit entry's fields are in range, and its range apart from those of its ASID (R345). -/
def txOk (s : State) (i : Nat) (e : BitVec 256) : Bool :=
  decide (winLen e ≠ 0) && decide (winLen e % 65536 = 0) && decide (txBase e % 65536 = 0) &&
    !(s.txw.any fun o => decide (o.1 ≠ i) && winEn o.2 && decide (txAsid o.2 = txAsid e) &&
        decide (txBase e < txBase o.2 + winLen o.2) && decide (txBase o.2 < txBase e + winLen e))

/-- KIND of a receive entry. -/
def rxKind (e : BitVec 256) : Bool := e.getLsbD 3
/-- ANYSRC of a receive entry. -/
def rxAny (e : BitVec 256) : Bool := e.getLsbD 2
/-- BASE of a receive entry. -/
def rxBase (e : BitVec 256) : Nat := fld256 e 64 64
/-- Whether an enabled receive entry's fields are in range (R345, Table 14.4). -/
def rxOk (e : BitVec 256) : Bool := decide (winLen e ≠ 0) && (rxKind e || decide (rxBase e < 2 ^ 57))

/-- Whether a write of an enabled entry changes a field other than EN (R345). -/
def changesEnabled (fields old v : BitVec 256) : Bool := winEn old && ((old ^^^ v) &&& fields &&& ~~~1#256) != 0

/-- A reflection counted as written for FENCE.W (R337, R347, R348). -/
def reflectionDone (serial : Nat) (s : State) : State :=
  { s with undelivered := s.undelivered.filter fun w => decide (w.2.2 ≠ serial) }
/-- A reflection discarded at its destination (R347): DROP is set, and it counts as written. -/
def discardAt (f : Flit) (s : State) : State :=
  countEvent 5 (reflectionDone' f { s with rxw := mapSet s.rxw f.rxIdx (s.rxEntry f.rxIdx ||| rxDropBit) })
where
  /-- A reflection of this package is counted as written here; that of another is by its sender. -/
  reflectionDone' (f : Flit) (s : State) : State := if f.schip = s.lath.chipId then reflectionDone f.serial s else s

/-- A write that clears EN of a receive entry: the package's own reflections in flight to it are discarded, so that
none is written under a later entry (R349). -/
def dropInFlight (i : Nat) (s : State) : State :=
  let mine (f : Flit) : Bool := decide (f.dchip = s.lath.chipId) && decide (f.rxIdx = i)
  (s.outbox.filter mine).foldl (fun s f => discardAt f s) { s with outbox := s.outbox.filter fun f => !mine f }

/-- A write of a transmit entry (R345). -/
def txWrite (i : Nat) (v : BitVec 256) (s : State) : State :=
  let old := s.txEntry i
  let new := entryWritten txFields txSticky old v
  if changesEnabled txFields old v ∨ (winEn new ∧ !txOk s i new) then { s with txw := mapSet s.txw i (old ||| txErr) }
  else { s with txw := mapSet s.txw i new }

/-- A write of a receive entry (R345). -/
def rxWrite (i : Nat) (v : BitVec 256) (s : State) : State :=
  let old := s.rxEntry i
  let new := entryWritten rxFields rxSticky old v
  if changesEnabled rxFields old v ∨ (winEn new ∧ !rxOk new) then { s with rxw := mapSet s.rxw i (old ||| rxErr) }
  else
    let s1 := if winEn old ∧ !winEn new then dropInFlight i s else s
    { s1 with rxw := mapSet s1.rxw i (new ||| (s1.rxEntry i &&& rxDropBit &&& ~~~(old &&& v))) }

/-- WINDOW_ENTRY_WRITE (R345). -/
def execWindowEntryWrite (s : State) : Host.Outcome State Fault Refusal :=
  .next (registerRow .window s fun r v => match r with
    | .txw i => txWrite i v
    | .rxw i => rxWrite i v
    | _ => id)

/-! ## Power -/

/-- A write of PWRLIM (R436, Table 22.9). -/
def pwrlimSet (v : BitVec 256) (s : State) : State :=
  let w : BitVec 12 := vfld v 0 12
  if 3400 < w.toNat ∨ w.toNat < 1000 then { s with lath := { s.lath with pwrErr := true } }
  else { s with lath := { s.lath with pwrErr := s.lath.pwrErr && !v.getLsbD 31, pwrLimit := w } }

/-- PWRLIM_WRITE (R436). -/
def execPwrlimWrite (s : State) : Host.Outcome State Fault Refusal :=
  .next (registerRow .pwrlim s fun _ v => pwrlimSet v)

/-- The end of a power interval whose average is `mw` milliwatts (R29): one over the limit is counted (R432), and at L3 the
clock follows. -/
def powerInterval (mw : Nat) (s : State) : State :=
  let limit := 1000 * s.lath.pwrLimit.toNat
  let f := s.lath.freq.toNat
  let s1 := if limit < mw ∧ s.level ≠ 0 then countEvent 4 s else s
  let setFreq (f : Nat) : State := { s1 with lath := { s1.lath with freq := BitVec.ofNat 16 f } }
  if s.level ≠ 3 then s1
  else if limit < mw then setFreq (max 650 (f - 25))
  else if 100 * mw < 95 * limit then setFreq (min 1300 (f + 25))
  else s1

/-- POWER_INTERVAL_END (R29): the argument is the interval's average in milliwatts. -/
def execPowerIntervalEnd (s : State) : Host.Outcome State Fault Refusal :=
  .next <| match s.arg with
    | .one mw => powerInterval mw s
    | _ => s

/-! ## VGATE -/

/-- Whether a core holds a team. -/
def coreHolds (s : State) (c : Nat) : Bool := s.teams.any fun t => decide (t.core = c)

/-- A write of VGATE with REQ = 1 (R229). -/
def vgateAsk (c : Nat) (v : BitVec 256) (s : State) : State :=
  if coreHolds s c then s.updCore c fun k => { k with vgErr := true }
  else s.updCore c fun k => { k with vgErr := k.vgErr && !v.getLsbD 2, vgReq := true, ungating := false }

/-- VGATE_REQUEST (R229). -/
def execVgateRequest (s : State) : Host.Outcome State Fault Refusal :=
  .next (registerRow .vgateReq s fun r v => match r with
    | .vgate c => vgateAsk c v
    | _ => id)

/-- VGATE_GATED (R229): once both FIFOs of the pair are empty. The region's caches are empty when it is off. -/
def execVgateGated (s : State) : Host.Outcome State Fault Refusal :=
  .next <| match s.arg with
    | .one c =>
      if (s.core c).vgReq ∧ !(s.core c).gated ∧ (s.core c).fifo = [] ∧ (s.core (partner c)).fifo = [] then
        (dropAll s c).updCore c fun k => { k with gated := true, tlb := [] }
      else s
    | _ => s

/-- VGATE_UNGATE (R229). -/
def execVgateUngate (s : State) : Host.Outcome State Fault Refusal :=
  .next (registerRow .vgateOff s fun r v => match r with
    | .vgate c => fun s => s.updCore c fun k =>
        { k with vgErr := k.vgErr && !v.getLsbD 2, vgReq := false, ungating := k.gated }
    | _ => id)

/-- VGATE_UNGATE_DONE (R229). -/
def execVgateUngateDone (s : State) : Host.Outcome State Fault Refusal :=
  .next <| match s.arg with
    | .one c => if (s.core c).ungating then s.updCore c fun k => { k with gated := false, ungating := false } else s
    | _ => s

/-! ## XLATINV -/

/-- What an invalidation matches: pages of one address, an address space, or everything (Table 4.10). -/
def invMatches (scope : BitVec 2) (page : BitVec 41) (asid : BitVec 12) (a : Nat) (vpn shift : Nat) : Bool :=
  if scope = 3 then true
  else if scope = 2 then decide (a = asid.toNat)
  else decide (a = asid.toNat) && decide (page.toNat * 65536 / 2 ^ shift = vpn)

/-- The physical addresses of the RTT entries that may be valid: those whose first byte is not zero, where the RTT has been
in use at BASE, enabled now or not (assumption 71). -/
def rttEntries (s : State) : List Nat :=
  if s.lath.rttSet ∨ s.lath.rttEn then
    (s.mem.filter fun c => decide (rttAddr s ≤ c.1) && decide (c.1 < rttAddr s + 2 ^ 26) && decide (c.1 % 16 = 0)).map fun c => c.1
  else []

/-- The page shift of an RTT tag's SIZE. -/
def sizeShift (z : Nat) : Nat := if z = 0 then 16 else if z = 1 then 21 else 30

/-- The RTT without the entries that a test of word 0 and the tag picks. -/
def rttDrop (p : BitVec 64 → BitVec 64 → Bool) (s : State) : State :=
  (rttEntries s).foldl (fun s a =>
    let w := l2Read64 s a
    if entryV w && p w (l2Read64 s (a + 8)) then l2Write64 s a (w &&& ~~~1#64) else s) s

/-- The TLBs without the entries that a test picks. -/
def tlbDrop (p : TlbEntry → Bool) (s : State) : State :=
  { s with cores := s.cores.map fun k => (k.1, { k.2 with tlb := k.2.tlb.filter fun e => !p e }) }

/-- Every cached copy of the translations an invalidation matches removed (R89). -/
def invalidateXlat (scope : BitVec 2) (page : BitVec 41) (asid : BitVec 12) (s : State) : State :=
  rttDrop (fun _ tag =>
      let z := (tag.extractLsb' 41 2).toNat
      invMatches scope page asid (tag.extractLsb' 43 12).toNat ((tag.extractLsb' 0 41).toNat * 65536 / 2 ^ sizeShift z) (sizeShift z))
    (tlbDrop (fun e => invMatches scope page asid e.asid.toNat e.vpn e.shift) s)

/-- A write of XLATINV with a SCOPE (R89): ignored with ERR while BUSY. Whether a cached copy is already gone while
the invalidation runs is free: each access then uses either translation. -/
def xlatinvStart (scope : BitVec 2) (v : BitVec 256) (s : State) : State :=
  if s.lath.xiBusy then { s with lath := { s.lath with xiErr := true } }
  else
    let s1 := { s with lath := { s.lath with
      xiErr := s.lath.xiErr && !v.getLsbD 62, xiPage := vfld v 16 41, xiAsid := vfld v 4 12, xiScope := scope, xiBusy := true } }
    if Config.pick s.tick 2 % 2 = 1 then invalidateXlat scope (vfld v 16 41) (vfld v 4 12) s1 else s1

/-- XLATINV_PAGE (R89). -/
def execXlatinvPage (s : State) : Host.Outcome State Fault Refusal :=
  .next (registerRow .xiPage s fun _ v => xlatinvStart 1 v)
/-- XLATINV_ASID (R89). -/
def execXlatinvAsid (s : State) : Host.Outcome State Fault Refusal :=
  .next (registerRow .xiAsid s fun _ v => xlatinvStart 2 v)
/-- XLATINV_ALL (R89). -/
def execXlatinvAll (s : State) : Host.Outcome State Fault Refusal :=
  .next (registerRow .xiAll s fun _ v => xlatinvStart 3 v)

/-- XLATINV_DONE (R89): no TLB and no RTT entry holds a matching translation when BUSY clears. -/
def execXlatinvDone (s : State) : Host.Outcome State Fault Refusal :=
  .next (if s.lath.xiBusy then
      let s1 := invalidateXlat s.lath.xiScope s.lath.xiPage s.lath.xiAsid s
      { s1 with lath := { s1.lath with xiBusy := false } }
    else s)

/-! ## The swap engine (R90, R91) -/

/-- The roots of the radix tables in use: those of the queues, and those of taken grids and graphs. -/
def tableRoots (s : State) : List Nat :=
  (s.queues.map fun q => q.2.root.toNat * 2 ^ 22) ++ (s.grids.map fun g => g.root) ++ s.graphs.map fun g => g.root

/-- The number of entries of a table by level (Table 4.8). -/
def levelEntries (level : Nat) : Nat := nth [32, 512, 512, 2 ^ 18] level 0
/-- Whether a table of a level at `base` holds the entry at `ea`. -/
def holdsEntry (level base ea : Nat) : Bool :=
  decide (base ≤ ea) && decide (ea < base + 16 * levelEntries level) && decide ((ea - base) % 16 = 0)

/-- The tables that the valid entries of a table of a level name (R84). -/
def tableChildren (s : State) (level base : Nat) : List Nat :=
  s.mem.filterMap fun c =>
    let w := l2Read64 s c.1
    if holdsEntry level base c.1 ∧ entryV w ∧ !entryLeaf w ∧ w.extractLsb' 9 7 = 0 ∧ l2Read64 s (c.1 + 8) = 0 then some (entryPa w)
    else none

/-- The tables of level `3 - depth` in use. -/
def tablesAt (s : State) : Nat → List Nat
  | 0 => tableRoots s
  | depth + 1 => ((tablesAt s depth).flatMap (tableChildren s (3 - depth))).eraseDups

/-- The level of the table that holds an entry (R91): of a table in use, else open (assumption 19). -/
def leafLevel (s : State) (ea : Nat) : Nat :=
  match [0, 1, 2, 3].find? fun level => (tablesAt s (3 - level)).any fun base => holdsEntry level base ea with
  | some level => level
  | none => Config.tableLevel ea % 3

/-- A valid leaf at an entry (R84). -/
def validLeaf (s : State) (ea : Nat) : Bool :=
  let w := l2Read64 s ea
  let level := leafLevel s ea
  entryV w && entryLeaf w && w.extractLsb' 9 7 == 0 && l2Read64 s (ea + 8) == 0 && decide (level < 3) &&
    decide (entryPa w % 2 ^ levelShift level = 0) && pageBacked s (entryPa w) (levelShift level)

/-- Whether LOCK can be set: neither locked nor pinned. -/
def lockable (w : BitVec 64) : Bool := !entryLock w && decide (entryPin w = 0)

/-- A swap's end with a status. -/
def swapEnds (st : BitVec 3) (s : State) : State := { s with lath := { s.lath with swapStatus := st, swap := none } }

/-- GO (R91): the checks of both leaves, and LOCK set on both. -/
def swapStart (s : State) : State :=
  let ea := s.lath.swapA.toNat * 16
  let eb := s.lath.swapB.toNat * 16
  let a := l2Read64 s ea
  let b := l2Read64 s eb
  if s.lath.swap.isSome then s
  else if !(validLeaf s ea && validLeaf s eb) then swapEnds 4 s
  else if leafLevel s ea ≠ leafLevel s eb ∨ leafLevel s ea = 2 then swapEnds 2 s
  else if entryTier a = entryTier b then swapEnds 3 s
  else if !lockable a then swapEnds 1 s
  else if !lockable b then swapEnds 1 s
  else
    let s1 := l2Write64 (l2Write64 s ea (a ||| 0x100)) eb (b ||| 0x100)
    { s1 with lath := { s1.lath with swap := some ⟨ea, eb, levelShift (leafLevel s ea)⟩ } }

/-- SWAP_GO (R91). -/
def execSwapGo (s : State) : Host.Outcome State Fault Refusal := .next (registerRow .swapGo s fun _ _ => swapStart)

/-- Memory with the contents of two frames of `n` bytes exchanged. -/
def exchangeBytes (pa pb n : Nat) (m : List Host.Cell) : List Host.Cell :=
  let inA (c : Host.Cell) : Bool := decide (pa ≤ c.1) && decide (c.1 < pa + n)
  let inB (c : Host.Cell) : Bool := decide (pb ≤ c.1) && decide (c.1 < pb + n)
  let base := m.filter fun c => !inA c && !inB c
  let moved := (m.filter inA).map (fun c => (c.1 - pa + pb, c.2)) ++ (m.filter inB).map (fun c => (c.1 - pb + pa, c.2))
  moved.foldl (fun m c => byteSet m c.1 c.2) base

/-- Every L1 copy of a physical range taken back to its home L2 (R215). -/
def recallRange (s : State) (pa n : Nat) : State :=
  s.cores.foldl (fun s k =>
    (k.2.lineNos.filter fun ln => decide (pa ≤ 64 * ln) && decide (64 * ln < pa + n)).foldl (fun s ln => dropLine s k.1 ln) s) s

/-- The exchange of two frames through the swap buffer, at the home L2 (R91, R216). -/
def exchangeFrames (pa pb n : Nat) (s : State) : State :=
  let s1 := recallRange (recallRange s pa n) pb n
  let lines := (List.range (n / 64)).flatMap fun k => [pa / 64 + k, pb / 64 + k]
  lines.foldl clearReservations { s1 with mem := exchangeBytes pa pb n s1.mem, l2Dirty := lines.foldl natInsert s1.l2Dirty }

/-- A leaf word after the exchange: the other's PPN and TIER, LOCK clear, everything else kept. -/
def leafSwapped (w other : BitVec 64) : BitVec 64 :=
  let take : BitVec 64 := BitVec.ofNat 64 ((2 ^ 36 - 1) * 2 ^ 16 + 2 ^ 7)
  (w &&& ~~~take &&& ~~~0x100#64) ||| (other &&& take)

/-- SWAP_DONE (R91). -/
def execSwapDone (s : State) : Host.Outcome State Fault Refusal :=
  .next <| match s.lath.swap with
    | none => s
    | some x =>
      let n := 2 ^ x.shift
      let pa := entryPa (l2Read64 s x.ea)
      let pb := entryPa (l2Read64 s x.eb)
      let hit (f shift : Nat) : Bool := [pa, pb].any fun p => decide (f < p + n) && decide (p < f + 2 ^ shift)
      let s1 := rttDrop (fun w tag => hit (entryPa w) (sizeShift (tag.extractLsb' 41 2).toNat)) (tlbDrop (fun e => hit e.frame e.shift) s)
      let s2 := exchangeFrames pa pb n s1
      let a := l2Read64 s2 x.ea
      let b := l2Read64 s2 x.eb
      swapEnds 0 (l2Write64 (l2Write64 s2 x.ea (leafSwapped a b)) x.eb (leafSwapped b a))

/-! ## The locality detector, load tokens -/

/-- LIMIT after a window (Table 6.5). -/
def CoreSt.nextLimit (k : CoreSt) : BitVec 7 :=
  if !k.locEn then k.maxld
  else if k.thr.toNat < k.events then BitVec.ofNat 7 (max 1 (k.limit.toNat / 2))
  else if k.events ≤ k.thr.toNat / 4 ∧ k.limit.toNat < k.maxld.toNat then k.maxld
  else k.limit

/-- Whether a core's detector window has ended (R148). -/
def windowDue (s : State) (c : Nat) : Bool :=
  decide ((s.core c).windowStart + 2 ^ ((s.core c).wlog2.toNat + 8) ≤ s.clk)

/-- LOCALITY_WINDOW_END (R149). -/
def execLocalityWindowEnd (s : State) : Host.Outcome State Fault Refusal :=
  .next <| match s.arg with
    | .one c =>
      if windowDue s c then s.updCore c fun k =>
        { k with limit := k.nextLimit, lastEvents := BitVec.ofNat 16 (min 65535 k.events), events := 0, windowStart := s.clk }
      else s
    | _ => s

/-- Whether a token is due back: 64 clocks without a load, or 4,096 of holding (R150). -/
def tokenDue (clk : Nat) (h : Nat × Nat × Nat × Nat) : Bool := decide (h.2.2.1 + 4096 ≤ clk) || decide (h.2.2.2 + 64 ≤ clk)

/-- LOAD_TOKEN_RETURN (R150): the tokens due on a core come back, and the groups that have waited longest receive
them. -/
def execLoadTokenReturn (s : State) : Host.Outcome State Fault Refusal :=
  .next <| match s.arg with
    | .one c => s.updCore c fun k =>
        let kept := k.tokens.filter fun h => !tokenDue s.clk h
        let waiting := k.tokenQ.filter fun w => waitsWithLoad s w.1 w.2
        let room := k.limit.toNat - kept.length
        { k with
          tokens := kept ++ (waiting.take room).map fun w => (w.1, w.2, s.clk, s.clk)
          tokenQ := waiting.drop room }
    | _ => s

/-! ## The walker and the age of L1 lines -/

/-- TRANSLATION_WALK (R85 to R89): a walk for an access of a team, on a miss of the TLB and the RTT. -/
def execTranslationWalk (s : State) : Host.Outcome State Fault Refusal :=
  .next <| match s.arg with
    | .walk uid va write =>
      match s.team? uid with
      | none => s
      | some t => match s.grid? t.grid with
        | none => s
        | some gr =>
          let leased := gr.leases.any fun l => decide (l.base ≤ va.toNat) && decide (va.toNat < l.base + l.len)
          if (s.core t.core).tlb.any (fun e => e.hits gr.asid va.toNat) ∨ (rttProbe s va.toNat gr.asid.toNat).isSome then s
          else match walkXlat s t.core gr.asid gr.root va.toNat write true with
            | .ok _ s1 => s1
            | .locked => s
            | .lost => if leased then endTeamWith s uid cXlatLost else s
    | _ => s

/-- A line's age (R329): dirty, it is written back; clean, it is invalidated. Both come at most 65,536 clocks after the line
became dirty or was filled, and earlier where its home L2 takes the copy back (R215), so the event may come at any time. -/
def ageLine (c ln : Nat) (s : State) : State :=
  match (s.core c).line? ln with
  | none => s
  | some e => if e.dirtySince.isSome then writeBackLine s c ln else dropLine s c ln

/-- L1_LINE_AGE_EXPIRY (R329). -/
def execL1LineAgeExpiry (s : State) : Host.Outcome State Fault Refusal :=
  .next <| match s.arg with
    | .two c ln => ageLine c ln s
    | _ => s

end Sys2Proof.Machine
end

