-- ==== Sys2Proof/Machine/Scrim.lean ====
section
/-! DEFINITION. Reflections on their way (R340, R342, R347, R348), and the accesses of agents that act for no core:
the Dispatcher, the graph walker, window reflections, stack reducers and graph copies (R69, R85, R92). -/

namespace Sys2Proof.Machine

/-! ## Accesses for no core -/

/-- Translation of one byte for an agent that acts for no core, by the walk of a tower: no TLB and no RTT entry is
filled. The page needs R, or W for a write, and where `hbm` is set it has to lie in HBM. -/
def agentByte (s : State) (root va : Nat) (write hbm : Bool) : Xlat :=
  if 2 ^ 57 ≤ va then .lost
  else match walk s root va with
    | .leaf l =>
      if entryLock l.word then .locked
      else if !l.word.getLsbD (if write then 3 else 2) ∨ (hbm ∧ entryTier l.word) then .lost
      else
        let w := l.word ||| 0x20 ||| (if write then 0x40 else 0)
        .ok (entryPa l.word + va % 2 ^ l.shift) (if w = l.word then s else l2Write64 s l.entry w)
    | _ => .lost

/-- The bytes of a range translated one after another for such an agent. -/
def agentBytes (s : State) (root : Nat) (write hbm : Bool) : List Nat → XlatList
  | [] => .ok [] s
  | va :: rest =>
    match agentByte s root va write hbm with
    | .locked => .locked
    | .lost => .lost
    | .ok pa s1 =>
      match agentBytes s1 root write hbm rest with
      | .ok pas s2 => .ok (pa :: pas) s2
      | .locked => .locked
      | .lost => .lost

/-- The addresses of a range of `n` bytes. -/
def rangeFrom (va n : Nat) : List Nat := (List.range n).map (va + ·)

/-- A read of `n` bytes for such an agent, at the home L2. -/
def agentRead (s : State) (root va n : Nat) (hbm : Bool) : EngDone :=
  match agentBytes s root false hbm (rangeFrom va n) with
  | .ok pas s1 => .ok (l2Reads s1 pas) s1
  | .locked => .locked
  | .lost => .lost

/-- A write of bytes for such an agent, at the home L2. -/
def agentWrite (s : State) (root va : Nat) (bs : List Byte) (hbm : Bool) : EngDone :=
  match agentBytes s root true hbm (rangeFrom va bs.length) with
  | .ok pas s1 => .ok [] (l2Writes s1 pas bs)
  | .locked => .locked
  | .lost => .lost

/-! ## Routes -/

/-- The set ports towards a chip, ascending (Table 14.2). -/
def portsTo (s : State) (chip : Nat) : List Nat := bitsOf 48 ((mapGet s.route chip).getD 0)

/-- The port that a flit of flow number `f` towards a chip leaves by, where that port is up (R342). -/
def portFor (s : State) (chip f : Nat) : Option Nat :=
  let ps := portsTo s chip
  match ps[f % ps.length]? with
  | some n => if (s.scrimPort n).state = 2 then some n else none
  | none => none

/-- The flow number of a reflection (R342). -/
def flowNo (f : Flit) : Nat := 512 * f.core + f.tx
/-- Whether two reflections are of one flow (R340). -/
def sameFlow (f g : Flit) : Bool := decide (f.schip = g.schip) && decide (f.core = g.core) && decide (f.tx = g.tx)
/-- Whether a flit is the oldest of its flow among those not yet sent. -/
def firstOfFlow (s : State) (f : Flit) : Bool := decide ((s.outbox.find? fun g => sameFlow g f) = some f)

/-- The collective and chunk of a collective step: those without elements go with the first chunk (assumption 72). -/
def chunkKey : CollMsg → Nat × Nat
  | .chunk _ c => (c.collId, c.chunk)
  | .area hd => (hd.collId, 0)
  | .abort id _ _ => (id, 0)
/-- Whether two collective steps are of one flow (R340): one collective's chunk between the same two packages. -/
def sameCollFlow (f g : CollFlit) : Bool :=
  decide (f.schip = g.schip) && decide (f.dchip = g.dchip) && decide (chunkKey f.msg = chunkKey g.msg)

/-- A reflection addressed to another chip leaves by its route's port, once that is up; one of this package leaves in the order
of its flow. -/
def forwardFlit (f : Flit) (s : State) : State :=
  match portFor s f.dchip.toNat (flowNo f) with
  | none => s
  | some n =>
    if firstOfFlow s f then { s with outbox := s.outbox.erase f, forwarded := s.forwarded ++ [(n, f)] }
    else if f.schip ≠ s.lath.chipId then { s with forwarded := s.forwarded ++ [(n, f)] }
    else s

/-- A collective step addressed to another chip likewise, with the flow number COLLID + chunk index. -/
def forwardColl (f : CollFlit) (s : State) : State :=
  match portFor s f.dchip.toNat f.flow with
  | none => s
  | some n =>
    if (s.collOut.find? fun g => sameCollFlow g f) = some f then
      { s with collOut := s.collOut.erase f, collSent := s.collSent ++ [(n, f)] }
    else if f.schip ≠ s.lath.chipId then { s with collSent := s.collSent ++ [(n, f)] }
    else s

/-- FLIT_FORWARD (R342): a flit of this package, or one that has arrived from another, addressed to another chip. -/
def execFlitForward (s : State) : Host.Outcome State Fault Refusal :=
  .next <| match s.arg with
    | .flit f => if f.dchip = s.lath.chipId then s else forwardFlit f s
    | .coll f => if f.dchip = s.lath.chipId then s else forwardColl f s
    | _ => s

/-! ## Arrival (R347) -/

/-- What the table of R347 says of a reflection: acted on, to wait on LOCK, to be held for its team's grid, or to wait
for the column of its team. -/
inductive ReflEnd where
  | done (s : State)
  | locked
  | hold (grid : Nat)
  | busy

/-- The oldest running grid of a queue. -/
def oldestGrid (s : State) (q : Nat) : Option Grid :=
  s.grids.find? fun g => decide (g.queue = q) && (match g.stage with
    | .placing | .running => true
    | _ => false)

/-- The queue whose QROOT translates a receive entry of KIND 0: the lowest with EN = 1 and its ASID. -/
def asidQueue (s : State) (asid : Nat) : Option Queue :=
  (s.queues.find? fun q => q.2.en && decide (q.2.asid.toNat = asid)).map fun q => q.2

/-- Whether a byte of a reflection's destination is a valid leaf with W in HBM, and whether it is locked. -/
def reflByte (s : State) (root va : Nat) : Option Bool :=
  if 2 ^ 57 ≤ va then none
  else match walk s root va with
    | .leaf l => if l.word.getLsbD 3 ∧ !entryTier l.word then some (entryLock l.word) else none
    | _ => none

/-- Table 14.5 for a reflection that met the receive entry `e`; one that was in flight when EN was cleared is discarded
(R349). -/
def reflTable (e : BitVec 256) (f : Flit) (s : State) : ReflEnd :=
  let n := f.data.length
  if f.stale ∨ !winEn e ∨ (!rxAny e ∧ fld256 e 32 10 ≠ f.schip.toNat) ∨ winLen e < f.offset + n then .done (discardAt f s)
  else
    let counted (s : State) : State := if f.schip = s.lath.chipId then reflectionDone f.serial s else s
    if !rxKind e then
      match asidQueue s (fld256 e 168 12) with
      | none => .done (discardAt f s)
      | some q =>
        let root := q.root.toNat * 2 ^ 22
        let marks := (rangeFrom (rxBase e + f.offset) n).map (reflByte s root)
        if marks.contains none then .done (discardAt f s)
        else if marks.contains (some true) then .locked
        else match agentWrite s root (rxBase e + f.offset) f.data true with
          | .ok _ s1 => .done (counted s1)
          | .locked => .locked
          | .lost => .done (discardAt f s)
    else
      match oldestGrid s (fld256 e 180 10) with
      | none => .done (discardAt f s)
      | some g =>
        match s.teams.find? fun t => decide (t.grid = g.uid) && decide (t.teamid = fld256 e 96 32) with
        | none => .hold g.uid
        | some t =>
          let o := fld256 e 64 32 + f.offset
          if !localOk g o n then .done (discardAt f s)
          else if frozenAt s t.core [(o : Int)] then .busy
          else .done (counted (s.updTeam t.uid fun t => (t.setLocals o f.data).setFulls (granules o n) true))

/-- The state once an arriving reflection has been taken from where it came. -/
def reflSettle (e : BitVec 256) (f : Flit) (s taken : State) : State :=
  match taken.heldRefl.find? fun h => sameFlow h.2.2 f with
  | some h => { taken with heldRefl := taken.heldRefl ++ [(h.1, e, f)] }
  | none => match reflTable e f taken with
    | .done s1 => s1
    | .locked => { taken with lockedRefl := taken.lockedRefl ++ [(e, f)] }
    | .hold g => { taken with heldRefl := taken.heldRefl ++ [(g, e, f)] }
    | .busy => s

/-- Whether a new reflection can be accepted (R348): fewer than 4,096 are held, and none of its flow waits on LOCK. -/
def reflRoom (s : State) (f : Flit) : Bool :=
  decide (s.heldRefl.length < 4096) && !(s.lockedRefl.any fun h => sameFlow h.2 f)

/-- A reflection that waits on LOCK tried again (R92): it is older than the held ones of its flow. -/
def retryLocked (h : BitVec 256 × Flit) (s : State) : State :=
  match reflTable h.1 h.2 { s with lockedRefl := s.lockedRefl.erase h } with
  | .done s1 => s1
  | _ => s

/-- Whether a reflection of the flow of `f` waits on LOCK. -/
def flowLocked (s : State) (f : Flit) : Bool := s.lockedRefl.any fun h => sameFlow h.2 f

/-- A held reflection tried again, where it is the oldest of its flow (R348): the column of its team was frozen, or one before it
waited on LOCK, when the team was placed. -/
def retryHeld (h : Nat × BitVec 256 × Flit) (s : State) : State :=
  if flowLocked s h.2.2 ∨ (s.heldRefl.find? fun k => sameFlow k.2.2 h.2.2) ≠ some h then s
  else
    let taken := { s with heldRefl := s.heldRefl.erase h }
    match reflTable h.2.1 h.2.2 taken with
    | .done s1 => s1
    | .locked => { taken with lockedRefl := taken.lockedRefl ++ [h.2] }
    | .hold _ | .busy => s

/-- A reflection that arrives for the first time: one of this package by loop-back, in the order of its flow, or one of another
package. -/
def arriveNew (f : Flit) (s : State) : State :=
  if !reflRoom s f then s
  else if firstOfFlow s f then reflSettle (s.rxEntry f.rxIdx) f s { s with outbox := s.outbox.erase f }
  else if f.schip ≠ s.lath.chipId then reflSettle (s.rxEntry f.rxIdx) f s s
  else s

/-- REFLECTION_ARRIVAL (R347): one that arrives; one that waits on LOCK or is held, tried again; or the delivery elsewhere of one
that this package has sent. -/
def execReflectionArrival (s : State) : Host.Outcome State Fault Refusal :=
  .next <| match s.arg with
    | .flit f =>
      if f.dchip ≠ s.lath.chipId then
        if f.schip = s.lath.chipId ∧ s.forwarded.any (fun x => decide (x.2 = f)) then reflectionDone f.serial s else s
      else match s.lockedRefl.find? fun h => decide (h.2 = f) with
        | some h => retryLocked h s
        | none => match s.heldRefl.find? fun h => decide (h.2.2 = f) with
          | some h => retryHeld h s
          | none => arriveNew f s
    | _ => s

/-- Held reflections tried in order: those of a flow stay behind one that stays or that waits on LOCK (R348). -/
def releaseFrom : List (Nat × BitVec 256 × Flit) → State → State
  | [], s => s
  | h :: rest, s =>
    let keep (s : State) : State := { s with heldRefl := s.heldRefl ++ [h] }
    releaseFrom rest <|
      if (s.heldRefl.any fun k => sameFlow k.2.2 h.2.2) ∨ flowLocked s h.2.2 then keep s
      else match reflTable h.2.1 h.2.2 s with
        | .done s1 => s1
        | .locked => { s with lockedRefl := s.lockedRefl ++ [h.2] }
        | .hold _ | .busy => keep s

/-- The held reflections that can be written now, written: done when a team is placed (R348). -/
def releaseHeld (s : State) : State := releaseFrom s.heldRefl { s with heldRefl := [] }

/-- The held reflections that a test picks discarded (R348, R380, R385). -/
def discardHeld (p : Nat × BitVec 256 × Flit → Bool) (s : State) : State :=
  (s.heldRefl.filter p).foldl (fun s h => discardAt h.2.2 s) { s with heldRefl := s.heldRefl.filter fun h => !p h }

/-- Whether a reflection of this package finds no route, or its route crosses an untrained port here (R348). -/
def unroutable (s : State) (f : Flit) : Bool :=
  decide (f.schip = s.lath.chipId) && decide (f.dchip ≠ s.lath.chipId) && (portFor s f.dchip.toNat (flowNo f)).isNone

/-- Whether 1 ms has been counted for a reflection that waits here: 1,000 times FREQ clocks (R4, R29, R348). -/
def overdueFlit (s : State) (f : Flit) : Bool :=
  unroutable s f && decide (1000 * s.lath.freq.toNat ≤ (mapGet s.stuck f.serial).getD 0)

/-- REFLECTION_TIMEOUT (R348): a reflection of this package that has found no route, or whose route crosses an untrained
port, for 1 ms is discarded. For one that has left this package the time is the Scrim's. -/
def execReflectionTimeout (s : State) : Host.Outcome State Fault Refusal :=
  .next <| match s.arg with
    | .flit f =>
      let stuck := s.outbox.contains f && overdueFlit s f
      let away := s.forwarded.any (fun x => decide (x.2 = f)) && s.undelivered.any fun u => decide (u.2.2 = f.serial)
      if f.schip = s.lath.chipId ∧ (stuck ∨ away) then
        countEvent 5 (reflectionDone f.serial { s with
          outbox := s.outbox.erase f
          forwarded := s.forwarded.filter fun x => decide (x.2 ≠ f)
          txw := mapSet s.txw f.tx (s.txEntry f.tx ||| txDropBit) })
      else s
    | _ => s

end Sys2Proof.Machine
end

