-- ==== Sys2Proof/Machine/Float.lean ====
section
/-! DEFINITION. The floating-point instructions of majors 0x14 to 0x1C: arithmetic, sign and class
operations, comparison, conversion, block pack and unpack, and the transcendentals (R185 to R195). -/

namespace Sys2Proof.Machine

/-! ## Formats and operands -/

/-- The format of a type code of majors 0x14 to 0x19: F32, F64, F16, BF16. -/
def typeFmt (t : BitVec 2) : Fmt :=
  match t.toNat with
  | 0 => fmtF32
  | 1 => fmtF64
  | 2 => fmtF16
  | _ => fmtBF16

/-- The format of a float code of Table 5.13. -/
def codeFmt (g : BitVec 4) : Fmt :=
  match g.toNat with
  | 0 => fmtF64
  | 1 => fmtF32
  | 2 => fmtF16
  | 3 => fmtBF16
  | 4 => fmtE4M3
  | 5 => fmtE5M2
  | _ => fmtE2M1

/-- The bits of a format. -/
def Fmt.width (f : Fmt) : Nat := f.eb + f.mb + 1

/-- The random bits of a stochastic rounding for a pair (R40), with element index 0 (R186). -/
def Issue.random (c : Issue) (p : Nat × Nat) : Nat :=
  stippleSr24 (BitVec.ofNat 128 (c.grid.field 0x80 16)) (fpmSeedix (c.fpm p)) c.team.teamid (c.gid - c.group.sibling) p.2
    (c.group.memberId p.1) c.pc 0

/-- A floating-point operand of `n` registers, its bits above the format dropped (R185). -/
def Issue.fsrc (c : Issue) (f : Fmt) (code : BitVec 7) (n : Nat) (p : Nat × Nat) : Nat := c.srcNat code n p % 2 ^ f.width

/-- Results of `n` registers with their flags, entered with one latency. -/
def Issue.putFlags (c : Issue) (j : Instr) (d : BitVec 7) (n : Nat) (r : Nat × Nat → Nat × FFlags) (t : State) : Res :=
  .ok (c.raise (latency j) (fun p => (r p).2) (c.putN (latency j) d n (fun p => (r p).1) t))

/-! ## Arithmetic (R187) -/

/-- FADD, FSUB, FMUL and FMA: `third` supplies the addend of FMA. -/
def Issue.arith (c : Issue) (j : Instr) (op : FpOp) (t : BitVec 2) (m : BitVec 3) (d a b : BitVec 7) (s : State) : Res :=
  let n := regsOfArith t
  let f := typeFmt t
  c.putFlags j d n (fun p => fpArith f op (c.mode m false p) (c.fsrc f a n p) (c.fsrc f b n p)
    (if op = .fma then c.fsrc f (c.thirdOr d p) n p else 0)) s

/-- FADD (R187). -/
def execFadd (t : BitVec 2) (m : BitVec 3) (d a b : BitVec 7) (s : State) : Host.Outcome State Fault Refusal :=
  groupInstr (.fadd t m d a b) s fun c u => c.arith (.fadd t m d a b) .add t m d a b u

/-- FSUB (R187). -/
def execFsub (t : BitVec 2) (m : BitVec 3) (d a b : BitVec 7) (s : State) : Host.Outcome State Fault Refusal :=
  groupInstr (.fsub t m d a b) s fun c u => c.arith (.fsub t m d a b) .sub t m d a b u

/-- FMUL (R187). -/
def execFmul (t : BitVec 2) (m : BitVec 3) (d a b : BitVec 7) (s : State) : Host.Outcome State Fault Refusal :=
  groupInstr (.fmul t m d a b) s fun c u => c.arith (.fmul t m d a b) .mul t m d a b u

/-- FMA (R187). -/
def execFma (t : BitVec 2) (m : BitVec 3) (d a b : BitVec 7) (s : State) : Host.Outcome State Fault Refusal :=
  groupInstr (.fma t m d a b) s fun c u => c.arith (.fma t m d a b) .fma t m d a b u

/-! ## Sign, class, extremes, scaling (R189, Table 8.2) -/

/-- FMIN and FMAX: with equal keys the bits of a. -/
def fpExtreme (f : Fmt) (greater : Bool) (a b : Nat) : Nat × FFlags :=
  let x := f.value a
  let y := f.value b
  let nv := nvIf (x.isSnan || y.isSnan)
  if x.isNan && y.isNan then (f.qnan, nv)
  else if x.isNan then (b, nv)
  else if y.isNan then (a, nv)
  else if (if greater then decide (f.key a < f.key b) else decide (f.key b < f.key a)) then (b, nv) else (a, nv)

/-- FCLASS: the bit of the class (Table 8.3). -/
def fpClass (f : Fmt) (a : Nat) : Nat :=
  let neg := a.testBit (f.eb + f.mb)
  match f.value a with
  | .nan sg => if sg then 8 else 9
  | .inf _ => if neg then 0 else 7
  | .fin _ m _ =>
    if m = 0 then (if neg then 3 else 4)
    else if m < 2 ^ f.mb then (if neg then 2 else 5)
    else if neg then 1 else 6

/-- FSCALE: a × 2^n rounded. An exponent beyond ±4096 gives the result of ±4096 in every format. -/
def fpScale (f : Fmt) (mode : RMode) (a : Nat) (n : Int) : Nat × FFlags :=
  match f.value a with
  | .nan sg => (f.qnan, nvIf sg)
  | .inf _ => (a, 0)
  | .fin neg m e => if m = 0 then (a, 0) else f.result mode (.fin neg m (e + max (-4096) (min 4096 n)))

/-- FMIN (R189). -/
def execFmin (t : BitVec 2) (d a b : BitVec 7) (s : State) : Host.Outcome State Fault Refusal :=
  groupInstr (.fmin t d a b) s fun c u =>
    let n := regsOfType t
    let f := typeFmt t
    c.putFlags (.fmin t d a b) d n (fun p => fpExtreme f false (c.fsrc f a n p) (c.fsrc f b n p)) u

/-- FMAX (R189). -/
def execFmax (t : BitVec 2) (d a b : BitVec 7) (s : State) : Host.Outcome State Fault Refusal :=
  groupInstr (.fmax t d a b) s fun c u =>
    let n := regsOfType t
    let f := typeFmt t
    c.putFlags (.fmax t d a b) d n (fun p => fpExtreme f true (c.fsrc f a n p) (c.fsrc f b n p)) u

/-- FABS (R189). -/
def execFabs (t : BitVec 2) (d a : BitVec 7) (s : State) : Host.Outcome State Fault Refusal :=
  groupInstr (.fabs t d a) s fun c u =>
    let n := regsOfType t
    let f := typeFmt t
    .ok (c.putN (latency (.fabs t d a)) d n (fun p => c.fsrc f a n p % f.signBit) u)

/-- FNEG (R189). -/
def execFneg (t : BitVec 2) (d a : BitVec 7) (s : State) : Host.Outcome State Fault Refusal :=
  groupInstr (.fneg t d a) s fun c u =>
    let n := regsOfType t
    let f := typeFmt t
    .ok (c.putN (latency (.fneg t d a)) d n (fun p => c.fsrc f a n p ^^^ f.signBit) u)

/-- FCPYS (R189). -/
def execFcpys (t : BitVec 2) (d a b : BitVec 7) (s : State) : Host.Outcome State Fault Refusal :=
  groupInstr (.fcpys t d a b) s fun c u =>
    let n := regsOfType t
    let f := typeFmt t
    .ok (c.putN (latency (.fcpys t d a b)) d n
      (fun p => c.fsrc f a n p % f.signBit + (c.fsrc f b n p / f.signBit) * f.signBit) u)

/-- FCLASS (R189, Table 8.3). -/
def execFclass (t : BitVec 2) (d a : BitVec 7) (s : State) : Host.Outcome State Fault Refusal :=
  groupInstr (.fclass t d a) s fun c u =>
    let f := typeFmt t
    .ok (c.putN (latency (.fclass t d a)) d 1 (fun p => 2 ^ fpClass f (c.fsrc f a (regsOfType t) p)) u)

/-- FSCALE (R189): the mode is dynamic unless an RND word is bound. -/
def execFscale (t : BitVec 2) (d a b : BitVec 7) (s : State) : Host.Outcome State Fault Refusal :=
  groupInstr (.fscale t d a b) s fun c u =>
    let n := regsOfType t
    let f := typeFmt t
    c.putFlags (.fscale t d a b) d n (fun p => fpScale f (c.mode 0 false p) (c.fsrc f a n p) (c.src b p).toInt) u

/-! ## Comparison (R190) -/

/-- A relation of FCMP: 0 EQ, 1 NE, 2 LT, 3 LE, 4 GT, 5 GE, 6 UN, 7 ORD, and its flag. -/
def fpCompare (f : Fmt) (r : BitVec 3) (a b : Nat) : Bool × FFlags :=
  let x := f.value a
  let y := f.value b
  let ordered := decide (2 ≤ r.toNat) && decide (r.toNat ≤ 5)
  if x.isNan || y.isNan then (r == 1 || r == 6, nvIf (ordered || x.isSnan || y.isSnan))
  else
    let k := cmpNum x y
    (match r.toNat with
     | 0 => decide (k = 0)
     | 1 => decide (k ≠ 0)
     | 2 => decide (k < 0)
     | 3 => decide (k ≤ 0)
     | 4 => decide (0 < k)
     | 5 => decide (0 ≤ k)
     | 6 => false
     | _ => true, 0)

/-- FCMP (R190). -/
def execFcmp (r : BitVec 3) (t : BitVec 2) (q : BitVec 3) (a b : BitVec 7) (s : State) : Host.Outcome State Fault Refusal :=
  groupInstr (.fcmp r t q a b) s fun c u =>
    let n := regsOfType t
    let f := typeFmt t
    let v (p : Nat × Nat) := fpCompare f r (c.fsrc f a n p) (c.fsrc f b n p)
    let lat := latency (.fcmp r t q a b)
    .ok (c.raise lat (fun p => (v p).2) (c.putPred lat q (fun p => (v p).1) u))

/-! ## Conversion (R191) -/

/-- The bits of an integer code of Table 5.13. -/
def codeBits (g : BitVec 4) : Nat := 8 * 2 ^ ((g.toNat - 8) / 2)
/-- Whether an integer code is signed. -/
def codeSigned (g : BitVec 4) : Bool := !g.getLsbD 0

/-- The value of a CVT source (R185). -/
def cvtSource (k : BitVec 4) (bits : Nat) : Num :=
  if k.toNat < 8 then (codeFmt k).value (bits % 2 ^ (codeFmt k).width)
  else
    let w := codeBits k
    let v := bits % 2 ^ w
    if codeSigned k ∧ v.testBit (w - 1) then Num.ofInt ((v : Int) - (2 ^ w : Nat)) else Num.ofNat v

/-- The result of a conversion, as the register or pair it is written to holds it (R185, Table 8.4): a signed
integer sign-extended. -/
def cvtResult (g k : BitVec 4) (mode : RMode) (r24 : Nat) (satn : Bool) (bits : Nat) : Nat × FFlags :=
  let x := cvtSource k bits
  if g.toNat < 8 then (codeFmt g).convert mode r24 satn x
  else
    let (v, fl) := toInteger (codeSigned g) (codeBits g) mode x
    ((BitVec.ofInt 64 v).toNat, fl)

/-- CVT (R191). -/
def execCvt (g : BitVec 4) (d a : BitVec 7) (k : BitVec 4) (m : BitVec 3) (s : State) : Host.Outcome State Fault Refusal :=
  groupInstr (.cvt g d a k m) s fun c u =>
    c.putFlags (.cvt g d a k m) d (regsOfCode g) (fun p =>
      cvtResult g k (c.mode m (srOk (.cvt g d a k m)) p) (c.random p) (fpmSatn (c.fpm p)) (c.srcNat a (regsOfCode k) p)) u

/-! ## Block pack and unpack (R192 to R194) -/

/-- The live pairs of the block of a pair: lanes of its member context, all of them or the eight of its
eighth (R192). -/
def Issue.blockOf (c : Issue) (lanes : Nat) (p : Nat × Nat) : List (Nat × Nat) :=
  c.live.filter fun q => decide (q.1 = p.1) && decide (q.2 / lanes = p.2 / lanes)

/-- The magnitude of a finite binary32 value in units of 2^−149; 0 for the others. -/
def f32Mag (a : Nat) : Nat :=
  match fmtF32.value a with
  | .fin _ m e => m * 2 ^ (e + 149).toNat
  | _ => 0

/-- Whether a value rounded into a format with its exponent range unbounded is at most the format's maximum
finite value (`round_unb` of R193). -/
def roundsWithin (f : Fmt) (mode : RMode) (m : Nat) (e : Int) : Bool :=
  let q : Int := e + (m.log2 : Nat) - f.mb
  let k := (roundAt mode 0 false m e q).1
  decide (cmpNum (.fin false k q) (f.value f.maxBits) ≤ 0)

/-- The scale exponent x of R193 for a nonzero amax in units of 2^−149. -/
def mxExponent (f : Fmt) (mode : RMode) (amax : Nat) : Int :=
  match (List.range 255).find? fun k => roundsWithin f (if mode = .sr then .rup else mode) amax (-149 - ((k : Int) - 127)) with
  | some k => (k : Int) - 127
  | none => 127

/-- `pack_mx` of R193 for one lane: its word and flags, from the binary32 sources of its block. -/
def packMx (f : Fmt) (mode : RMode) (r24 : Nat) (block : List Nat) (v : Nat) : Nat × FFlags :=
  let bad := block.any fun a => (fmtF32.value a).isNan || (fmtF32.value a).isInf
  if bad then (0xFF00, nvIf (block.any fun a => (fmtF32.value a).isInf || (fmtF32.value a).isSnan))
  else
    let amax := block.foldl (fun m a => max m (f32Mag a)) 0
    let x : Int := if amax = 0 then 0 else mxExponent f mode amax
    match fmtF32.value v with
    | .fin neg m e =>
      let (el, fl) := f.round mode r24 true neg m (e - x)
      ((x + 127).toNat * 256 + el, fl)
    | _ => (0, 0)

/-- The smallest E3M5 pattern of at least amax / 6, at most 0xFF (R193); amax is in units of 2^−149. -/
def tb4Scale (amax : Nat) : Nat :=
  ((List.range 256).find? fun k => match fmtE3M5.value k with
    | .fin _ m e => decide (amax ≤ 6 * (m * 2 ^ (e + 149).toNat))
    | _ => false).getD 0xFF

/-- `pack_tb4` of R193 for one lane. -/
def packTb4 (mode : RMode) (r24 : Nat) (block : List Nat) (v : Nat) : Nat × FFlags :=
  let nv := nvIf (block.any fun a => (fmtF32.value a).isInf || (fmtF32.value a).isSnan)
  let amax := block.foldl (fun m a => max m (f32Mag a)) 0
  let sc := if amax = 0 then 0 else tb4Scale amax
  let (el, fl) : Nat × FFlags := match fmtF32.value v with
    | .nan _ => (0, 0)
    | .inf neg => ((if neg then 8 else 0) + 7, 0)
    | .fin neg m e =>
      if amax = 0 then (if neg then 8 else 0, 0)
      else match fmtE3M5.value sc with
        | .fin _ sm se => match quotient neg m sm (e - se) with
          | .fin _ k q => fmtE2M1.round mode r24 true neg k q
          | _ => (0, 0)
        | _ => (0, 0)
  (sc * 256 + el, fl ||| nv)

/-- A pack over blocks of some lanes. -/
def Issue.pack (c : Issue) (j : Instr) (lanes : Nat) (d a : BitVec 7) (m : BitVec 3)
    (f : RMode → Nat → List Nat → Nat → Nat × FFlags) (s : State) : Res :=
  c.putFlags j d 1 (fun p => f (c.mode m true p) (c.random p)
    ((c.blockOf lanes p).map fun q => (c.src a q).toNat) (c.src a p).toNat) s

/-- The element format of an MX8 form. -/
def mx8Fmt (e : BitVec 1) : Fmt := if e = 1 then fmtE5M2 else fmtE4M3

/-- PACK.MX8.E4 and PACK.MX8.E5 (R193). -/
def execPackMx8 (e : BitVec 1) (d a : BitVec 7) (m : BitVec 3) (s : State) : Host.Outcome State Fault Refusal :=
  groupInstr (.packMx8 e d a m) s fun c u => c.pack (.packMx8 e d a m) 32 d a m (packMx (mx8Fmt e)) u

/-- PACK.MX4 (R193). -/
def execPackMx4 (d a : BitVec 7) (m : BitVec 3) (s : State) : Host.Outcome State Fault Refusal :=
  groupInstr (.packMx4 d a m) s fun c u => c.pack (.packMx4 d a m) 32 d a m (packMx fmtE2M1) u

/-- PACK.TB4 (R193). -/
def execPackTb4 (d a : BitVec 7) (m : BitVec 3) (s : State) : Host.Outcome State Fault Refusal :=
  groupInstr (.packTb4 d a m) s fun c u => c.pack (.packTb4 d a m) 8 d a m packTb4 u

/-- The value of an E8M0 scale (R34): 2^(X − 127), or none for 0xFF. -/
def e8m0 (x : Nat) : Option Num := if x = 255 then none else some (.fin false 1 ((x : Int) - 127))

/-- `unpack` of R194. -/
def unpack (f : Fmt) (scale : Option Num) (mode : RMode) (w : Nat) : Nat × FFlags :=
  match scale with
  | none => (fmtF32.qnan, 0)
  | some sc =>
    let x := f.value w
    if x.isNan then (fmtF32.qnan, nvIf x.isSnan)
    else match mulNum x sc with
      | some v => fmtF32.result mode v
      | none => (fmtF32.qnan, 0)

/-- An unpack of each lane's own word. -/
def Issue.unpackEach (c : Issue) (j : Instr) (d a : BitVec 7) (m : BitVec 3) (f : Fmt) (scale : Nat → Option Num) (s : State) : Res :=
  c.putFlags j d 1 (fun p =>
    let w := (c.src a p).toNat
    unpack f (scale (w / 256 % 256)) (c.mode m false p) (w % 2 ^ f.width)) s

/-- UNPK.MX8.E4 and UNPK.MX8.E5 (R194). -/
def execUnpkMx8 (e : BitVec 1) (d a : BitVec 7) (m : BitVec 3) (s : State) : Host.Outcome State Fault Refusal :=
  groupInstr (.unpkMx8 e d a m) s fun c u => c.unpackEach (.unpkMx8 e d a m) d a m (mx8Fmt e) e8m0 u

/-- UNPK.MX4 (R194). -/
def execUnpkMx4 (d a : BitVec 7) (m : BitVec 3) (s : State) : Host.Outcome State Fault Refusal :=
  groupInstr (.unpkMx4 d a m) s fun c u => c.unpackEach (.unpkMx4 d a m) d a m fmtE2M1 e8m0 u

/-- UNPK.TB4 (R194). -/
def execUnpkTb4 (d a : BitVec 7) (m : BitVec 3) (s : State) : Host.Outcome State Fault Refusal :=
  groupInstr (.unpkTb4 d a m) s fun c u =>
    c.unpackEach (.unpkTb4 d a m) d a m fmtE2M1 (fun k => some (fmtE3M5.value k)) u

/-! ## Transcendentals (R195) -/

/-- A transcendental of each live pair. -/
def Issue.elem (c : Issue) (j : Instr) (fn : ElemFn) (d a : BitVec 7) (m : BitVec 3) (s : State) : Res :=
  c.putFlags j d 1 (fun p => elemResult fn (c.mode m false p) (c.src a p).toNat) s

/-- RCP (R195). -/
def execRcp (d a : BitVec 7) (m : BitVec 3) (s : State) : Host.Outcome State Fault Refusal :=
  groupInstr (.rcp d a m) s fun c u => c.elem (.rcp d a m) .rcp d a m u

/-- RSQ (R195). -/
def execRsq (d a : BitVec 7) (m : BitVec 3) (s : State) : Host.Outcome State Fault Refusal :=
  groupInstr (.rsq d a m) s fun c u => c.elem (.rsq d a m) .rsq d a m u

/-- SQRT (R195). -/
def execSqrt (d a : BitVec 7) (m : BitVec 3) (s : State) : Host.Outcome State Fault Refusal :=
  groupInstr (.sqrt d a m) s fun c u => c.elem (.sqrt d a m) .sqrt d a m u

/-- EXP2 (R195). -/
def execExp2 (d a : BitVec 7) (m : BitVec 3) (s : State) : Host.Outcome State Fault Refusal :=
  groupInstr (.exp2 d a m) s fun c u => c.elem (.exp2 d a m) .exp2 d a m u

/-- LOG2 (R195). -/
def execLog2 (d a : BitVec 7) (m : BitVec 3) (s : State) : Host.Outcome State Fault Refusal :=
  groupInstr (.log2 d a m) s fun c u => c.elem (.log2 d a m) .log2 d a m u

/-- SINPI (R195). -/
def execSinpi (d a : BitVec 7) (m : BitVec 3) (s : State) : Host.Outcome State Fault Refusal :=
  groupInstr (.sinpi d a m) s fun c u => c.elem (.sinpi d a m) .sinpi d a m u

/-- COSPI (R195). -/
def execCospi (d a : BitVec 7) (m : BitVec 3) (s : State) : Host.Outcome State Fault Refusal :=
  groupInstr (.cospi d a m) s fun c u => c.elem (.cospi d a m) .cospi d a m u

end Sys2Proof.Machine
end

