-- ==== Sys2Proof/Machine/Select.lean ====
section
/-! DEFINITION. Long accumulators, selection and ensemble statistics: majors 0x20 to 0x22 (R46 to R50, R59, R196
to R206). -/

namespace Sys2Proof.Machine

/-! ## Long accumulators (R46 to R50) -/

/-- An accumulator whose N becomes an exact integer (R48). -/
def Lacc.setN (a : Lacc) (v : Int) : Lacc :=
  { a with n := BitVec.ofInt 2176 v, ovf := a.ovf || decide (v < -((2 ^ 2175 : Nat) : Int)) || decide (((2 ^ 2175 : Nat) : Int) ≤ v) }

/-- `lac_add` (R48). -/
def Lacc.add (a : Lacc) (v : Num) : Lacc :=
  match v with
  | .nan _ => { a with nan := true }
  | .inf neg => if neg then { a with ninf := true } else { a with pinf := true }
  | .fin neg m e => a.setN (a.n.toInt + scaled neg m e (-1074))

/-- Accumulator b merged into a (R48). -/
def Lacc.merge (a b : Lacc) : Lacc :=
  let s := a.setN (a.n.toInt + b.n.toInt)
  { s with pinf := a.pinf || b.pinf, ninf := a.ninf || b.ninf, nan := a.nan || b.nan, ovf := s.ovf || b.ovf }

/-- The read-out of an accumulator (R50, Table 2.8). -/
def Lacc.readOut (a : Lacc) (f : Fmt) (mode : RMode) : Nat × FFlags :=
  if a.ovf then (f.qnan, flagNV)
  else if a.nan then (f.qnan, 0)
  else if a.pinf && a.ninf then (f.qnan, flagNV)
  else if a.pinf then f.result mode (.inf false)
  else if a.ninf then f.result mode (.inf true)
  else f.result mode (.fin (decide (a.n.toInt < 0)) a.n.toInt.natAbs (-1074))

/-- The memory image of an accumulator (R47). -/
def Lacc.image (a : Lacc) : List Byte :=
  bytesOfNat 272 a.n.toNat ++
    bytesOfNat 16 ((if a.pinf then 1 else 0) + (if a.ninf then 2 else 0) + (if a.nan then 4 else 0) + (if a.ovf then 8 else 0))

/-- The accumulator of an image; its reserved bits are taken as zero (R47). -/
def Lacc.ofImage (bs : List Byte) : Lacc :=
  let f := natOfBytes ((bs.drop 272).take 1)
  { n := BitVec.ofNat 2176 (natOfBytes (bs.take 272)), pinf := f.testBit 0, ninf := f.testBit 1, nan := f.testBit 2, ovf := f.testBit 3 }

/-- The launched group count G of a record. -/
def Grid.launched (g : Grid) : Nat := g.field 0x24 1 * g.field 0x25 1 * g.field 0x26 1

/-- The pool entry bound by binding x of a member slot; `none` where it traps LAC_BIND (R196). -/
def Issue.bound (c : Issue) (e : Nat) (x : BitVec 2) : Option Nat :=
  match mapGet c.group.xbind (4 * e + x.toNat) with
  | some k => if k < 4 * c.grid.launched then some k else none
  | none => none

/-- A pool entry of a team. -/
def Team.lacc (t : Team) (k : Nat) : Lacc := (mapGet t.lac k).getD {}
/-- A pool entry of a team written. -/
def Team.setLacc (t : Team) (k : Nat) (a : Lacc) : Team := { t with lac := mapSet t.lac k a }

/-- An effect on the bound entry of every live member context, in ascending slot (R199); an unbound binding
traps LAC_BIND before any of them. -/
def Issue.onBound (c : Issue) (xs : List (BitVec 2)) (f : Nat → Team → Team) (s : State) : Res :=
  if c.slots.any fun e => xs.any fun x => (c.bound e x).isNone then .trap { code := cLacBind }
  else .ok (s.updTeam c.uid fun t => c.slots.foldl (fun t e => f e t) t)

/-- LAC.ADD (R198). -/
def execLacAdd (t : BitVec 2) (x : BitVec 2) (a : BitVec 7) (s : State) : Host.Outcome State Fault Refusal :=
  groupInstr (.lacAdd t x a) s fun c u =>
    let f := codeFmt (t.setWidth 4)
    let n := if t = 0 then 2 else 1
    c.onBound [x] (fun e tm =>
      let k := (c.bound e x).getD 0
      tm.setLacc k ((c.lanes e).foldl (fun acc l => acc.add (f.value (c.fsrc f a n (e, l)))) (tm.lacc k))) u

/-- LAC.CLR (R198). -/
def execLacClr (x : BitVec 2) (s : State) : Host.Outcome State Fault Refusal :=
  groupInstr (.lacClr x) s fun c u => c.onBound [x] (fun e tm => tm.setLacc ((c.bound e x).getD 0) {}) u

/-- LAC.CLR.BIND (R198): binds, and clears the entry bound. -/
def execLacClrBind (x : BitVec 2) (a : BitVec 7) (s : State) : Host.Outcome State Fault Refusal :=
  groupInstr (.lacClrBind x a) s fun c u =>
    let k (e : Nat) := (c.memberValue a e).toNat
    if c.slots.any fun e => decide (4 * c.grid.launched ≤ k e) then .trap { code := cLacBind }
    else .ok (u.updTeam c.uid fun tm => c.slots.foldl (fun tm e =>
      (tm.updGroup c.gid fun g => { g with xbind := mapSet g.xbind (4 * e + x.toNat) (k e) }).setLacc (k e) {}) tm)

/-- LAC.MRG (R198): y into x. -/
def execLacMrg (x y : BitVec 2) (s : State) : Host.Outcome State Fault Refusal :=
  groupInstr (.lacMrg x y) s fun c u =>
    c.onBound [x, y] (fun e tm =>
      let k := (c.bound e x).getD 0
      tm.setLacc k ((tm.lacc k).merge (tm.lacc ((c.bound e y).getD 0)))) u

/-- LAC.RND (R198). -/
def execLacRnd (d : BitVec 7) (x : BitVec 2) (f : BitVec 4) (m : BitVec 3) (s : State) : Host.Outcome State Fault Refusal :=
  groupInstr (.lacRnd d x f m) s fun c u =>
    if c.slots.any fun e => (c.bound e x).isNone then .trap { code := cLacBind }
    else
      let r (p : Nat × Nat) := (c.team.lacc ((c.bound p.1 x).getD 0)).readOut (codeFmt f) (c.mode m false p)
      .ok (c.raise none (fun p => (r p).2) (c.putN none d (regsOfCode f) (fun p => (r p).1) u))

/-- The checks of LAC.LD and LAC.ST: bindings, alignment to 32 bytes, then the lease of 288 bytes, each for
every live member context before any effect (R198). -/
def Issue.lacCheck (c : Issue) (x : BitVec 2) (a : BitVec 7) (perm : Perm) : Check :=
  if c.slots.any fun e => (c.bound e x).isNone then some (.trap { code := cLacBind })
  else
    let ps := c.slots.map c.memberPair
    (alignCheck ps (fun p => c.src64 a p) 32).andThen (c.leaseCheck ps (fun p => c.src64 a p) 288 perm)

/-- LAC.LD (R198). -/
def execLacLd (x : BitVec 2) (a : BitVec 7) (s : State) : Host.Outcome State Fault Refusal :=
  groupInstr (.lacLd x a) s fun c u =>
    (c.lacCheck x a .r).orElse fun _ =>
      (c.accesses (fun p => c.src64 a p) 288 false (fun s _ pas => coreLoads s c.team.core pas) (c.slots.map c.memberPair) u).andThen
        fun vs u => .ok (u.updTeam c.uid fun tm => c.slots.foldl (fun tm e =>
          tm.setLacc ((c.bound e x).getD 0) (Lacc.ofImage (bytesOf vs (c.memberPair e)))) tm)

/-- LAC.ST (R198). -/
def execLacSt (x : BitVec 2) (a : BitVec 7) (s : State) : Host.Outcome State Fault Refusal :=
  groupInstr (.lacSt x a) s fun c u =>
    (c.lacCheck x a .w).orElse fun _ =>
      (c.accesses (fun p => c.src64 a p) 288 true
        (fun s p pas => ([], coreStores s c.team.core pas (c.team.lacc ((c.bound p.1 x).getD 0)).image))
        (c.slots.map c.memberPair) u).andThen fun _ u => .ok u

/-! ## Selection (R59, R200 to R203) -/

/-- A selection entry: the value's bits and the index. -/
structure SelEntry where
  value : Nat
  index : Word
  deriving DecidableEq, Repr

/-- The empty entry (R203). -/
def SelEntry.empty : SelEntry := ⟨0, 0xFFFFFFFF⟩

/-- The float format of a selection type; `none` for S32 and N32. -/
def selFmt (t : BitVec 3) : Option Fmt := if t.toNat < 4 then some (codeFmt (match t.toNat with | 0 => 1 | 1 => 0 | 2 => 2 | _ => 3)) else none

/-- The key of a value in the order of R59; `none` for a NaN. -/
def selKey (t : BitVec 3) (v : Nat) : Option Int :=
  match selFmt t with
  | some f => if (f.value v).isNan then none else some (f.key v)
  | none => if t = 4 then some (BitVec.ofNat 32 v).toInt else some (v : Int)

/-- Whether a value is a signalling NaN of its type. -/
def selSnan (t : BitVec 3) (v : Nat) : Bool :=
  match selFmt t with
  | some f => (f.value v).isSnan
  | none => false

/-- Whether entry x is preferred to the entry y that is held (R200). -/
def preferred (t : BitVec 3) (lessWins : Bool) (x y : SelEntry) : Bool :=
  if x.index = 0xFFFFFFFF then false
  else if y.index = 0xFFFFFFFF then true
  else match selKey t x.value, selKey t y.value with
    | some _, none => true
    | none, some _ => false
    | none, none => x.index.ult y.index
    | some k, some h => if k = h then x.index.ult y.index else if lessWins then decide (k < h) else decide (h < k)

/-- A value of a selection type in its operand (R185, R201). -/
def Issue.selValue (c : Issue) (t : BitVec 3) (code : BitVec 7) (p : Nat × Nat) : Nat :=
  match selFmt t with
  | some f => c.fsrc f code (selRegs t) p
  | none => c.srcNat code 1 p

/-- The candidate of a pair. -/
def Issue.candidate (c : Issue) (t : BitVec 3) (a b : BitVec 7) (p : Nat × Nat) : SelEntry := ⟨c.selValue t a p, c.src b p⟩
/-- The entry a register group holds for a pair. -/
def Issue.heldEntry (c : Issue) (t : BitVec 3) (d : BitVec 7) (p : Nat × Nat) : SelEntry := ⟨c.selValue t d p, c.reg d (selRegs t) p⟩

/-- The registers of an entry: the value, then the index. -/
def SelEntry.reg (x : SelEntry) (t : BitVec 3) (j : Nat) : Word :=
  if j < selRegs t then BitVec.ofNat 32 (x.value / 2 ^ (32 * j)) else x.index

/-- The writes of MAXI and MINI: a pair writes its entry where its candidate is preferred; a shared register
follows its lowest pair (R140, R152, R202). -/
def Issue.selWrites (c : Issue) (t : BitVec 3) (lessWins : Bool) (d a b : BitVec 7) : List (Loc × Word) :=
  let wins (p : Nat × Nat) := preferred t lessWins (c.candidate t a b p) (c.heldEntry t d p)
  let first (p : Nat × Nat) : Bool := (c.live.find? fun q => decide (cellOf d 0 q.1 q.2 = cellOf d 0 p.1 p.2)) == some p
  destWrites ((c.live.filter first).filter wins) d (selRegs t + 1) fun p j => (c.candidate t a b p).reg t j

/-- MAXI and MINI (R202). -/
def Issue.select (c : Issue) (j : Instr) (t : BitVec 3) (lessWins : Bool) (d a b : BitVec 7) (s : State) : Res :=
  .ok (c.raise (latency j) (fun p => nvIf (selSnan t (c.selValue t a p)))
    (c.write (latency j) (c.selWrites t lessWins d a b) s))

/-- MAXI (R202). -/
def execMaxi (t : BitVec 3) (d a b : BitVec 7) (s : State) : Host.Outcome State Fault Refusal :=
  groupInstr (.maxi t d a b) s fun c u => c.select (.maxi t d a b) t false d a b u

/-- MINI (R202). -/
def execMini (t : BitVec 3) (d a b : BitVec 7) (s : State) : Host.Outcome State Fault Refusal :=
  groupInstr (.mini t d a b) s fun c u => c.select (.mini t d a b) t true d a b u

/-- k of TOPK and TOPKM: group_value of the SRC3 operand, clamped (R203). -/
def Issue.topCount (c : Issue) (hi : Nat) : Nat :=
  match c.lead with
  | some p => match c.third p with
    | some code => max 1 (min hi (c.src code p).toNat)
    | none => 1
  | none => 1

/-- The candidates of a member slot: its live lanes, less those with index 0xFFFF_FFFF (R203). -/
def Issue.rowOf (c : Issue) (t : BitVec 3) (a b : BitVec 7) (e : Nat) : List SelEntry :=
  ((c.lanes e).map fun l => c.candidate t a b (e, l)).filter fun x => decide (x.index ≠ 0xFFFFFFFF)

/-- Entry j of a result: the j-th most preferred where there is one below k. -/
def entryAt (k : Nat) (l : List SelEntry) (j : Nat) : SelEntry := if j < k then nth l j .empty else .empty

/-- The flag of a selection row: NV for a signalling NaN candidate. -/
def Issue.rowFlags (c : Issue) (t : BitVec 3) (a b : BitVec 7) (p : Nat × Nat) : FFlags :=
  nvIf ((c.candidate t a b p).index ≠ 0xFFFFFFFF && selSnan t (c.selValue t a p))

/-- TOPK (R203). -/
def execTopk (t : BitVec 3) (d a b : BitVec 7) (s : State) : Host.Outcome State Fault Refusal :=
  gangWide (.topk t d a b) cGangUnreachable s fun c u =>
    let row (e : Nat) := stableSort (preferred t false) (c.rowOf t a b e)
    .ok (c.raise none (c.rowFlags t a b)
      (c.write none (destWrites c.live d (selRegs t + 1) fun p j => (entryAt (c.topCount 32) (row p.1) p.2).reg t j) u))

/-- The register group of the second half of a TOPKM list. -/
def secondGroup (t : BitVec 3) (d : BitVec 7) : BitVec 7 := d + BitVec.ofNat 7 (entryRegs t)

/-- TOPKM (R203): the list's 64 entries first, then the candidates. -/
def execTopkm (t : BitVec 3) (d a b : BitVec 7) (s : State) : Host.Outcome State Fault Refusal :=
  gangWide (.topkm t d a b) cGangUnreachable s fun c u =>
    let held (e : Nat) := (List.range 32).map (fun l => c.heldEntry t d (e, l)) ++
      (List.range 32).map fun l => c.heldEntry t (secondGroup t d) (e, l)
    let row (e : Nat) := stableSort (preferred t false) (held e ++ c.rowOf t a b e)
    let k := c.topCount 64
    .ok (c.raise none (c.rowFlags t a b)
      (c.write none
        (destWrites c.live d (selRegs t + 1) (fun p j => (entryAt k (row p.1) p.2).reg t j) ++
          destWrites c.live (secondGroup t d) (selRegs t + 1) fun p j => (entryAt k (row p.1) (p.2 + 32)).reg t j) u))

/-! ## Ensemble statistics (R204, R205) -/

/-- A member of a lane: the issue of its group and its pair. -/
abbrev Sample := Issue × (Nat × Nat)

/-- The members of lane l over a sibling set, in ascending n. -/
def samplesAt (issues : List Issue) (l : Nat) : List Sample :=
  issues.flatMap fun k => (k.live.filter fun p => decide (p.2 = l)).map fun p => (k, p)

/-- The format of ESTAT and its register count. -/
def statFmt (f : BitVec 1) : Fmt := if f = 1 then fmtF32 else fmtF64
/-- The registers of an ESTAT value. -/
def statRegs (f : BitVec 1) : Nat := if f = 1 then 1 else 2

/-- The bits a sample's operand holds. -/
def Sample.bits (x : Sample) (f : BitVec 1) (a : BitVec 7) : Nat := x.1.fsrc (statFmt f) a (statRegs f) x.2

/-- The exact sum of finite values and of their squares, as multiples of 2^q and 2^(2q), with q the lowest
weight of the format. -/
def exactSums (q : Int) (vs : List Num) : Int × Int :=
  vs.foldl (fun acc v => match v with
    | .fin neg m e => let x := scaled neg m e q; (acc.1 + x, acc.2 + x * x)
    | _ => acc) (0, 0)

/-- MEAN (R205). -/
def statMean (fm : Fmt) (mode : RMode) (bits : List Nat) : Nat × FFlags :=
  let vs := bits.map fm.value
  let nv := nvIf (vs.any Num.isSnan)
  if vs.any Num.isNan then (fm.qnan, nv)
  else if vs.contains (.inf false) && vs.contains (.inf true) then (fm.qnan, flagNV)
  else if vs.contains (.inf false) then fm.result mode (.inf false)
  else if vs.contains (.inf true) then fm.result mode (.inf true)
  else
    let s := (exactSums fm.minExp vs).1
    if s = 0 then (0, 0) else fm.result mode (quotient (decide (s < 0)) s.natAbs vs.length fm.minExp)

/-- SPRD (R205): the population standard deviation. -/
def statSprd (fm : Fmt) (mode : RMode) (bits : List Nat) : Nat × FFlags :=
  let vs := bits.map fm.value
  let nv := nvIf (vs.any Num.isSnan || vs.any Num.isInf)
  if vs.any Num.isNan || vs.any Num.isInf then (fm.qnan, nv)
  else
    let (s, q) := exactSums fm.minExp vs
    let n : Int := (vs.length : Int) * q - s * s
    if n = 0 then (0, 0) else fm.result mode (sqrtQuotient n.natAbs (vs.length * vs.length) (2 * fm.minExp))

/-- RANK (R205): how many members lie below t. -/
def statRank (fm : Fmt) (t : Nat) (bits : List Nat) : Nat × FFlags :=
  let vs := bits.map fm.value
  let nv := nvIf (vs.any Num.isSnan || (fm.value t).isSnan)
  (if (fm.value t).isNan then 0xFFFFFFFF
    else (vs.filter fun v => !v.isNan && decide (cmpNum v (fm.value t) < 0)).length, nv)

/-- QNT (R205): element r of the values in the order of R59, NaNs last, ties by n. -/
def statQnt (fm : Fmt) (q : Nat) (bits : List Nat) : Nat × FFlags :=
  let before (x y : Nat) : Bool :=
    if (fm.value x).isNan then false else if (fm.value y).isNan then true else decide (fm.key x < fm.key y)
  let r := (min q 65536 * (bits.length - 1) + 32768) / 65536
  (nth (stableSort before bits) r 0, nvIf ((bits.map fm.value).any Num.isSnan))

/-- ESTAT over a sibling set: one result for every lane, written to each of its members with its flags (R205). -/
def estatAct (f : BitVec 1) (d a : BitVec 7) (n : Nat) (g : Sample → List Nat → Nat × FFlags) (issues : List Issue) (s : State) : State :=
  let result (l : Nat) : Nat × FFlags := match samplesAt issues l with
    | [] => (0, 0)
    | x :: rest => g x ((x :: rest).map fun y => y.bits f a)
  let results := (List.range 32).map result
  issues.foldl (fun s k => k.release
    (k.raise none (fun p => (nth results p.2 (0, 0)).2) (k.putN none d n (fun p => (nth results p.2 (0, 0)).1) s))) s

/-- The SRC3 operand of the member of lowest n. -/
def Sample.third (x : Sample) (n : Nat) : Nat := match x.1.third x.2 with
  | some code => x.1.srcNat code n x.2
  | none => 0

/-- ESTAT.MEAN (R205). -/
def execEstatMean (d a : BitVec 7) (f : BitVec 1) (m : BitVec 3) (s : State) : Host.Outcome State Fault Refusal :=
  siblingWide (.estatMean d a f m) false s fun issues t =>
    estatAct f d a (statRegs f) (fun x bits => statMean (statFmt f) (x.1.mode m false x.2) bits) issues t

/-- ESTAT.SPRD (R205). -/
def execEstatSprd (d a : BitVec 7) (f : BitVec 1) (m : BitVec 3) (s : State) : Host.Outcome State Fault Refusal :=
  siblingWide (.estatSprd d a f m) false s fun issues t =>
    estatAct f d a (statRegs f) (fun x bits => statSprd (statFmt f) (x.1.mode m false x.2) bits) issues t

/-- ESTAT.RANK (R205). -/
def execEstatRank (d a : BitVec 7) (f : BitVec 1) (s : State) : Host.Outcome State Fault Refusal :=
  siblingWide (.estatRank d a f) false s fun issues t =>
    estatAct f d a 1 (fun x bits => statRank (statFmt f) (x.third (statRegs f) % 2 ^ (statFmt f).width) bits) issues t

/-- ESTAT.QNT (R205). -/
def execEstatQnt (d a : BitVec 7) (f : BitVec 1) (s : State) : Host.Outcome State Fault Refusal :=
  siblingWide (.estatQnt d a f) false s fun issues t =>
    estatAct f d a (statRegs f) (fun x bits => statQnt (statFmt f) (x.third 1) bits) issues t

end Sys2Proof.Machine
end

