-- ==== Sys2Proof/Machine/Record.lean ====
section
/-! DEFINITION. Launch records: their fields (Tables 3.3 to 3.6), the copy and check of R60, R61, R66, R68 and R69, the
resources a team needs (R67, R93, R374, R377, R381), and the completion record with its notice (R385, R386, R389). -/

namespace Sys2Proof.Machine

/-! ## Fields -/

/-- Teams of a grid (R66). -/
def Grid.teamCount (g : Grid) : Nat := g.field 0x18 4 * g.field 0x1C 4 * g.field 0x20 4
/-- Member contexts of a group, E. -/
def Grid.contexts (g : Grid) : Nat := 2 ^ (g.field 0x27 1 % 8)
/-- GROUPS of a role descriptor. -/
def Grid.roleGroups (g : Grid) (r : Nat) : Nat := g.field (0x38 + 4 * r) 1 % 64
/-- VBUD of a role descriptor. -/
def Grid.roleVbud (g : Grid) (r : Nat) : Nat := g.field (0x39 + 4 * r) 1
/-- The role of a GROUPID: loaders first, then computers, then storers (R67). -/
def Grid.roleOf (g : Grid) (gid : Nat) : Nat :=
  if gid < g.roleGroups 0 then 0 else if gid < g.roleGroups 0 + g.roleGroups 1 then 1 else 2
/-- CLASS. -/
def Grid.cls (g : Grid) : Nat := g.ctl 1 2
/-- Whether its teams have a Trowel context. -/
def Grid.hasTrowel (g : Grid) : Bool := decide (g.field 0x0C 4 ≠ 0xFFFFFFFF)
/-- HAWK. -/
def Grid.hawk (g : Grid) : Nat := g.field 0x28 4
/-- COLUMN. -/
def Grid.columnLen (g : Grid) : Nat := g.field 0x2C 4
/-- A field of COLLCFG. -/
def Grid.collCfg (g : Grid) (lo len : Nat) : Nat := g.field 0xAE 2 / 2 ^ lo % 2 ^ len
/-- Whether a collective is bound. -/
def Grid.collEn (g : Grid) : Bool := decide (g.collCfg 9 1 = 1)
/-- COLLCNT. -/
def Grid.collCount (g : Grid) : Nat := g.field 0xA8 4
/-- NPART. -/
def Grid.npart (g : Grid) : Nat := g.field 0xB0 2
/-- Bytes of an element of a collective TYPE (Table 14.7); 0 for a code that is none. -/
def collSize (ty : Nat) : Nat := nth [8, 4, 2, 2, 4, 4, 8, 8, 288, 1] ty 0

/-- The register footprint of a group (R67). -/
def groupFoot (vbud e : Nat) : Nat := 128 * (vbud * e + 16)
/-- The register footprint of a team as it is launched (R67). -/
def Grid.foot (g : Grid) : Nat :=
  ((List.range 3).map fun r => g.roleGroups r * groupFoot (g.roleVbud r) g.contexts).foldl (· + ·) 0
/-- A length rounded up to 64 KiB. -/
def round64K (n : Nat) : Nat := (n + 65535) / 65536 * 65536
/-- The length of a context image (R374, R375) with `spawned` spawned groups saved whose footprint is `foot`. -/
def Grid.imageLen (g : Grid) (spawned foot : Nat) : Nat :=
  65536 + round64K (16384 * (g.launched + spawned) + g.foot + foot + 256 * (g.launched * g.contexts + spawned)) +
    round64K (288 * (4 * g.launched)) + (if g.hasTrowel then 2162688 else 0) + 65536 +
    round64K (g.hawk + g.hawk / 128) + round64K (g.columnLen + g.columnLen / 128)

/-! ## Reads of the Dispatcher -/

/-- What the Dispatcher's read of a byte or a range gives: its value, a page that is locked, or a page that is no valid
leaf in HBM with R (R66). -/
inductive DispRead where
  | ok (bs : List Byte)
  | locked
  | bad

/-- A byte that the Dispatcher reads. -/
def dispByte (s : State) (root va : Nat) : DispRead :=
  if 2 ^ 57 ≤ va then .bad
  else match walk s root va with
    | .leaf l =>
      if entryLock l.word then .locked
      else if !l.word.getLsbD 2 ∨ entryTier l.word then .bad
      else .ok [l2Read s (entryPa l.word + va % 2 ^ l.shift)]
    | _ => .bad

/-- A range that the Dispatcher reads. -/
def dispRead (s : State) (root : Nat) : List Nat → DispRead
  | [] => .ok []
  | va :: rest => match dispByte s root va with
    | .ok b => match dispRead s root rest with
      | .ok bs => .ok (b ++ bs)
      | r => r
    | r => r

/-! ## The checks of R66 -/

/-- The bytes `[off, off + len)` of a list as a number. -/
def bytesFld (bs : List Byte) (off len : Nat) : Nat := natOfBytes ((bs.drop off).take len)

/-- Whether a role descriptor is in range (Table 3.6). -/
def Grid.roleOk (g : Grid) (r : Nat) : Bool :=
  let v := g.roleVbud r
  decide (g.field (0x3A + 4 * r) 2 = 0) && decide (g.field (0x38 + 4 * r) 1 < 64) && decide (g.roleGroups r ≤ 32) &&
    decide (v % 8 = 0) && decide (v ≤ 96) && (decide (8 ≤ v) || decide (g.roleGroups r = 0))

/-- The fields that are in range by themselves: reserved ones zero, codes and counts in their range, tables aligned. -/
def Grid.fieldsOk (g : Grid) : Bool :=
  decide (g.field 0x62 6 = 0) && decide (g.field 0xB2 6 = 0) && decide (g.field 0xC0 64 = 0) &&
    decide (g.field 0x27 1 / 32 = 0) && decide (g.field 0x27 1 % 8 ≤ 4) && decide (g.ctl 14 18 = 0) && decide (g.cls ≠ 3) &&
    decide (g.ctl 8 5 ≤ 16) && decide (g.field 0xAE 2 / 1024 = 0) && (List.range 3).all g.roleOk &&
    decide (g.field 0x60 1 ≤ 16) && decide (g.field 0x61 1 ≤ 8) && decide (g.field 0x50 8 % 16 = 0) &&
    decide (g.field 0x58 8 % 32 = 0) && decide (g.field 0x68 8 % 256 = 0)

/-- Grid extent, team shape, sibling sets, allocations and ring (R66). -/
def Grid.shapeOk (g : Grid) : Bool :=
  let n := g.launched
  let sets := (List.range n).all fun k => decide (g.roleOf k = g.roleOf (k / g.siblings * g.siblings))
  let ring := decide (g.ctl 3 1 = 0) ||
    (decide (g.roleGroups 0 ≠ 0) && decide (g.roleGroups 1 ≠ 0) && decide (g.field 0x48 2 ≠ 0) &&
      decide (g.ctl 4 4 < g.ctl 8 5) && decide (g.field 0x44 4 % 16 = 0) &&
      decide (g.field 0x44 4 + 16 * g.field 0x48 2 ≤ g.hawk))
  decide (g.teamCount ≠ 0) && decide (g.teamCount ≤ 2 ^ 32) && decide (n ≠ 0) && decide (n ≤ 32) &&
    decide (g.roleGroups 0 + g.roleGroups 1 + g.roleGroups 2 = n) && decide (n % g.siblings = 0) && sets &&
    decide (g.hawk % 16384 = 0) && decide (g.hawk ≤ 0x400000) && decide (g.columnLen % 0x100000 = 0) &&
    decide (g.columnLen ≤ 0x8000000) && decide (g.field 0x30 4 % 256 = 0) && decide (g.field 0x30 4 * n ≤ g.hawk) && ring

/-- The lease of a 16-byte entry (R68). -/
def leaseAt (bs : List Byte) : Lease :=
  let w := bytesFld bs 8 8
  { base := bytesFld bs 0 8, len := w % 2 ^ 40, r := w.testBit 40, w := w.testBit 41, x := w.testBit 42 }
/-- Whether a lease entry is in range by itself (R68). -/
def leaseEntryOk (bs : List Byte) : Bool :=
  let l := leaseAt bs
  decide (l.base < 2 ^ 57) && decide (l.base % 65536 = 0) && decide (l.len ≠ 0) && decide (l.len % 65536 = 0) &&
    (l.r || l.w || l.x) && decide (bytesFld bs 8 8 / 2 ^ 43 = 0)
/-- Whether two ranges overlap. -/
def overlap (a n b m : Nat) : Bool := decide (a < b + m) && decide (b < a + n)
/-- Whether no two of some ranges overlap. -/
def disjoint : List (Nat × Nat) → Bool
  | [] => true
  | x :: rest => (rest.all fun y => !overlap x.1 x.2 y.1 y.2) && disjoint rest

/-- The member segment of a 32-byte entry (R69). -/
def segAt (bs : List Byte) : Seg := { alias_ := bytesFld bs 0 8, len := bytesFld bs 8 8, backing := bytesFld bs 16 8 }
/-- Whether a segment entry is in range, its alias range outside every lease and its backing inside one (R69). -/
def segEntryOk (ls : List Lease) (m : Nat) (bs : List Byte) : Bool :=
  let x := segAt bs
  decide (x.alias_ % 65536 = 0) && decide (x.backing % 65536 = 0) && decide (x.len ≠ 0) && decide (x.len % 65536 = 0) &&
    decide (bytesFld bs 24 8 = 0) && !(ls.any fun l => overlap x.alias_ x.len l.base l.len) &&
    ls.any fun l => decide (l.base ≤ x.backing) && decide (x.backing + m * x.len ≤ l.base + l.len)

/-- Whether every byte of a range lies in some lease with the permission; `fuel` bounds the leases it may span. -/
def spanIn (ls : List Lease) (p : Perm) : Nat → Nat → Nat → Bool
  | _, _, 0 => true
  | 0, _, _ + 1 => false
  | fuel + 1, va, n + 1 =>
    match ls.find? fun l => l.grants p && decide (l.base ≤ va) && decide (va < l.base + l.len) with
    | none => false
    | some l => spanIn ls p fuel (l.base + l.len) (va + (n + 1) - (l.base + l.len))
/-- Whether a range lies in the leases. -/
def Grid.covered (g : Grid) (p : Perm) (va n : Nat) : Bool := spanIn g.leases p (g.leases.length + 1) va n

/-- The chunks of `n` bytes of a table. -/
def rowsOf (n k : Nat) (bs : List Byte) : List (List Byte) := (List.range k).map fun j => (bs.drop (n * j)).take n

/-- Whether a code object header is well formed (R60). -/
def headerOk (va : Nat) (h : List Byte) : Bool :=
  decide (va % 4096 = 0) && decide (bytesFld h 0 4 = 0x4C454843) && decide (bytesFld h 4 2 = 1) && decide (bytesFld h 6 2 = 0) &&
    decide (bytesFld h 0x0C 4 ≠ 0) && decide (bytesFld h 0x1C 2 ≤ 256) && decide (bytesFld h 0x1E 2 = 0) &&
    decide (bytesFld h 0x24 28 = 0) && [0x08, 0x10, 0x18, 0x20].all fun o => decide (bytesFld h o 4 % 4 = 0)

/-- The bytes of a collective's result region (R66); a code that is no operation has none. -/
def Grid.resultLen (g : Grid) : Nat :=
  let n := g.collCount * collSize (g.collCfg 4 4)
  match g.collCfg 0 4 with
  | 0 | 1 | 2 | 4 => n
  | 3 => g.npart * n
  | 5 => 16 * g.npart + 2 * g.collCount
  | 6 => 64
  | _ => 0

/-- The regions of the record that leases have to cover (R66). -/
def Grid.regionsOk (g : Grid) (codeva mcount moff : Nat) : Bool :=
  g.covered .x codeva 64 && g.covered .x g.gbase g.glen && (decide (g.tlen = 0) || g.covered .x g.tbase g.tlen) &&
    g.covered .x (codeva + moff) (132 * mcount) &&
    (decide (g.field 0x70 8 = 0) || g.covered .rw (g.field 0x68 8) (g.field 0x70 8)) &&
    (decide (g.cls ≠ 2) || g.covered .rw (g.field 0x78 8) (2 * g.teamCount * g.imageLen 0 0)) &&
    (!g.collEn || (g.covered .r (g.field 0x98 8) (2 * g.npart) && g.covered .rw (g.field 0xA0 8) g.resultLen))

/-- Whether an entry lies in a stream of `n` bytes, at one of its words. -/
def entryIn (o n : Nat) : Bool := decide (o < n) && decide (o % 4 = 0)

/-- What the check of a record comes to: a grid with its tables, a refusal, or a wait on LOCK. -/
inductive Checked where
  | ok (g : Grid)
  | refused
  | locked

/-- What follows a read of the Dispatcher in a check. -/
def DispRead.check (r : DispRead) (k : List Byte → Checked) : Checked :=
  match r with
  | .ok bs => k bs
  | .locked => .locked
  | .bad => .refused

/-- The check of a record by R66, for a grid that holds its copy. -/
def checkRecord (s : State) (g : Grid) : Checked :=
  let code := g.field 0x00 8
  if !g.fieldsOk ∨ !g.shapeOk ∨ code % 4096 ≠ 0 then .refused
  else (dispRead s g.root (rangeFrom (g.field 0x50 8) (16 * g.field 0x60 1))).check fun lt =>
    let rows := rowsOf 16 (g.field 0x60 1) lt
    let leases := rows.map leaseAt
    if !rows.all leaseEntryOk ∨ !disjoint (leases.map fun l => (l.base, l.len)) then .refused
    else (dispRead s g.root (rangeFrom (g.field 0x58 8) (32 * g.field 0x61 1))).check fun st =>
      let srows := rowsOf 32 (g.field 0x61 1) st
      let segs := srows.map segAt
      if !srows.all (segEntryOk leases (g.contexts * g.siblings)) ∨ !disjoint (segs.map fun x => (x.alias_, x.len)) then .refused
      else (dispRead s g.root (rangeFrom code 64)).check fun h =>
        let moff := bytesFld h 0x18 4
        let mcount := bytesFld h 0x1C 2
        if !headerOk code h then .refused
        else (dispRead s g.root (rangeFrom (code + moff) (132 * mcount))).check fun im =>
          let images := rowsOf 132 mcount im
          let g' := { g with
            leases := leases, segs := segs, goff := bytesFld h 0x08 4, glen := bytesFld h 0x0C 4
            toff := bytesFld h 0x10 4, tlen := bytesFld h 0x14 4
            macros := (images.zipIdx.map fun e => (bytesFld e.1 0 1, BitVec.ofNat 57 (code + moff + 132 * e.2))).foldl
              (fun m e => mapSet m e.1 e.2) [] }
          if !images.all imageOk ∨ g'.macros.length ≠ mcount then .refused
          else if !entryIn (g.field 0x08 4) g'.glen ∨ (g.handler ≠ 0xFFFFFFFF ∧ !entryIn g.handler g'.glen) ∨
              (g.hasTrowel ∧ !entryIn (g.field 0x0C 4) g'.tlen) then .refused
          else if !g'.regionsOk code mcount moff then .refused
          else .ok g'

/-- Whether a record with CTL.GRAPH = 1 holds nothing but CODEVA, CTL and COMPLVA (R74). -/
def Grid.graphOk (g : Grid) : Bool :=
  decide (g.field 0x08 44 = 0) && decide (g.field 0x38 88 = 0) && decide (g.field 0x98 104 = 0) && decide (g.ctl 14 18 = 0) &&
    decide (g.cls ≠ 3) && decide (g.ctl 8 5 ≤ 16)

/-! ## Completion -/

/-- The fields of a completion record (Table 16.1); `counts` tells of a grid or a refused record, which GRIDS counts (R389). -/
structure Completion where
  code : Code
  flags : Nat := 1
  tflags : BitVec 8 := 0
  failTeam : Nat := 0xFFFFFFFF
  nok : Nat := 0
  nerr : Nat := 0
  start : Nat := 0
  collCode : Code := 0
  collFlags : BitVec 5 := 0
  restarts : Nat := 0
  queue : Nat
  headSeq : BitVec 16
  counts : Bool := true
  deriving DecidableEq, Repr

/-- The 64 bytes of a completion record, END being the clock. -/
def Completion.bytes (c : Completion) (clk : Nat) : List Byte :=
  bytesOfNat 2 c.code.toNat ++ [BitVec.ofNat 8 c.flags, c.tflags] ++ bytesOfNat 4 c.failTeam ++ bytesOfNat 8 c.nok ++
    bytesOfNat 8 c.nerr ++ bytesOfNat 8 c.start ++ bytesOfNat 8 clk ++ bytesOfNat 2 c.collCode.toNat ++
    [c.collFlags.setWidth 8, 0] ++ bytesOfNat 4 c.restarts ++ bytesOfNat 2 c.queue ++ bytesOfNat 2 c.headSeq.toNat ++
    List.replicate 12 0

/-- QSTAT after a completion at clock `clk` (R389): GRIDS counts grids and refused records, FAILED every completion with a
cause. -/
def Queue.completed (q : Queue) (clk : Nat) (counts : Bool) (code : Code) : Queue :=
  let fresh (n : Nat) : Nat := if q.updClk = clk then n else 0
  { q with
    grids := if counts then q.grids + 1 else q.grids
    failed := if code ≠ 0 ∧ q.failed ≠ 0xFFFF then q.failed + 1 else q.failed
    lastcode := code
    updClk := clk
    updGrids := fresh q.updGrids + (if counts then 1 else 0)
    updFailed := fresh q.updFailed + (if code ≠ 0 then 1 else 0) }

/-- Steps 3 to 5 of R385: the record is written where it can be, QSTAT counts it and the notice is sent; `none` while
its page is locked (R92). -/
def complete (c : Completion) (root : Nat) (complva : Nat) (s : State) : Option State :=
  let after (norec : Bool) (s : State) : State :=
    lathSend 0x21 0 0 (bytesOfNat 2 c.queue ++ bytesOfNat 8 complva ++ [if norec then 1 else 0])
      (s.updQueue c.queue fun q => q.completed s.clk c.counts c.code)
  if complva = 0 then some (after false s)
  else if complva % 64 ≠ 0 then some (after true s)
  else match agentWrite s root complva (c.bytes s.clk) true with
    | .ok _ s1 => some (after false s1)
    | .locked => none
    | .lost => some (after true s)

/-- The release of pins (R81). -/
def unpin (pins : List Nat) (s : State) : State :=
  pins.foldl (fun s e =>
    let w := l2Read64 s e
    if entryPin w = 0 then s else l2Write64 s e (w - BitVec.ofNat 64 (2 ^ 52))) s

end Sys2Proof.Machine
end

