-- ==== Sys2Proof/Machine/Launch.lean ====
section
/-! DEFINITION. Launching and placing: the writes of TAIL and CMD (R76, R80), taking a record (R66, R74, R77), leasing
(R79), placement (R78, R93, R94), role reassignment (R145) and spawn bins (R97). -/

namespace Sys2Proof.Machine

/-! ## Queue registers -/

/-- A write of TAIL by Lath (R76). -/
def tailSet (q : Nat) (v : BitVec 256) (s : State) : State :=
  s.updQueue q fun x =>
    if x.prod ∨ x.slots < ((vfld v 0 16 : BitVec 16) - x.head).toNat then { x with err := true } else { x with tail := vfld v 0 16 }

/-- QPTR_TAIL_WRITE (R76). -/
def execQptrTailWrite (s : State) : Host.Outcome State Fault Refusal :=
  .next (registerRow .tail s fun r v => match r with
    | .qptr q => tailSet q v
    | _ => id)

/-- The grid of a queue whose lease fault stands: the lease and the page it waits at. -/
def faultedGrid (s : State) (q : Nat) : Option (Grid × Nat × Nat) :=
  match ((s.queue q).pending.head?.bind fun u => s.grid? u) with
  | some g => match g.stage with
    | .lwait l p => some (g, l, p)
    | _ => none
  | none => none

/-- QCTL_RETRY (R80): the write of QCTL, and leasing goes on at the faulting page. -/
def execQctlRetry (s : State) : Host.Outcome State Fault Refusal :=
  .next (registerRow .retry s fun r v s => match r with
    | .qctl q =>
      let (s1, ok) := qctlWrite q v s
      match ok, faultedGrid s1 q with
      | true, some (g, l, p) => s1.updGrid g.uid fun g => { g with stage := .leasing l p }
      | _, _ => s1
    | _ => s)

/-- The completion record of a launch that placed no team. -/
def Grid.unplaced (g : Grid) (code : Code) : Completion := { code := code, queue := g.queue, headSeq := g.headSeq }

/-- A graph with a code raised at a clock: it keeps the one raised first (R74, R387). -/
def GraphRun.raise (w : GraphRun) (code : Code) (clk : Nat) : GraphRun :=
  if code ≠ 0 ∧ (w.code = 0 ∨ clk < w.codeClk) then { w with code := code, codeClk := clk } else w

/-- A graph's node that has retired, with its code and the clock at which that was raised: its successors are reached, unless
the graph starts no further node (R71, R74). -/
def nodeEnded (graph : Nat) (node : BitVec 64) (code : Code) (clk : Nat) (s : State) : State :=
  { s with graphs := s.graphs.map fun w => if w.uid = graph then
      { w.raise code clk with
        running := w.running.filter fun r => decide (r.1 ≠ node)
        reached := w.reached ++ (if w.stop then [] else (w.running.filter fun r => decide (r.1 = node)).flatMap fun r =>
          [r.2.1, r.2.2].filter fun a => decide (a ≠ 0))
        nok := if code = 0 then w.nok + 1 else w.nok
        nerr := if code = 0 then w.nerr else w.nerr + 1 }
    else w }

/-- A grid that places no team is completed with a code; `none` while its completion record's page is locked. `counts` tells
of a grid or a refused record (R389). -/
def abandon (g : Grid) (code : Code) (counts : Bool) (s : State) : Option State :=
  (complete { g.unplaced code with counts := counts } g.root (g.field 0x90 8) (unpin g.pins s)).map fun s1 =>
    let s2 : State := { (s1.updQueue g.queue fun q => { q with pending := q.pending.erase g.uid }) with
      grids := s1.grids.filter fun x => decide (x.uid ≠ g.uid) }
    match g.node with
    | some (u, n) => nodeEnded u n code s.clk s2
    | none => s2

/-- QCTL_CANCEL (R80): the write of QCTL, and a record in LWAIT is given up. -/
def execQctlCancel (s : State) : Host.Outcome State Fault Refusal :=
  .next <|
    let act (q : Nat) (v : BitVec 256) (s : State) : Option State :=
      let (s1, ok) := qctlWrite q v s
      match ok, faultedGrid s1 q with
      | true, some (g, _, _) => abandon g cLeaseFault false s1
      | _, _ => some s1
    match s.arg with
    | .frame f => match lathReg? f.addr.toNat with
      | some (.qctl q) =>
        if frameSound f s ∧ (act q f.val s).isNone then s
        else registerRow .cancel s fun _ v s => (act q v s).getD s
      | _ => registerRow .cancel s fun _ _ => id
    | _ => s

/-! ## Taking a record -/

/-- The stage of a queue's record of a uid. -/
def stageOf (s : State) (uid : Nat) : Option GridStage := (s.grid? uid).map fun g => g.stage

/-- Whether a queue can take a record now (R77): enabled, and the record before it placed, or, with SERIAL, retired. -/
def Queue.free (s : State) (qi : Nat) : Bool :=
  let q := s.queue qi
  q.en && decide (s.level ≠ 0) &&
    (if q.serial then q.pending.isEmpty && !queueLive s qi
     else match q.pending.getLast? with
       | some u => stageOf s u == some .placing
       | none => true)

/-- A grid made from a record's bytes, before its check. -/
def newGrid (s : State) (qi : Nat) (record : List Byte) (node : Option (Nat × BitVec 64)) : Grid :=
  let q := s.queue qi
  { uid := s.nextUid, queue := qi, asid := q.asid, root := q.root.toNat * 2 ^ 22, record := BitVec.ofNat 2048 (natOfBytes record)
    leases := [], segs := [], goff := 0, glen := 0, toff := 0, tlen := 0, macros := [], stage := .leasing 0 0
    headSeq := q.head, node := node }

/-- The 64 bytes of a graph node that lies where the walker can read them. -/
def nodeBytes (s : State) (root : Nat) (node : BitVec 64) : Option (List Byte) :=
  if node.toNat % 64 ≠ 0 then none
  else match dispRead s root (rangeFrom node.toNat 64) with
    | .ok bs => some bs
    | _ => none

/-- The nodes that can be reached from a list of nodes, themselves included. -/
def nodesFrom (s : State) (root : Nat) : Nat → List (BitVec 64) → List (BitVec 64)
  | 0, ns => ns
  | fuel + 1, ns =>
    let next := ns.flatMap fun n => match nodeBytes s root n with
      | some bs => [BitVec.ofNat 64 (bytesFld bs 0x08 8), BitVec.ofNat 64 (bytesFld bs 0x10 8)].filter fun a => decide (a ≠ 0)
      | none => []
    if next.all ns.contains then ns else nodesFrom s root fuel (ns ++ next).eraseDups

/-- COUNT of the while nodes of a list set to 0 (R73); `none` while a page is locked. One whose page cannot be written is left
to its first evaluation. -/
def zeroCounts (root : Nat) : List (BitVec 64) → State → Option (List (BitVec 64) × State)
  | [], s => some ([], s)
  | n :: rest, s =>
    if (nodeBytes s root n).map (fun bs => bytesFld bs 0 1) = some 5 then
      match agentWrite s root (n.toNat + 0x34) (bytesOfNat 4 0) true with
      | .ok _ s1 => (zeroCounts root rest s1).map fun r => (n :: r.1, r.2)
      | .locked => none
      | .lost => zeroCounts root rest s
    else zeroCounts root rest s

/-- A graph that starts: COUNT of each of its while nodes is 0, and its entry node is reached (R73). A byte that is not listed
reads 0 and makes no node, so the nodes are found within as many rounds as memory lists bytes. -/
def startGraph (g : Grid) (s : State) : Option State :=
  let entry : BitVec 64 := BitVec.ofNat 64 (g.field 0x00 8)
  (zeroCounts g.root (nodesFrom s g.root (2 * s.mem.length + 2) [entry]) s).map fun r =>
    { r.2 with graphs := r.2.graphs ++
      [{ uid := g.uid, queue := g.queue, asid := g.asid, root := g.root, complva := BitVec.ofNat 64 (g.field 0x90 8),
         headSeq := g.headSeq, node := g.node, reached := [entry], zeroed := r.1 }] }

/-- A record that has been copied, checked and acted on: a graph starts, a grid begins leasing, or the record is refused;
`none` while a page is locked. -/
def enterRecord (g : Grid) (s : State) : Option State :=
  let s1 : State := { s with nextUid := s.nextUid + 1 }
  if g.ctl 13 1 = 1 then (if !g.graphOk then abandon g cLrecInvalid true s1 else startGraph g s1)
  else match checkRecord s1 g with
    | .locked => none
    | .refused => abandon g cLrecInvalid true s1
    | .ok g' =>
      let g'' : Grid := { g' with stage := .leasing 0 ((g'.leases.map fun l => l.base).headD 0) }
      some ({ s1 with grids := s1.grids ++ [g''] }.updQueue g.queue fun q => { q with pending := q.pending ++ [g.uid] })

/-- DISPATCHER_TAKE_RECORD (R66, R77): the argument names the queue. The read of a slot waits on LOCK (R92). -/
def execDispatcherTakeRecord (s : State) : Host.Outcome State Fault Refusal :=
  .next <| match s.arg with
    | .one qi =>
      let q := s.queue qi
      let slot := q.slotAddr q.head.toNat
      if qi < 1024 ∧ Queue.free s qi ∧ q.count ≠ 0 ∧ !rangeLocked s slot 256 then
        let g := newGrid s qi (l2ReadBytes s slot 256) none
        (enterRecord g (s.updQueue qi fun q => { q with head := q.head + 1 })).getD s
      else s
    | _ => s

/-! ## Leasing (R79) -/

/-- Whether a leaf's permissions include those a lease sets. -/
def leafGrants (w : BitVec 64) (l : Lease) : Bool :=
  (!l.r || w.getLsbD 2) && (!l.w || w.getLsbD 3) && (!l.x || w.getLsbD 4)

/-- The stage after a page of lease `k` has been pinned, `next` being the address after the page. -/
def Grid.nextStage (g : Grid) (k next : Nat) : GridStage :=
  match g.leases[k]? with
  | some l =>
    if next < l.base + l.len then .leasing k next
    else match g.leases[k + 1]? with
      | some m => .leasing (k + 1) m.base
      | none => .placing
  | none => .placing

/-- A lease fault (R80): the queue enters LWAIT with QFAULT, and a notice goes out. -/
def leaseFault (g : Grid) (k page kind : Nat) (s : State) : State :=
  let v : BitVec 64 := BitVec.ofNat 64 (page % 2 ^ 57 / 65536 * 65536 + kind)
  lathSend 0x20 0 0 (bytesOfNat 2 g.queue ++ bytesOfNat 8 v.toNat)
    ((s.updGrid g.uid fun g => { g with stage := .lwait k page }).updQueue g.queue fun q => { q with qfault := v })

/-- One attempt at the page at `page` of lease `k`. Where several conditions of R79 fail at once, LOCK is looked at first, then
TIER, the permissions and PIN = 4,095 (DESIGN CHOICE, assumption 74). -/
def pinPage (g : Grid) (k page : Nat) (l : Lease) (s : State) : State :=
  if 2 ^ 57 ≤ page then leaseFault g k page 1 s
  else match walk s g.root page with
    | .invalid => leaseFault g k page 1 s
    | .malformed => leaseFault g k page 4 s
    | .leaf x =>
      if entryLock x.word then s
      else if entryTier x.word then leaseFault g k page 2 s
      else if !leafGrants x.word l then leaseFault g k page 3 s
      else if entryPin x.word = 4095 then s
      else
        (l2Write64 s x.entry (x.word + BitVec.ofNat 64 (2 ^ 52))).updGrid g.uid fun g =>
          { g with pins := g.pins ++ [x.entry], stage := g.nextStage k ((page / 2 ^ x.shift + 1) * 2 ^ x.shift) }

/-- LEASE_PIN_ATTEMPT (R79): the argument names the grid. -/
def execLeasePinAttempt (s : State) : Host.Outcome State Fault Refusal :=
  .next <| match s.arg with
    | .one u =>
      match s.grid? u with
      | some g => match g.stage with
        | .leasing k page => match g.leases[k]? with
          | some l => pinPage g k page l s
          | none => s
        | _ => s
      | none => s
    | _ => s

/-! ## Room (R93) -/

/-- What a team takes of a core. -/
structure Need where
  slots : Nat
  foot : Nat
  hawk : Nat
  column : Nat
  lac : Nat
  trowel : Bool
  deriving DecidableEq, Repr

/-- What a grid's team takes at launch. -/
def Grid.need (g : Grid) : Need :=
  { slots := g.launched, foot := g.foot, hawk := g.hawk, column := g.columnLen, lac := 4 * g.launched, trowel := g.hasTrowel }
/-- The group slots and registers that a resident team's groups hold (R383). -/
def Team.liveFoot (t : Team) : Nat :=
  ((t.groups.filter fun g => !g.ended).map fun g => groupFoot g.vbud g.e).foldl (· + ·) 0
/-- What a team as it stands takes. -/
def Team.need (gr : Grid) (t : Team) : Need :=
  { gr.need with slots := (t.groups.filter fun g => !g.ended).length, foot := t.liveFoot }

/-- The teams of a core. -/
def teamsOn (s : State) (c : Nat) : List Team := s.teams.filter fun t => decide (t.core = c)
/-- The sum of what the teams of a core take. -/
def usedOn (s : State) (c : Nat) (f : Need → Nat) : Nat :=
  ((teamsOn s c).map fun t => match s.grid? t.grid with
    | some g => f (t.need g)
    | none => 0).foldl (· + ·) 0

/-- Whether a core has the capacity a team needs, whatever is free on it now (R376). -/
def hasCapacity (s : State) (n : Need) : Bool :=
  decide (n.slots ≤ 64) && decide (n.foot ≤ 0x800000) && decide (n.hawk ≤ 0x400000) && decide (n.column ≤ 0x8000000) &&
    decide (n.lac ≤ 256) && (!n.trowel || decide (2 ≤ s.level.toNat))

/-- Whether a core has room for a team (R93). A core with VGATE.REQ = 1 takes no part (R229). -/
def hasRoom (s : State) (n : Need) (c : Nat) : Bool :=
  coreOnline s c && !(s.core c).vgReq && decide (1 ≤ s.level.toNat) && decide ((teamsOn s c).length < 16) &&
    decide (usedOn s c Need.slots + n.slots ≤ 64) && decide (usedOn s c Need.foot + n.foot ≤ 0x800000) &&
    decide (usedOn s c Need.hawk + n.hawk ≤ 0x400000) && decide (usedOn s c Need.column + n.column ≤ 0x8000000) &&
    decide (usedOn s c Need.lac + n.lac ≤ 256) &&
    (!n.trowel || (decide (2 ≤ s.level.toNat) && !(teamsOn s c).any fun t => t.trowel.isSome))

/-! ## Choosing a core (R94) -/

/-- The penalty of a core, from its sensors as they stand (assumption 14). -/
def penalty (s : State) (c : Nat) : Nat :=
  s.lath.placeTw.toNat * (Config.temp s.tick c - s.lath.placeTref.toNat) + s.lath.placeVw.toNat * min 255 (Config.droop s.tick c)

/-- The cores in placement order: ascending from P, wrapping from 63 to 0. -/
def coreOrder (s : State) : List Nat := (List.range 64).map fun k => (s.placeP + k) % 64

/-- The first of least penalty. -/
def leastPenalty (s : State) : List Nat → Option Nat
  | [] => none
  | c :: rest => match leastPenalty s rest with
    | none => some c
    | some d => if penalty s d < penalty s c then some d else some c

/-- The core a team is placed on: of the first D + 1 cores with room, the one of least penalty. -/
def chooseCore (s : State) (n : Need) : Option Nat :=
  leastPenalty s (((coreOrder s).filter (hasRoom s n)).take (s.lath.placeD.toNat + 1))

/-! ## Starting a team (R67, R129, R196, R208) -/

/-- The register cells of a launched group that do not hold their reset value: q0:q1 with ARGVA. -/
def argRegs (g : Grid) : List (Loc × Word) :=
  [(.q 0, BitVec.ofNat 32 (g.field 0xB8 4)), (.q 1, BitVec.ofNat 32 (g.field 0xBC 4))].filter fun r => decide (r.2 ≠ 0)

/-- A launched group at its start. -/
def Grid.newGroup (g : Grid) (gid : Nat) : Group :=
  let r := g.roleOf gid
  let e := g.contexts
  { gid := gid, role := BitVec.ofNat 32 r, startRole := BitVec.ofNat 32 r, regbud := g.roleVbud r, vbud := g.roleVbud r, sibling := gid % g.siblings, e := e
    spill := g.field 0x30 4
    members := (List.range e).map fun k => (k, gid % g.siblings * e + k)
    regs := argRegs g
    xbind := (List.range (4 * e)).map fun i => (i, 4 * gid + i % 4)
    slices := List.replicate 8 { active := allPairs e, pc := BitVec.ofNat 57 (g.gbase + g.field 0x08 4) } }

/-- A team at its start on a core. -/
def Grid.newTeam (g : Grid) (uid teamid core clk : Nat) : Team :=
  { uid := uid, grid := g.uid, teamid := teamid, core := core
    groups := (List.range g.launched).map g.newGroup
    macros := g.macros
    trowel := if g.hasTrowel then some { pc := BitVec.ofNat 57 (g.tbase + g.field 0x0C 4) } else none
    started := clk }

/-- Bytes of column that a team holds. -/
def columnOf (s : State) (t : Team) : Nat := ((s.grid? t.grid).map Grid.columnLen).getD 0

/-- The lowest base of a free range of `n` bytes in a column, beside ranges in use; they all are multiples of 1 MiB. -/
def columnGap (used : List (Nat × Nat)) (n : Nat) : Option Nat :=
  (stableSort (fun a b => decide (a < b)) (0 :: used.map fun x => x.1 + x.2)).find? fun b =>
    decide (b + n ≤ 0x8000000) && used.all fun x => !overlap b n x.1 x.2

/-- Teams with their column allocations one after another from the base of the column. -/
def packColumns (s : State) : Nat → List Team → List (Nat × Nat)
  | _, [] => []
  | b, t :: rest => (t.uid, b) :: packColumns s (b + columnOf s t) rest

/-- A team put on a core with its column allocation at a 1 MiB-aligned base (R208): the lowest that is free, or, where free
column is in pieces, above the others moved together (assumption 73). -/
def placeColumn (t : Team) (s : State) : State :=
  match columnGap ((teamsOn s t.core).map fun x => (x.colBase, columnOf s x)) (columnOf s t) with
  | some b => { s with teams := s.teams ++ [{ t with colBase := b }] }
  | none =>
    let bases := packColumns s 0 (teamsOn s t.core ++ [t])
    { s with teams := (s.teams ++ [t]).map fun x => { x with colBase := (mapGet bases x.uid).getD x.colBase } }

/-- The layer in which a byte of a team's column allocation lies (R208). -/
def Team.columnLayer (t : Team) (c : Nat) : Nat := (t.colBase + c) / 0x2000000

/-- A team put on a core, which becomes the last one served; the reflections held for it are written (R94, R348). -/
def seat (t : Team) (s : State) : State :=
  releaseHeld (placeColumn t { s with nextUid := s.nextUid + 1, placeP := (t.core + 1) % 64 })

/-- The instance that a grid takes part in, counted when its first team is placed (R350). -/
def bindCollective (g : Grid) (s : State) : State :=
  if !g.collEn then s
  else
    let id := g.field 0xAC 2
    let k := (mapGet s.collCount id).getD 0 + 1
    { s with collCount := mapSet s.collCount id k, colls := s.colls ++ [{ collId := id, inst := k, grid := g.uid }] }

/-- The next team of a grid placed on a core (R78, R93). -/
def placeNext (g : Grid) (core : Nat) (s : State) : State :=
  let s1 := if g.nextTeam = 0 then bindCollective g s else s
  let last := g.nextTeam + 1 = g.teamCount
  let s2 := s1.updGrid g.uid fun g =>
    { g with nextTeam := g.nextTeam + 1, startClk := if g.nextTeam = 0 then s.clk else g.startClk, stage := if last then .running else .placing }
  let s3 := if last then s2.updQueue g.queue fun q => { q with pending := q.pending.erase g.uid } else s2
  seat (g.newTeam s3.nextUid g.nextTeam core s.clk) s3

/-! ## The arbiter (R78) -/

/-- The record of a queue that takes part in the selection: the first of its pending records, in PLACING, not held by a
pre-emption, with room for its next team. -/
def arbiterEntry (s : State) (qi : Nat) : Option (Grid × Nat) :=
  match ((s.queue qi).pending.head?.bind fun u => s.grid? u) with
  | some g =>
    if g.stage = .placing ∧ !g.held then (chooseCore s g.need).map fun c => (g, c) else none
  | none => none

/-- Whether one queue is served before another: the higher PRIO, then the lowest index above that level's pointer,
wrapping. -/
def servedBefore (s : State) (a b : Nat) : Bool :=
  let pa := (s.queue a).prio.toNat
  let pb := (s.queue b).prio.toNat
  let ptr := (mapGet s.prioPtr pa).getD 1023
  let turn (q : Nat) := (q + 1023 - ptr) % 1024
  decide (pb < pa) || (decide (pa = pb) && decide (turn a < turn b))

/-- The queue the arbiter serves, with its record and the core. -/
def arbiter (s : State) : Option (Nat × Grid × Nat) :=
  let es := s.queues.filterMap fun q => (arbiterEntry s q.1).map fun x => (q.1, x)
  (stableSort (fun a b => servedBefore s a.1 b.1) es).head?

end Sys2Proof.Machine
end

