-- ==== Sys2Proof/Machine/Haul.lean ====
section
/-! DEFINITION. Engine work: Hod commands and the Hod channel (R220 to R223), and the Bead (R224 to R227). Each event
performs a whole record or halo operation. -/

namespace Sys2Proof.Machine

/-! ## What an engine access comes to -/

/-- The end of a record or halo operation: its effect, a deferred cause, a team-ending cause, or a wait. -/
inductive HaulEnd where
  | ok (s : State)
  | fault (code : Code)
  | ends (code : Code)
  | wait

/-- The engine context of a team's work for one of its member contexts. -/
def engCtx (s : State) (uid member : Nat) : Option EngCtx :=
  match s.team? uid with
  | some t => (s.grid? t.grid).map fun gr => ⟨uid, t.core, gr, member⟩
  | none => none

/-- A place that an engine reads or writes: global bytes, or an allocation's at an offset. -/
inductive Spot where
  | global (va : Int)
  | team (uid : Nat) (o : Nat)
  deriving DecidableEq, Repr

/-- `n` bytes read at a place. -/
def EngCtx.readSpot (k : EngCtx) (s : State) (p : Spot) (n : Nat) : EngDone :=
  match p with
  | .global va => k.readGlobal s va.toNat n
  | .team uid o => .ok (localsOf s uid o n) s
/-- Bytes written at a place. -/
def EngCtx.writeSpot (k : EngCtx) (s : State) (p : Spot) (bs : List Byte) : EngDone :=
  match p with
  | .global va => k.writeGlobal s va.toNat bs
  | .team uid o => .ok [] (s.updTeam uid fun t => t.setLocals o bs)

/-- The deferred cause of engine work, held for the group that commanded it (R222, R227). -/
def engineFault (uid gid src : Nat) (code : Code) (addr : BitVec 64) (s : State) : State :=
  deliver s uid gid { code := code, src := src, faddr := addr, trw := false, tpc := 0 }

/-- An engine's arrival on a barrier of a team, from slot `src`; one that is discarded raises BAR_RANGE in the group that
commanded (R322). -/
def engineBar (target b uid gid src : Nat) (addr : BitVec 64) (s : State) : State :=
  match engineArrives target b src s with
  | some s1 => s1
  | none => engineFault uid gid src cBarRange addr s

/-! ## Hod records -/

/-- A signed 32-bit field of a record. -/
def recInt (r : BitVec 512) (off : Nat) : Int := (BitVec.ofNat 32 (rec512 r off 4)).toInt
/-- An engine address field of a record. -/
def recAddr (r : BitVec 512) (off : Nat) : EngAddr := engAddr (BitVec.ofNat 64 (rec512 r off 8))
/-- CTL of a record. -/
def hodCtl (r : BitVec 512) (lo len : Nat) : Nat := rec512 r 0x24 4 / 2 ^ lo % 2 ^ len
/-- Element bytes of a block by MODE (R221). -/
def hodBlk (r : BitVec 512) : Nat := nth [1, 32, 16, 4] (hodCtl r 4 2) 1

/-- One run of rows: its engine address, its stride and its bytes. -/
structure HodRun where
  addr : EngAddr
  stride : Int
  bytes : Nat

/-- The data rows and scale rows of a record's source and destination. -/
def hodRuns (r : BitVec 512) : List (HodRun × HodRun) :=
  let n := rec512 r 0x1C 4
  let blk := hodBlk r
  [(⟨recAddr r 0x00, recInt r 0x10, n⟩, ⟨recAddr r 0x08, recInt r 0x14, n⟩)] ++
    (if hodCtl r 4 2 = 0 then []
     else [(⟨recAddr r 0x28, recInt r 0x10 / blk, n / blk⟩, ⟨recAddr r 0x38, recInt r 0x14 / blk, n / blk⟩)])

/-- The place of row `i` of a run. -/
def EngCtx.rowSpot (k : EngCtx) (s : State) (x : HodRun) (i : Nat) : Spot :=
  match x.addr with
  | .global va => .global (va + i * x.stride)
  | .own o => .team k.uid (o + i * x.stride).toNat
  | .remote d o => .team (((k.remote s d).map fun t => t.uid).getD 0) (o + i * x.stride).toNat
  | .bad => .global 0

/-- Whether the local rows of a run lie in their allocation (R219, R222). -/
def EngCtx.runLocalOk (k : EngCtx) (rows : Nat) (x : HodRun) : Bool :=
  (List.range rows).all fun i =>
    match x.addr with
    | .own o => offsetOk k.grid (o + i * x.stride) x.bytes
    | .remote _ o => offsetOk k.grid (o + i * x.stride) x.bytes && decide ((o + i * x.stride : Int) + x.bytes ≤ columnBase)
    | _ => true
/-- Whether the global rows of a run lie in the leases. -/
def EngCtx.runLeased (k : EngCtx) (rows : Nat) (p : Perm) (x : HodRun) : Bool :=
  (List.range rows).all fun i =>
    match x.addr with
    | .global va => decide (0 ≤ (va + i * x.stride : Int)) && leaseOk k.grid (some k.member) p (va + i * x.stride : Int).toNat x.bytes
    | _ => true
/-- Whether the remote team of a run is resident. -/
def EngCtx.runPresent (k : EngCtx) (s : State) (x : HodRun) : Bool :=
  match x.addr with
  | .remote d _ => (k.remote s d).isSome
  | _ => true
/-- Whether an address is of no valid form. -/
def EngAddr.isBad (a : EngAddr) : Bool := match a with | .bad => true | _ => false

/-- The fields of a record by themselves (R220 to R222); LINK may hold an address and OWN in a chain. -/
def EngCtx.hodFieldsOk (k : EngCtx) (chain : Bool) (r : BitVec 512) : Bool :=
  let n := rec512 r 0x1C 4
  let blk := hodBlk r
  let link := rec512 r 0x30 8
  decide (hodCtl r 12 20 = 0) && decide (hodCtl r 0 4 = 0) &&
    (if chain then decide (link / 2 ^ 57 = 0) && decide (link / 2 % 32 = 0) else decide (link = 0)) &&
    decide (1 ≤ rec512 r 0x18 4) && decide (rec512 r 0x18 4 ≤ 65536) && decide (n ≠ 0) && decide (n % 16 = 0) && decide (n ≤ 2 ^ 24) &&
    decide (rec512 r 0x20 4 ≤ rec512 r 0x18 4) && decide (n % blk = 0) && decide (recInt r 0x10 % (blk : Int) = 0) &&
    decide (recInt r 0x14 % (blk : Int) = 0) &&
    (decide (hodCtl r 4 2 ≠ 0) || (decide (rec512 r 0x28 8 = 0) && decide (rec512 r 0x38 8 = 0))) &&
    ((hodRuns r).all fun x => !x.1.addr.isBad && !x.2.addr.isBad) && (decide (hodCtl r 7 1 = 0) || decide (hodCtl r 8 4 < k.grid.ctl 8 5))

/-- The checks of a record, every row before any is moved (R222). -/
def EngCtx.hodCheck (k : EngCtx) (s : State) (chain : Bool) (r : BitVec 512) : Option HaulEnd :=
  let rows := rec512 r 0x20 4
  let runs := hodRuns r
  if !k.hodFieldsOk chain r ∨ !(runs.all fun x => k.runLocalOk rows x.1 && k.runLocalOk rows x.2) then some (.fault cHodFault)
  else if !(runs.all fun x => k.runPresent s x.1 && k.runPresent s x.2) then some (.fault cRemoteAbsent)
  else if !(runs.all fun x => k.runLeased rows .r x.1 && k.runLeased rows .w x.2) then some (.ends cLeaseViolation)
  else none

/-- What reading row `i` of some runs gives: the bytes of each, or why there are none. -/
inductive RowRead where
  | ok (bss : List (List Byte)) (s : State)
  | locked
  | lost

/-- Row `i` of the sources of some runs read. -/
def EngCtx.readRuns (k : EngCtx) (i : Nat) : List (HodRun × HodRun) → State → RowRead
  | [], s => .ok [] s
  | x :: rest, s => match k.readSpot s (k.rowSpot s x.1 i) x.1.bytes with
    | .locked => .locked
    | .lost => .lost
    | .ok bs s1 => match k.readRuns i rest s1 with
      | .ok bss s2 => .ok (bs :: bss) s2
      | r => r

/-- Row `i` of the destinations of some runs written. -/
def EngCtx.writeRuns (k : EngCtx) (i : Nat) : List ((HodRun × HodRun) × List Byte) → State → HaulEnd
  | [], s => .ok s
  | (x, bs) :: rest, s => match k.writeSpot s (k.rowSpot s x.2 i) bs with
    | .locked => .wait
    | .lost => .ends cXlatLost
    | .ok _ s1 => k.writeRuns i rest s1

/-- Row `i` of a record moved with its scales: all of it is read before any of it is written, and it is written whole or not
at all, so that each block stays one unit (R37, R221). -/
def EngCtx.moveRow (k : EngCtx) (runs : List (HodRun × HodRun)) (i : Nat) (s : State) : HaulEnd :=
  match k.readRuns i runs s with
  | .locked => .wait
  | .lost => .ends cXlatLost
  | .ok bss s1 => k.writeRuns i (runs.zip bss) s1

/-- The rows of a record moved in ascending order (R221). A row that has no translation leaves the rows before it. -/
def EngCtx.moveRows (k : EngCtx) (runs : List (HodRun × HodRun)) : List Nat → State → HaulEnd × State
  | [], s => (.ok s, s)
  | i :: rest, s => match k.moveRow runs i s with
    | .ok s1 => k.moveRows runs rest s1
    | e => (e, s)

/-- The granules of an allocation that a record's rows write, by team. -/
def EngCtx.hodCells (k : EngCtx) (s : State) (r : BitVec 512) : List (Nat × Nat) :=
  (hodRuns r).flatMap fun x => (List.range (rec512 r 0x20 4)).flatMap fun i => match k.rowSpot s x.2 i with
    | .team u o => (granules o x.2.bytes).map fun c => (u, c)
    | .global _ => []

/-- Whether `n` bytes at a place lie in the column of a core whose column takes no access (R20, R230). -/
def spotFrozen (s : State) (p : Spot) (n : Nat) : Bool :=
  match p with
  | .team u o => match s.team? u with
    | some t => frozenAt s t.core [((o + n : Nat) : Int) - 1]
    | none => false
  | .global _ => false

/-- Whether a record waits for a column (R20, R230). -/
def EngCtx.hodFrozen (k : EngCtx) (s : State) (r : BitVec 512) : Bool :=
  (hodRuns r).any fun x => (List.range (rec512 r 0x20 4)).any fun i =>
    spotFrozen s (k.rowSpot s x.1 i) x.1.bytes || spotFrozen s (k.rowSpot s x.2 i) x.2.bytes

/-- Granules set full. -/
def fillCells (cells : List (Nat × Nat)) (s : State) : State :=
  cells.foldl (fun s c => s.updTeam c.1 fun t => t.setFull c.2 true) s

/-- The transfer of a record that its check has passed (R221), without its arrival. -/
def EngCtx.hodMove (k : EngCtx) (r : BitVec 512) (s : State) : HaulEnd × State :=
  if k.hodFrozen s r then (.wait, s)
  else match k.moveRows (hodRuns r) (List.range (rec512 r 0x20 4)) s with
    | (.ok s1, _) => let s2 := if hodCtl r 6 1 = 1 then fillCells (k.hodCells s1 r) s1 else s1; (.ok s2, s2)
    | e => e

/-- The team whose barrier receives a record's arrival: the remote team for SPACE 10, otherwise the issuing one. -/
def EngCtx.hodTarget (k : EngCtx) (s : State) (r : BitVec 512) : Nat :=
  match recAddr r 0x08 with
  | .remote d _ => ((k.remote s d).map fun t => t.uid).getD k.uid
  | _ => k.uid

/-- Whether the arrival of a record has to wait for a later clock (R322): its slot has the turn before one that has arrived. -/
def EngCtx.hodLate (k : EngCtx) (s : State) (r : BitVec 512) (src : Nat) : Bool :=
  decide (hodCtl r 7 1 = 1) && engineLate (k.hodTarget s r) (hodCtl r 8 4) src s

/-- The arrival of a record, where it has one. -/
def EngCtx.hodArrive (k : EngCtx) (r : BitVec 512) (gid src : Nat) (addr : BitVec 64) (s : State) : State :=
  if hodCtl r 7 1 = 1 then engineBar (k.hodTarget s r) (hodCtl r 8 4) k.uid gid src addr s else s

/-- A Hod command of a team's slot performed: check, rows, full bits and arrival (R221, R222). -/
def runHod (uid : Nat) (h : HodCmd) (s : State) : State :=
  let free (s : State) : State := s.updTeam uid fun t => { t with hods := t.hods.filter fun x => decide (x.slot ≠ h.slot) }
  match engCtx s uid h.member with
  | none => s
  | some k => match k.hodCheck s false h.record with
    | some (.fault code) => free (engineFault uid h.gid h.slot code h.addr s)
    | some (.ends code) => free (endTeamWith s uid code)
    | _ =>
      if k.hodLate s h.record h.slot then s
      else match k.hodMove h.record s with
      | (.ok s1, _) => free (k.hodArrive h.record h.gid h.slot h.addr s1)
      | (.ends code, s1) => free (endTeamWith s1 uid code)
      | _ => s

/-- HOD_COMMAND_RUN (R221): the argument names the team and the slot. Commands start in issue order (R251), so only the oldest
runs (assumption 75). -/
def execHodCommandRun (s : State) : Host.Outcome State Fault Refusal :=
  .next <| match s.arg with
    | .two uid slot => match (s.team? uid).bind fun t => t.hods.head? with
      | some h => if h.slot = slot then runHod uid h s else s
      | none => s
    | _ => s

/-- The Hod channel of a team changed. -/
def setHodch (uid : Nat) (f : HodCh → HodCh) (s : State) : State := s.updTeam uid fun t => { t with hodch := f t.hodch }

/-- The address of the record after one, from the value its clear returned (R223). -/
def nextRecord (old : BitVec 64) : VAddr := (old.extractLsb' 0 57) &&& ~~~(63 : BitVec 57)

/-- One record of a chain (R223). -/
def runChain (uid : Nat) (c : HodCh) (s : State) : State :=
  let addr : BitVec 64 := c.head.setWidth 64
  let stop (s : State) : State := setHodch uid (fun c => { c with busy := false }) s
  match engCtx s uid c.member with
  | none => s
  | some k =>
    if c.head = 0 then stop s
    else if !leaseOk k.grid (some k.member) .r c.head.toNat 64 then stop (endTeamWith s uid cLeaseViolation)
    else match k.readGlobal s c.head.toNat 64 with
      | .locked => s
      | .lost => stop (endTeamWith s uid cXlatLost)
      | .ok bs s1 =>
        let r : BitVec 512 := BitVec.ofNat 512 (natOfBytes bs)
        if rec512 r 0x30 8 % 2 = 0 then stop s1
        else match k.hodCheck s1 true r with
          | some (.fault code) => stop (engineFault uid c.gid 16 code addr s1)
          | some (.ends code) => stop (endTeamWith s1 uid code)
          | _ =>
            if !leaseOk k.grid (some k.member) .w (c.head.toNat + 0x30) 8 then stop (endTeamWith s1 uid cLeaseViolation)
            else if k.hodLate s1 r 16 then s
            else match k.hodMove r s1 with
              | (.ends code, s2) => stop (endTeamWith s2 uid code)
              | (.ok s2, _) => match k.readGlobal s2 (c.head.toNat + 0x30) 8 with
                | .ok old s3 =>
                  let w : BitVec 64 := BitVec.ofNat 64 (natOfBytes old)
                  match k.writeGlobal s3 (c.head.toNat + 0x30) (bytesOfNat 8 (w &&& ~~~1#64).toNat) with
                  | .ok _ s4 =>
                    let s5 := setHodch uid (fun c => { c with head := nextRecord w }) (k.hodArrive r c.gid 16 addr s4)
                    if nextRecord w = 0 then stop s5 else s5
                  | .locked => s
                  | .lost => stop (endTeamWith s3 uid cXlatLost)
                | .locked => s
                | .lost => stop (endTeamWith s2 uid cXlatLost)
              | _ => s

/-- HOD_CHAIN_RECORD (R223): the argument names the team. The walk of a team that is ending reads no further record
(R370). -/
def execHodChainRecord (s : State) : Host.Outcome State Fault Refusal :=
  .next <| match s.arg with
    | .one uid => match s.team? uid with
      | some t => if t.hodch.busy ∧ t.ending = none then runChain uid t.hodch s else s
      | none => s
    | _ => s

/-! ## The Bead -/

/-- The strips in the order they are written, by the neighbour's step in x and in y (R225, R227). -/
def strips : List (Int × Int) := [(-1, 0), (1, 0), (0, -1), (0, 1), (-1, -1), (1, -1), (-1, 1), (1, 1)]

/-- A neighbour in one dimension: none, fill, or a position. -/
inductive Neighbour where
  | none
  | fill
  | at (pos : Nat)
  deriving DecidableEq, Repr

/-- The neighbour one step away in a dimension, where `low` and `high` are BOUND of its two sides (R225). -/
def neighbourAt (pos extent : Nat) (step : Int) (low high : Nat) : Neighbour :=
  if step = 0 then .at pos
  else if step < 0 ∧ 0 < pos then .at (pos - 1)
  else if 0 < step ∧ pos + 1 < extent then .at (pos + 1)
  else match if step < 0 then low else high with
    | 1 => .at (if step < 0 then extent - 1 else 0)
    | 2 => .fill
    | _ => .none

/-- A field of a halo descriptor. -/
def BeadCmd.field (b : BeadCmd) (off len : Nat) : Nat := rec512 b.desc off len

/-- What a strip is filled from: it is not written, FILL, or the team of a TEAMID. -/
def BeadCmd.source (b : BeadCmd) (gr : Grid) (teamid : Nat) (d : Int × Int) : Neighbour :=
  let gx := gr.field 0x18 4
  let gy := gr.field 0x1C 4
  let bound (k : Nat) := b.field 0x10 1 / 4 ^ k % 4
  match neighbourAt (teamid % gx) gx d.1 (bound 0) (bound 1), neighbourAt (teamid / gx % gy) gy d.2 (bound 2) (bound 3) with
  | .none, _ | _, .none => .none
  | .fill, _ | _, .fill => .fill
  | .at x, .at y => .at (teamid / (gx * gy) * (gx * gy) + y * gx + x)

/-- The rows, or columns, of a strip: pairs of destination and source (Table 9.7). -/
def stripSpan (step : Int) (n w : Nat) : List (Int × Int) :=
  if step = 0 then (List.range n).map fun k => ((k : Int), (k : Int))
  else if step < 0 then (List.range w).map fun k => ((k : Int) - w, (n : Int) - w + k)
  else (List.range w).map fun k => ((n : Int) + k, (k : Int))

/-- The elements of a strip: pairs of destination and source offsets (R225). -/
def BeadCmd.elems (b : BeadCmd) (d : Int × Int) : List (Int × Int) :=
  let w := b.field 0x0D 1
  let at_ (i j : Int) : Int := b.field 0x00 4 + i * b.field 0x04 4 + j * (2 ^ b.field 0x0C 1 : Nat)
  (stripSpan d.2 (b.field 0x0A 2) w).flatMap fun r => (stripSpan d.1 (b.field 0x08 2) w).map fun c => (at_ r.1 c.1, at_ r.2 c.2)

/-- The strips that a Bead operation writes, with what fills them. -/
def BeadCmd.work (b : BeadCmd) (gr : Grid) (teamid : Nat) : List ((Int × Int) × Neighbour) :=
  ((strips.zipIdx.filter fun x => (b.field 0x0E 1).testBit x.2).map fun x => (x.1, b.source gr teamid x.1)).filter fun x =>
    decide (x.2 ≠ .none)

/-- The fields of a descriptor by themselves (Table 9.6, R227): MIRROR is a global engine address (R219), so its bits [63:57]
are zero. -/
def BeadCmd.fieldsOk (b : BeadCmd) (gr : Grid) : Bool :=
  let nx := b.field 0x08 2
  let ny := b.field 0x0A 2
  let w := b.field 0x0D 1
  let ctl := b.field 0x0F 1
  let bound := b.field 0x10 1
  decide (b.field 0x0C 1 ≤ 3) && decide (b.field 0x04 4 % 2 ^ b.field 0x0C 1 = 0) && decide (1 ≤ nx) && decide (nx ≤ 4096) &&
    decide (1 ≤ ny) && decide (ny ≤ 4096) && decide (1 ≤ w) && decide (w ≤ 8) && decide (w ≤ nx) && decide (w ≤ ny) &&
    decide (ctl / 16 % 4 = 0) && decide (b.field 0x20 8 < 2 ^ 57) && decide (b.field 0x11 7 = 0) && decide (b.field 0x30 16 = 0) &&
    ((List.range 4).all fun k => decide (bound / 4 ^ k % 4 ≠ 3)) && (decide (ctl / 128 = 0) || decide (ctl % 16 < gr.ctl 8 5))

/-- A resident team of the grid in the cluster of a core, by TEAMID (R226). -/
def inCluster (s : State) (grid core teamid : Nat) : Option Team :=
  s.teams.find? fun t => decide (t.grid = grid) && decide (t.teamid = teamid) && decide (t.core / 4 = core / 4)

/-- Where the source element of a strip at an offset is read: a resident team's Hawk, or the mirror (R226). -/
def BeadCmd.place (b : BeadCmd) (s : State) (k : EngCtx) (teamid : Nat) (o : Int) : Spot :=
  match inCluster s k.grid.uid k.core teamid with
  | some t => .team t.uid o.toNat
  | none => .global (b.field 0x20 8 + teamid * b.field 0x28 8 + o)

/-- Whether a source element lies in its neighbour's allocation: the Hawk of another team, all of the team's own. -/
def BeadCmd.sourceOk (b : BeadCmd) (s : State) (k : EngCtx) (teamid : Nat) (o : Int) : Bool :=
  let n := 2 ^ b.field 0x0C 1
  match inCluster s k.grid.uid k.core teamid with
  | some t => offsetOk k.grid o n && (decide (t.uid = k.uid) || decide (o + (n : Int) ≤ columnBase))
  | none => true

/-- The checks of a Bead operation, before it writes anything (R226, R227). -/
def BeadCmd.check (b : BeadCmd) (s : State) (k : EngCtx) (teamid : Nat) : Option HaulEnd :=
  let n := 2 ^ b.field 0x0C 1
  let work := b.work k.grid teamid
  let sources := work.flatMap fun x => match x.2 with
    | .at t => (b.elems x.1).map fun e => (t, e.2)
    | _ => []
  if !b.fieldsOk k.grid ∨ !(work.all fun x => (b.elems x.1).all fun e => offsetOk k.grid e.1 n) ∨
      !(sources.all fun e => b.sourceOk s k e.1 e.2) then some (.fault cBeadFault)
  else
    let away := sources.filter fun e => (inCluster s k.grid.uid k.core e.1).isNone
    if away ≠ [] ∧ b.field 0x20 8 = 0 then some (.fault cRemoteAbsent)
    else if away.any fun e => match b.place s k e.1 e.2 with
        | .global va => decide (va < 0) || !leaseOk k.grid (some k.member) .r va.toNat n
        | .team _ _ => false then some (.ends cLeaseViolation)
    else none

/-- The elements of a strip read one after another. -/
def readElems (k : EngCtx) (n : Nat) : List Spot → State → Option (List (List Byte) × State) × Bool
  | [], s => (some ([], s), false)
  | p :: rest, s => match k.readSpot s p n with
    | .ok bs s1 => match readElems k n rest s1 with
      | (some (vs, s2), b) => (some (bs :: vs, s2), b)
      | r => r
    | .locked => (none, false)
    | .lost => (none, true)

/-- The strips of a Bead operation filled in their order (R227). -/
def BeadCmd.fillStrips (b : BeadCmd) (k : EngCtx) (f : Bool) : List ((Int × Int) × Neighbour) → State → HaulEnd × State
  | [], s => (.ok s, s)
  | (d, src) :: rest, s =>
    let n := 2 ^ b.field 0x0C 1
    let es := b.elems d
    let vals : Option (List (List Byte) × State) × Bool := match src with
      | .at t => readElems k n (es.map fun e => b.place s k t e.2) s
      | _ => (some (es.map fun _ => bytesOfNat n (b.field 0x18 8 % 2 ^ (8 * n)), s), false)
    match vals with
    | (some (vs, s1), _) =>
      b.fillStrips k f rest (s1.updTeam k.uid fun t =>
        let t1 := (es.zip vs).foldl (fun t x => t.setLocals x.1.1.toNat x.2) t
        if f then t1.setFulls (es.flatMap fun e => granules e.1.toNat n) true else t1)
    | (none, true) => (.ends cXlatLost, s)
    | (none, false) => (.wait, s)

/-- Whether a Bead operation waits for a column (R20, R230): an element that it writes or reads lies there. -/
def BeadCmd.frozen (b : BeadCmd) (s : State) (k : EngCtx) (teamid : Nat) : Bool :=
  let n := 2 ^ b.field 0x0C 1
  (b.work k.grid teamid).any fun x => (b.elems x.1).any fun e =>
    spotFrozen s (.team k.uid e.1.toNat) n || (match x.2 with
      | .at t => spotFrozen s (b.place s k t e.2) n
      | _ => false)

/-- A Bead operation of a team's slot performed: check, strips, full bits and arrival (R227). -/
def runBead (uid : Nat) (b : BeadCmd) (s : State) : State :=
  let free (s : State) : State := s.updTeam uid fun t => { t with beads := t.beads.filter fun x => decide (x.slot ≠ b.slot) }
  let ctl := b.field 0x0F 1
  match engCtx s uid b.member, s.team? uid with
  | some k, some t => match b.check s k t.teamid with
    | some (.fault code) => free (engineFault uid b.gid (17 + b.slot) code b.off s)
    | some (.ends code) => free (endTeamWith s uid code)
    | _ =>
      if b.frozen s k t.teamid ∨ (ctl.testBit 7 ∧ engineLate uid (ctl % 16) (17 + b.slot) s) then s
      else match b.fillStrips k (ctl.testBit 6) (b.work k.grid t.teamid) s with
        | (.ok s1, _) => free (if ctl.testBit 7 then engineBar uid (ctl % 16) uid b.gid (17 + b.slot) b.off s1 else s1)
        | (.ends code, s1) => free (endTeamWith s1 uid code)
        | _ => s
  | _, _ => s

/-- BEAD_OPERATION_RUN (R227): the argument names the team and the slot. -/
def execBeadOperationRun (s : State) : Host.Outcome State Fault Refusal :=
  .next <| match s.arg with
    | .two uid slot => match (s.team? uid).bind fun t => t.beads.find? fun b => decide (b.slot = slot) with
      | some b => runBead uid b s
      | none => s
    | _ => s

end Sys2Proof.Machine
end

