-- ==== Sys2Proof/Machine/Agents.lean ====
section
/-! DEFINITION. The gangs and the Trowels that can move (R137, R146, R151, R260), the causes that are due (R366), and the
counts of R145. -/

namespace Sys2Proof.Machine

/-- Whether a gang is ready: one of its slices is ready to issue. -/
def Group.gangReady (g : Group) (gang : Nat) : Bool :=
  g.slices.any fun x => decide (x.gang = gang) && x.wait == .ready

/-- The gang that runs a MACRO of a group: until it has finished, no other gang of the group issues (R121). -/
def Group.macroGang (g : Group) : Option Nat :=
  g.mac.head?.bind fun m => (bitsOf 8 m.slices).head?.map fun sl => (g.slice sl).gang

/-- The ready gangs of a team: in one that ends, those that have a MACRO to finish (R370). -/
def Team.readyGangs (t : Team) : List Turn :=
  t.groups.flatMap fun g =>
    if g.ended then []
    else match g.macroGang with
      | some k => [.gang t.uid g.gid k]
      | none => if t.ending.isSome then [] else ((List.range 8).filter g.gangReady).map fun k => .gang t.uid g.gid k

/-- The gang that moves when a gang is to: the one that runs a MACRO of the group, if any. -/
def gangTurn (s : State) (uid gid gang : Nat) : Nat :=
  match ((s.team? uid).bind fun t => t.group? gid).bind fun g => g.macroGang with
  | some k => k
  | none => gang

/-- The running Trowel of a team: in one that ends, a TREV that it has issued goes on (R370). -/
def Team.trowelTurn (t : Team) : List Turn :=
  match t.trowel with
  | some w => if w.status == .running && (t.ending.isNone || w.tape.mode == .reversing) then [.trowel t.uid] else []
  | none => []

/-- Whether a group takes a held cause before its gangs issue (R366). -/
def causeDue (s : State) (uid gid : Nat) : Bool :=
  match (s.team? uid).bind fun t => (t.group? gid).map fun g => (t, g) with
  | some (t, g) => t.ending.isNone && !g.ended && !g.held.isEmpty && !g.privileged && g.mac.isEmpty
  | none => false

/-- The full granules of a team's ring (R145). -/
def ringCount (gr : Grid) (t : Team) : Nat :=
  let base := gr.field 0x44 4 / 16
  (t.hawkFull.filter fun k => decide (base ≤ k) && decide (k < base + gr.field 0x48 2)).length

/-- A count of clocks that goes on while a condition holds. -/
def countWhile (c : Bool) (since : Option Nat) (clk : Nat) : Option Nat := if c then some (since.getD clk) else none

/-- The clocks since which a team's ring has been low or high (R145). -/
def trackRing (s : State) (t : Team) : Team :=
  match s.grid? t.grid with
  | none => t
  | some gr =>
    if gr.ctl 3 1 ≠ 1 then t
    else { t with
      ringLow := countWhile (decide (ringCount gr t < gr.field 0x4A 2)) t.ringLow s.clk
      ringHigh := countWhile (decide (gr.field 0x48 2 - gr.field 0x4A 2 ≤ ringCount gr t)) t.ringHigh s.clk }

end Sys2Proof.Machine
end

