-- ==== Sys2Proof/Machine/Coll.lean ====
section
/-! DEFINITION. Collectives (R350 to R362): firing chunks, the header check, the reduction of each operation, result
writes, timeouts and aborts. Each package of the model hears every participant's header and receives every
participant's chunks, and forms the results that the spec's distributed reducers form (assumption 12). -/

namespace Sys2Proof.Machine

/-! ## Instances -/

/-- An instance of the package. -/
def State.coll? (s : State) (id inst : Nat) : Option Coll := s.colls.find? fun c => decide (c.collId = id) && decide (c.inst = inst)
/-- An instance changed. -/
def State.updColl (s : State) (id inst : Nat) (f : Coll → Coll) : State :=
  { s with colls := s.colls.map fun c => if c.collId = id ∧ c.inst = inst then f c else c }
/-- The instance a grid takes part in. -/
def State.gridColl? (s : State) (g : Grid) : Option Coll := s.colls.find? fun c => decide (c.grid = g.uid)

/-- An instance ended with a code, which moves it to ABORT. -/
def Coll.abort (code : Code) (clk : Nat) (c : Coll) : Coll :=
  { c with state := .abort, code := if c.code = 0 then code else c.code, codeClk := if c.code = 0 then clk else c.codeClk, results := [] }

/-- A collective step sent to every other participant, with the flow number COLLID + chunk index (R342). -/
def sendAll (c : Coll) (chunk : Nat) (m : CollMsg) (s : State) : State :=
  { s with collOut := s.collOut ++ c.peers.map fun p => { dchip := p, schip := s.lath.chipId, flow := c.collId + chunk, msg := m } }

/-! ## Headers (R350, R351, R353, R358) -/

/-- Whether an operation takes a type and a mode (Table 14.6). -/
def collTypeOk (op ty : Nat) (mode : Bool) : Bool :=
  match op with
  | 0 => decide (ty ≤ 8)
  | 1 | 2 => decide (ty ≤ 7)
  | 3 | 4 => decide (ty ≤ 9)
  | 5 => decide (ty = 9)
  | 6 => decide (ty ≤ 1) && mode
  | _ => false

/-- The element range that a team owns (R352). -/
def Grid.teamRange (g : Grid) (t : Nat) : Nat × Nat :=
  let s := (g.collCount + g.teamCount - 1) / g.teamCount
  (min (t * s) g.collCount, min ((t + 1) * s) g.collCount)

/-- The chunks of an instance: one for each team, or one. -/
def Grid.chunkCount (g : Grid) : Nat := if g.collCfg 0 4 = 5 ∨ g.collCfg 0 4 = 6 then 1 else g.teamCount

/-- Bytes that a chunk's read gives, and whether some of them had no translation. -/
def collRead (s : State) (root va n : Nat) : Option (List Byte × Bool × State) :=
  match agentRead s root va n false with
  | .ok bs s1 => some (bs, false, s1)
  | .lost => some ((List.range n).map fun k => Config.lostByte s.tick k, true, s)
  | .locked => none

/-- Whether a region lies in a grid's leases; a collective node of a graph has no leases to lie in. -/
def Grid.collCovers (g : Grid) (p : Perm) (va n : Nat) : Bool := decide (1024 ≤ g.queue) || g.covered p va n

/-- The fields of an ensemble header (Table 14.10). -/
structure EnsHead where
  m : Nat
  nq : Nat
  q : List (BitVec 16)
  voff : Nat
  roff : Nat
  ok : Bool
  deriving DecidableEq, Repr

/-- The ensemble header of 64 bytes. -/
def ensHead (h : List Byte) : EnsHead :=
  let m := bytesFld h 0 4
  let nq := bytesFld h 4 4
  let q := (List.range 8).map fun k => BitVec.ofNat 16 (bytesFld h (8 + 2 * k) 2)
  { m := m, nq := nq, q := q, voff := bytesFld h 0x18 8, roff := bytesFld h 0x20 8
    ok := decide (1 ≤ m) && decide (m ≤ 1024) && decide (nq ≤ 8) && (q.drop nq).all (fun v => v == 0) &&
      decide (bytesFld h 0x20 8 % 8 = 0) && decide (bytesFld h 0x28 24 = 0) }

/-- The header of this package's participant, with the ensemble header of ENS (R353, R358). -/
def ownHeader (s : State) (g : Grid) (inst : Nat) (list ens : List Byte) : CollHeader :=
  let chips := (List.range g.npart).map fun k => bytesFld list (2 * k) 2
  let me := s.lath.chipId.toNat
  let e := ensHead ens
  let isEns := g.collCfg 0 4 = 6
  let size := collSize (g.collCfg 4 4)
  let ensOk := e.ok && g.collCovers .r (g.field 0xA0 8 + 64) (g.collCount * e.m * size) &&
    (decide (e.voff = 0) || g.collCovers .r (g.field 0xA0 8 + e.voff) (g.collCount * size))
  { collId := g.field 0xAC 2, inst := inst, op := BitVec.ofNat 4 (g.collCfg 0 4), ty := BitVec.ofNat 4 (g.collCfg 4 4)
    mode := decide (g.collCfg 8 1 = 1), count := BitVec.ofNat 32 g.collCount, npart := g.npart, teams := g.teamCount
    listCrc := crc32c list, rank := (chips.findIdx? fun c => decide (c = me)).getD g.npart
    nq := if isEns then e.nq else 0, quant := if isEns then e.q else [], members := if isEns then e.m else 0
    valid := collTypeOk (g.collCfg 0 4) (g.collCfg 4 4) (decide (g.collCfg 8 1 = 1)) && decide (1 ≤ g.npart) && decide (g.npart ≤ 1024) &&
      (chips.all fun c => decide (c < 1024)) && decide ((chips.filter fun c => decide (c = me)).length = 1) && (!isEns || ensOk) }

/-- The chips of a participant list, this package apart. -/
def othersOf (s : State) (g : Grid) (list : List Byte) : List (BitVec 10) :=
  (((List.range g.npart).map fun k => BitVec.ofNat 10 (bytesFld list (2 * k) 2)).filter fun c => decide (c ≠ s.lath.chipId)).eraseDups

/-- Whether two participants' headers agree (R353). -/
def sameHeader (a b : CollHeader) : Bool :=
  decide (a.op = b.op) && decide (a.ty = b.ty) && decide (a.mode = b.mode) && decide (a.count = b.count) &&
    decide (a.npart = b.npart) && decide (a.teams = b.teams) && decide (a.listCrc = b.listCrc) && decide (a.nq = b.nq) &&
    decide (a.quant = b.quant)

/-- The bytes of one ENS record (R358). -/
def ensRecordLen (ty nq : Nat) : Nat := ((2 + nq) * collSize ty + 4 + 7) / 8 * 8

/-- Whether the result area of ENS lies in the leases, once c is known (R358). -/
def ensAreaOk (g : Grid) (roff c nq : Nat) : Bool :=
  g.collCovers .rw (g.field 0xA0 8 + roff) (g.collCount * ensRecordLen (g.collCfg 4 4) nq + 8 * (c + 1))

/-- The second part of the check of ENS (R358): this package's verdict on its result area is formed and sent once, and the
instance moves to RUN when every participant's is good; one that is bad ends it at every participant. -/
def areaCheck (s : State) (g : Grid) (c : Coll) (h : CollHeader) (members : Nat) : State :=
  let own : CollHeader := { h with second := true, valid := ensAreaOk g (c.roff.getD 0) members h.nq }
  let first := !(c.areas.any fun x => decide (x.rank = h.rank))
  let areas := if first then c.areas ++ [own] else c.areas
  let s1 := if first then sendAll c 0 (.area own) s else s
  s1.updColl c.collId c.inst fun c =>
    let c := { c with areas := areas }
    if areas.any fun x => !x.valid then c.abort cCollMismatch s.clk
    else if (List.range h.npart).all fun r => areas.any fun x => decide (x.rank = r) then { c with state := .run }
    else c

/-- The header check (R353): a difference, an invalid code or a rank found twice ends the instance at once, which every
participant is told (R362); once every rank has been heard it moves to RUN, or, of ENS, to the check of the result areas. -/
def collCheck (s : State) (g : Grid) (c : Coll) : State :=
  match c.state, c.hdr with
  | .check, some h =>
    let ranks := c.heard.map fun x => x.rank
    let members := (c.heard.map fun x => x.members).foldl (· + ·) 0
    if c.heard.any (fun x => !sameHeader x h || !x.valid || decide (h.npart ≤ x.rank)) ∨ !ranks.Nodup ∨
        (c.areas.any fun x => !x.valid) then
      sendAll c 0 (.abort c.collId c.inst cCollMismatch) (s.updColl c.collId c.inst (Coll.abort cCollMismatch s.clk))
    else if c.heard.length < h.npart then s
    else if h.op = 6 ∧ 65536 < members then s.updColl c.collId c.inst (Coll.abort cCollMismatch s.clk)
    else if h.op = 6 then areaCheck s g c h members
    else s.updColl c.collId c.inst fun c => { c with state := .run }
  | _, _ => s

/-- A header heard: in ARMED and CHECK it takes part in the check. -/
def hearHeader (hd : CollHeader) (s : State) : State :=
  match s.coll? hd.collId hd.inst with
  | some c => match s.grid? c.grid, c.state with
    | some g, .armed | some g, .check =>
      let c' := if hd.second then { c with areas := c.areas ++ [hd] } else { c with heard := c.heard ++ [hd] }
      collCheck (s.updColl c.collId c.inst fun _ => c') g c'
    | _, _ => s
  | none => s

/-- The sender of a header told that it ends its instance with COLL_MISMATCH (R353; how it is told is assumption 76). -/
def refuseHeader (sender : BitVec 10) (hd : CollHeader) (s : State) : State :=
  { s with collOut := s.collOut ++
      [{ dchip := sender, schip := s.lath.chipId, flow := hd.collId, msg := .abort hd.collId hd.inst cCollMismatch }] }

/-- The header of a chunk that another package has sent: each of its chunks carries it, and it is heard once. One that matches
no rank still awaited, since the check has passed or the instance has gone, concerns its sender alone (R353), as does one that
no participant sends and that fails the check. -/
def arrivingHeader (sender : BitVec 10) (hd : CollHeader) (s : State) : State :=
  match s.coll? hd.collId hd.inst with
  | none => if hd.inst ≤ (mapGet s.collCount hd.collId).getD 0 then refuseHeader sender hd s else s
  | some c =>
    if c.heard.contains hd then s
    else if c.state = .run ∨ c.state = .done then refuseHeader sender hd s
    else
      let s1 := hearHeader hd s
      if !c.peers.contains sender ∧ ((s1.coll? hd.collId hd.inst).map fun c => c.state) = some .abort then refuseHeader sender hd s1
      else s1

/-- COLL_HEADER_CHECK (R353): a header that another participant's step brings, the second one of ENS apart, or one by itself, or,
with the instance named, the check tried again. -/
def execCollHeaderCheck (s : State) : Host.Outcome State Fault Refusal :=
  .next <| match s.arg with
    | .header hd => hearHeader hd s
    | .coll f =>
      if f.dchip ≠ s.lath.chipId then s
      else match f.msg with
        | .chunk hd _ => arrivingHeader f.schip hd s
        | .area hd => hearHeader hd s
        | .abort _ _ _ => s
    | .two id inst => match s.coll? id inst with
      | some c => match s.grid? c.grid with
        | some g => collCheck s g c
        | none => s
      | none => s
    | _ => s

/-! ## Firing (R352, R361) -/

/-- What a chunk carries: the address and length of each part of its elements (R352, R357, R358). -/
def chunkParts (g : Grid) (rank chunk : Nat) (ens : EnsHead) : List (Nat × Nat) :=
  let res := g.field 0xA0 8
  let size := collSize (g.collCfg 4 4)
  let (lo, hi) := g.teamRange chunk
  match g.collCfg 0 4 with
  | 0 | 1 | 2 | 4 => [(res + lo * size, (hi - lo) * size)]
  | 3 => [(res + rank * g.collCount * size + lo * size, (hi - lo) * size)]
  | 5 => [(res, 8 * g.npart), (res + 16 * g.npart, g.collCount)]
  | 6 => [(res + 64, g.collCount * ens.m * size)] ++ (if ens.voff = 0 then [] else [(res + ens.voff, g.collCount * size)])
  | _ => []

/-- Several reads joined. -/
def collReads (root : Nat) : List (Nat × Nat) → State → Option (List Byte × Bool × State)
  | [], s => some ([], false, s)
  | (va, n) :: rest, s => match collRead s root va n with
    | none => none
    | some (bs, l, s1) => match collReads root rest s1 with
      | none => none
      | some (bs', l', s2) => some (bs ++ bs', l || l', s2)

/-- The index of the chunk that fires when a team exits, where one does: its own, or the one chunk at the last team's
exit. -/
def chunkAt (g : Grid) (teamid : Nat) : Option Nat :=
  if g.collCfg 0 4 = 5 ∨ g.collCfg 0 4 = 6 then (if g.teamCount ≤ g.ends.length + 1 then some 0 else none) else some teamid

/-- The chunk fired by a team's exit (R352): read on path C, sent with the participant's header. The state, and whether a
page was lost; `none` while one is locked. -/
def fireChunk (g : Grid) (teamid : Nat) (s : State) : Option (State × Bool) :=
  match s.gridColl? g, chunkAt g teamid with
  | some c, some k =>
    if c.fired.contains k then some (s, false)
    else if c.state = .abort ∨ c.state = .done then some (s.updColl c.collId c.inst fun c => { c with fired := c.fired ++ [k] }, false)
    else match collRead s g.root (g.field 0x98 8) (2 * g.npart) with
      | none => none
      | some (list, l1, s1) =>
        match collReads g.root (if g.collCfg 0 4 = 6 then [(g.field 0xA0 8, 64)] else []) s1 with
        | none => none
        | some (eh, l2, s2) =>
          let h := c.hdr.getD (ownHeader s2 g c.inst list eh)
          match collReads g.root (if h.valid then chunkParts g h.rank k (ensHead eh) else []) s2 with
          | none => none
          | some (data, l3, s3) =>
            let ch : CollChunk := { collId := c.collId, inst := c.inst, chunk := k, rank := h.rank, data := data, flags := 0,
                                    last := decide (c.fired.length + 1 = g.chunkCount) }
            let c' : Coll := { c with
              fired := c.fired ++ [k]
              hdr := some h
              heard := if c.hdr.isNone then c.heard ++ [h] else c.heard
              inputs := c.inputs ++ [ch]
              state := if c.state = .armed then .check else c.state
              roff := if c.hdr.isNone then some (ensHead eh).roff else c.roff
              peers := if c.hdr.isNone then othersOf s g list else c.peers
              firstFire := if c.state = .armed then s.clk else c.firstFire }
            some (collCheck (sendAll c' k (.chunk h ch) (s3.updColl c.collId c.inst fun _ => c')) g c', l1 || l2 || l3)
  | _, _ => some (s, false)

/-! ## Reduction (R354 to R358) -/

/-- The format of a float TYPE. -/
def collFmt (ty : Nat) : Option Fmt := nth [some fmtF64, some fmtF32, some fmtF16, some fmtBF16] ty none
/-- The order of the values of a TYPE (R59); `none` for a NaN. -/
def collKey (ty v : Nat) : Option Int :=
  match collFmt ty with
  | some f => if (f.value v).isNan then none else some (f.key v)
  | none => if ty = 4 then some (BitVec.ofNat 32 v).toInt else if ty = 6 then some (BitVec.ofNat 64 v).toInt else some (v : Int)
/-- Whether a value is a signalling NaN of its TYPE. -/
def collSnan (ty v : Nat) : Bool := match collFmt ty with
  | some f => (f.value v).isSnan
  | none => false

/-- `tree` of R354 over values in rank order; `fuel` bounds its depth. -/
def sumTree (f : Fmt) : Nat → List Nat → Nat × FFlags
  | 0, xs => (xs.headD 0, 0)
  | fuel + 1, xs =>
    if xs.length ≤ 1 then (xs.headD 0, 0)
    else
      let h := (xs.length + 1) / 2
      let a := sumTree f fuel (xs.take h)
      let b := sumTree f fuel (xs.drop h)
      let r := fpArith f .add .rne a.1 b.1 0
      (r.1, a.2 ||| b.2 ||| r.2)

/-- One element of a SUM over all ranks (R354, R355), of TYPE 0 to 7. -/
def sumElem (ty : Nat) (exact : Bool) (xs : List Nat) : Nat × FFlags :=
  if xs.length ≤ 1 then (xs.headD 0, 0)
  else match collFmt ty with
    | some f => if exact then (xs.foldl (fun (a : Lacc) v => a.add (f.value v)) {}).readOut f .rne else sumTree f xs.length xs
    | none => (xs.foldl (· + ·) 0 % 2 ^ (8 * collSize ty), 0)

/-- One element of MIN or MAX (R200, R356): the rank is the index, and the first of two equal ones is kept. -/
def extremeElem (ty : Nat) (lesser : Bool) (xs : List Nat) : Nat × FFlags :=
  let better (x y : Nat) : Bool := match collKey ty x, collKey ty y with
    | some _, none => true
    | some a, some b => if lesser then decide (a < b) else decide (b < a)
    | none, _ => false
  (match xs with
   | [] => 0
   | x :: rest => rest.foldl (fun held v => if better v held then v else held) x, nvIf (xs.any (collSnan ty)))

/-- Element `i` of a chunk's bytes. -/
def elemOf (size i : Nat) (bs : List Byte) : Nat := bytesFld bs (size * i) size

/-- The chunks of every rank in rank order. -/
def Coll.ranked (c : Coll) (k npart : Nat) : List (List Byte) :=
  (List.range npart).map fun r => ((c.inputs.find? fun x => decide (x.chunk = k) && decide (x.rank = r)).map fun x => x.data).getD []

/-- Whether every rank's chunk has arrived. -/
def Coll.complete (c : Coll) (k npart : Nat) : Bool :=
  (List.range npart).all fun r => c.inputs.any fun x => decide (x.chunk = k) && decide (x.rank = r)

/-- A result of a chunk for this package. -/
def Coll.result (c : Coll) (k part : Nat) (data : List Byte) (flags : FFlags) : CollChunk :=
  { collId := c.collId, inst := c.inst, chunk := k, rank := part, data := data, flags := flags, last := false }

/-- The results of SUM, MIN and MAX element by element. -/
def elementwise (size n : Nat) (ins : List (List Byte)) (f : List Nat → Nat × FFlags) : List Byte × FFlags :=
  let rs := (List.range n).map fun i => f (ins.map (elemOf size i))
  (rs.flatMap fun r => bytesOfNat size r.1, rs.foldl (fun a r => a ||| r.2) 0)

/-- SUM of images (R354): merged in rank order. -/
def mergeImages (n : Nat) (ins : List (List Byte)) : List Byte :=
  (List.range n).flatMap fun i =>
    match ins.map fun b => (b.drop (288 * i)).take 288 with
    | [] => []
    | [x] => x
    | x :: rest => (rest.foldl (fun (a : Lacc) b => a.merge (Lacc.ofImage b)) (Lacc.ofImage x)).image

/-- The count matrix of A2AV: row j, column i (R357). -/
def countAt (ins : List (List Byte)) (j i : Nat) : Nat := bytesFld (nth ins j []) (8 * i) 8

/-- Whether A2AV overflows: a SENDCNT or RECVCNT sum exceeds C. -/
def a2avOver (npart c : Nat) (ins : List (List Byte)) : Bool :=
  let sum (f : Nat → Nat) : Nat := ((List.range npart).map f).foldl (· + ·) 0
  (List.range npart).any fun j => decide (c < sum (countAt ins j)) || decide (c < sum fun i => countAt ins i j)

/-- The block that rank j sends to rank i. -/
def a2avBlock (npart : Nat) (ins : List (List Byte)) (j i : Nat) : List Byte :=
  let off := ((List.range i).map (countAt ins j)).foldl (· + ·) 0
  (((nth ins j []).drop (8 * npart + off)).take (countAt ins j i))

/-- The members of a point: every participant's values in rank order. -/
def ensPoint (size p : Nat) (ins : List (List Byte × Nat)) : List Nat :=
  ins.flatMap fun x => (List.range x.2).map fun k => elemOf size (p * x.2 + k) x.1

/-- The verifying value of a point: rank 0's, where it has any. -/
def ensVerify (size count p : Nat) (ins : List (List Byte × Nat)) : Option Nat :=
  match ins with
  | [] => none
  | x :: _ => if x.1.length ≤ size * count * x.2 then none else some (elemOf size p (x.1.drop (size * count * x.2)))

/-- The record of a point, its rank and its flags (R205, R358). -/
def ensRecord (ty nq : Nat) (q : List (BitVec 16)) (vals : List Nat) (verify : Option Nat) : List Byte × Nat × FFlags :=
  let f := if ty = 0 then fmtF64 else fmtF32
  let size := collSize ty
  let mean := statMean f .rne vals
  let sprd := statSprd f .rne vals
  let qs := (q.take nq).map fun l => statQnt f l.toNat vals
  let rank : Nat × FFlags := match verify with
    | some v => statRank f v vals
    | none => (0xFFFFFFFF, 0)
  let body := bytesOfNat size mean.1 ++ bytesOfNat size sprd.1 ++ (qs.flatMap fun r => bytesOfNat size r.1) ++ bytesOfNat 4 rank.1
  (body ++ List.replicate (ensRecordLen ty nq - body.length) 0, rank.1, qs.foldl (fun a r => a ||| r.2) (mean.2 ||| sprd.2 ||| rank.2))

/-- The result bytes of ENS: the records, then the histogram. -/
def ensResult (ty nq count : Nat) (q : List (BitVec 16)) (ins : List (List Byte × Nat)) : List Byte × FFlags :=
  let size := collSize ty
  let recs := (List.range count).map fun p => ensRecord ty nq q (ensPoint size p ins) (ensVerify size count p ins)
  let c := (ins.map fun x => x.2).foldl (· + ·) 0
  let hist := (List.range (c + 1)).flatMap fun r => bytesOfNat 8 (recs.filter fun x => decide (x.2.1 = r)).length
  ((recs.flatMap fun x => x.1) ++ hist, recs.foldl (fun a x => a ||| x.2.2) 0)

/-- The results of a chunk whose inputs are complete, and the code it ends with (R354 to R358). -/
def reduceChunk (c : Coll) (h : CollHeader) (g : Grid) (k : Nat) : List CollChunk × Code :=
  let ins := c.ranked k h.npart
  let ty := h.ty.toNat
  let size := collSize ty
  let (lo, hi) := g.teamRange k
  let one (r : List Byte × FFlags) : List CollChunk × Code := ([c.result k 0 r.1 r.2], 0)
  match h.op.toNat with
  | 0 => if ty = 8 then one (mergeImages (hi - lo) ins, 0) else one (elementwise size (hi - lo) ins (sumElem ty h.mode))
  | 1 => one (elementwise size (hi - lo) ins (extremeElem ty true))
  | 2 => one (elementwise size (hi - lo) ins (extremeElem ty false))
  | 3 => (ins.zipIdx.map fun x => c.result k x.2 x.1 0, 0)
  | 4 => one (nth ins 0 [], 0)
  | 5 =>
    let counts := (List.range h.npart).flatMap fun j => bytesOfNat 8 (countAt ins j h.rank)
    if a2avOver h.npart g.collCount ins then ([c.result k 0 counts 0], cCollOverflow)
    else ([c.result k 0 counts 0, c.result k 1 ((List.range h.npart).flatMap fun j => a2avBlock h.npart ins j h.rank) 0], 0)
  | _ =>
    one (ensResult ty h.nq g.collCount h.quant (ins.zipIdx.map fun x =>
      (x.1, ((c.heard.find? fun y => decide (y.rank = x.2)).map fun y => y.members).getD 0)))

/-- An instance that has formed and written every result is DONE (Table 14.8). -/
def Coll.finish (g : Grid) (c : Coll) : Coll :=
  if c.state = .run ∧ c.results = [] ∧ g.chunkCount ≤ c.reduced.length then { c with state := .done } else c

/-- A chunk reduced, where the instance is in RUN and every rank's part has arrived. -/
def reduceStep (g : Grid) (k : Nat) (clk : Nat) (c : Coll) : Coll :=
  match c.state, c.hdr with
  | .run, some h =>
    if c.reduced.contains k ∨ g.chunkCount ≤ k ∨ !c.complete k h.npart then c
    else
      let (rs, code) := reduceChunk c h g k
      Coll.finish g { c with
        reduced := c.reduced ++ [k]
        results := c.results ++ rs.filter fun r => r.data ≠ []
        flags := (rs.map fun r => r.flags).foldl (· ||| ·) c.flags
        code := if c.code = 0 then code else c.code
        codeClk := if c.code = 0 ∧ code ≠ 0 then clk else c.codeClk }
  | _, _ => c

/-- A chunk that arrives from another participant is queued, once. -/
def queueChunk (x : CollChunk) (s : State) : State :=
  match s.coll? x.collId x.inst with
  | some c =>
    if c.state = .done ∨ c.state = .abort ∨ (c.inputs.any fun y => decide (y.chunk = x.chunk) && decide (y.rank = x.rank)) then s
    else s.updColl c.collId c.inst fun c => { c with inputs := c.inputs ++ [x] }
  | none => s

/-- COLL_CHUNK_STEP (R359): a chunk that arrives is queued, in the step that brings it only where its header is one of the
participants' (R353); with the instance and chunk named (collective, instance, chunk), a reducer takes the step. -/
def execCollChunkStep (s : State) : Host.Outcome State Fault Refusal :=
  .next <| match s.arg with
    | .chunk x => queueChunk x s
    | .coll f => match f.msg with
      | .chunk hd x =>
        if f.dchip = s.lath.chipId ∧ ((s.coll? x.collId x.inst).map fun c => c.heard.contains hd) = some true then queueChunk x s else s
      | _ => s
    | .gang id inst k => match s.coll? id inst with
      | some c => match s.grid? c.grid with
        | some g => s.updColl id inst (reduceStep g k s.clk)
        | none => s
      | none => s
    | _ => s

/-! ## Results, timeouts -/

/-- Where a result is written (R356 to R358). -/
def resultAddr (g : Grid) (roff : Nat) (x : CollChunk) : Nat :=
  let res := g.field 0xA0 8
  let size := collSize (g.collCfg 4 4)
  let (lo, _) := g.teamRange x.chunk
  match g.collCfg 0 4 with
  | 3 => res + x.rank * g.collCount * size + lo * size
  | 5 => if x.rank = 0 then res + 8 * g.npart else res + 16 * g.npart + g.collCount
  | 6 => res + roff
  | _ => res + lo * size

/-- COLL_RESULT_WRITE (R361): a result is written on path C, of ENS in the area that this package has checked (R358); it waits
on LOCK. -/
def execCollResultWrite (s : State) : Host.Outcome State Fault Refusal :=
  .next <| match s.arg with
    | .chunk x => match s.coll? x.collId x.inst with
      | some c => match s.grid? c.grid with
        | some g =>
          if !c.results.contains x then s
          else
            let done (s : State) : State := s.updColl c.collId c.inst fun c => Coll.finish g { c with results := c.results.erase x }
            match agentWrite s g.root (resultAddr g (c.roff.getD 0) x) x.data false with
            | .ok _ s2 => done s2
            | .lost => done s
            | .locked => s
        | none => s
      | none => s
    | _ => s

/-- COLL_ABORT_RECEIVE (R360, R379): the arguments name the collective, the instance and, where it is not COLL_TIMEOUT, the
code, or are the step that brings them. -/
def execCollAbortReceive (s : State) : Host.Outcome State Fault Refusal :=
  let ends (code : Code) (c : Coll) : Coll := if c.state = .done ∨ c.state = .abort then c else c.abort code s.clk
  .next <| match s.arg with
    | .two id inst => s.updColl id inst (ends cCollTimeout)
    | .gang id inst code => s.updColl id inst (ends (BitVec.ofNat 16 code))
    | .coll f => match f.msg with
      | .abort id inst code => if f.dchip = s.lath.chipId then s.updColl id inst (ends code) else s
      | _ => s
    | _ => s

/-- Whether an instance has been in CHECK or RUN for longer than COLLTMO (R360). -/
def collOverdue (s : State) (c : Coll) : Bool :=
  (c.state == .check || c.state == .run) && decide (s.lath.colltmo ≠ 0) &&
    decide (c.firstFire + s.lath.colltmo.toNat * s.lath.freq.toNat < s.clk)

/-- COLL_TIMEOUT (R360): the instance ends, and every participant is sent an abort. -/
def execCollTimeout (s : State) : Host.Outcome State Fault Refusal :=
  .next <| match s.arg with
    | .two id inst => match s.coll? id inst with
      | some c =>
        if collOverdue s c then
          sendAll c 0 (.abort id inst cCollTimeout) (s.updColl id inst (Coll.abort cCollTimeout s.clk))
        else s
      | none => s
    | _ => s

end Sys2Proof.Machine
end

