-- ==== Sys2Proof/Machine/Retire.lean ====
section
/-! DEFINITION. Trap entry (R365), the end of a team and of a grid (R369, R370, R383 to R387), and resident task graphs
(R71 to R74). -/

namespace Sys2Proof.Machine

/-! ## Trap entry -/

/-- TRAP_ENTRY (R365 to R367): a group takes the oldest deferred cause held for it at its boundary, whatever it waits
for. -/
def execTrapEntry (s : State) : Host.Outcome State Fault Refusal :=
  .next <| match s.arg with
    | .two uid gid => if causeDue s uid gid then takeHeld s uid gid else s
    | _ => s

/-! ## The end of a team -/

/-- Whether a team has engine work in progress: Hod commands, Bead operations or a Hod chain. -/
def Team.engineBusy (t : Team) : Bool := !t.hods.isEmpty || !t.beads.isEmpty || t.hodch.busy
/-- Whether a task of a team waits in a bin of its core. -/
def hasBin (s : State) (t : Team) : Bool := (s.core t.core).bins.any fun b => decide (b.team = t.uid)
/-- Whether every group of a team has ended. -/
def Team.groupsEnded (t : Team) : Bool := t.groups.all fun g => g.ended

/-- The cause a handler's EXIT left, where no group has completed normally: the first in time (R369, R387). -/
def Team.handlerCause (t : Team) : Option (Code × Nat) :=
  if t.groups.all fun g => g.endCause.isSome then
    ((stableSort (fun a b => decide (a.endClk < b.endClk)) t.groups).head?).bind fun g => g.endCause.map fun c => (c, g.endClk)
  else none

/-- Whether a Trowel has issued a TREV that it has not completed: the tape is in REVERSING, one record a step (R308). -/
def Trowel.inTrev (w : Trowel) : Bool := w.status == .running && w.tape.mode == .reversing

/-- Whether something that a team has issued goes on when it ends: a MACRO, a Hod command, a Bead operation or a TREV
(R370). -/
def Team.issuedBusy (t : Team) : Bool :=
  (t.groups.any fun g => !g.ended && !g.mac.isEmpty) || !t.hods.isEmpty || !t.beads.isEmpty ||
    (match t.trowel with
     | some w => w.inTrev
     | none => false)

/-- The earlier of two causes, the first where they are of one clock (R387). -/
def earlier (a b : Code × Nat) : Code × Nat := if b.2 < a.2 then b else a

/-- How a team ends now, if it does: its code, 0 for a normal end, and the clock the cause was raised (R369, R370, R383,
R384). A task that waits in a bin holds back a normal end, and not that of a Trowel which waits in TBAR.WT or has halted. -/
def teamEndNow (s : State) (t : Team) : Option (Code × Nat) :=
  match t.ending with
  | some c => if t.issuedBusy then none else some (c, t.endClk)
  | none =>
    if !t.groupsEnded ∨ t.engineBusy then none
    else
      let normal := if hasBin s t then none else some ((t.handlerCause).getD (0, s.clk))
      let faulted (c : Code × Nat) := some (match t.handlerCause with
        | some h => earlier c h
        | none => c)
      match t.trowel with
      | none => normal
      | some w => match w.status with
        | .finished => normal
        | .halted c => faulted (c, w.haltClk)
        | .waiting _ _ => faulted (cTrowelFault, s.clk)
        | .running => none

/-- A team's end recorded with its grid (R384 to R387). -/
def recordEnd (grid teamid : Nat) (code : Code) (clk : Nat) (tflags : BitVec 8) (s : State) : State :=
  s.updGrid grid fun g => { g with ends := g.ends ++ [{ teamid := teamid, code := code, clk := clk }], tflags := g.tflags ||| tflags }

/-- The end of a team: its chunk fires, and its end is recorded; `none` while a page it reads is locked. -/
def retireTeam (gr : Grid) (teamid : Nat) (code : Code) (clk : Nat) (tflags : BitVec 8) (s : State) : Option State :=
  (fireChunk gr teamid s).map fun r =>
    recordEnd gr.uid teamid (if r.2 ∧ code = 0 then cXlatLost else code) clk tflags r.1

/-- What a resident team holds freed (R383, R384). -/
def freeTeam (t : Team) (s : State) : State :=
  { (s.updCore t.core fun k =>
      { k with
        bins := k.bins.filter fun b => decide (b.team ≠ t.uid)
        tokens := k.tokens.filter fun h => decide (h.1 ≠ t.uid)
        tokenQ := k.tokenQ.filter fun w => decide (w.1 ≠ t.uid) }) with
    teams := s.teams.filter fun x => decide (x.uid ≠ t.uid)
    undelivered := s.undelivered.filter fun w => decide (w.1 ≠ t.uid) }

/-- The final TFLAGS[5:0] of a team. -/
def Team.tflags (t : Team) : BitVec 8 := match t.trowel with
  | some w => (w.tflags.extractLsb' 0 6).setWidth 8
  | none => 0

/-- TEAM_END (R384): the release at .sys, the collective chunk, and what the team holds freed. -/
def execTeamEnd (s : State) : Host.Outcome State Fault Refusal :=
  .next <| match s.arg with
    | .one uid => match s.team? uid with
      | some t => match s.grid? t.grid, teamEndNow s t with
        | some gr, some (code, clk) =>
          let s1 := dropAll s t.core
          (retireTeam gr t.teamid code clk t.tflags (freeTeam t s1)).getD s
        | _, _ => s
      | none => s
    | _ => s

/-! ## The end of a grid -/

/-- Whether a grid has ended (R385): every team placed and ended, none suspended or to be placed again, and its instance
in DONE or ABORT. -/
def gridOver (s : State) (g : Grid) : Bool :=
  decide (g.nextTeam = g.teamCount) && decide (g.teamCount ≤ g.ends.length + g.cut) && g.suspended.isEmpty && g.restartQ.isEmpty &&
    !(s.teams.any fun t => decide (t.grid = g.uid)) &&
    (match s.gridColl? g with
     | some c => c.state == .done || c.state == .abort
     | none => true)

/-- The first cause raised among team ends (R387): the earliest, then the lowest TEAMID. -/
def firstCause (ends : List TeamEnd) : Option TeamEnd :=
  (stableSort (fun (a b : TeamEnd) => decide (a.clk < b.clk) || (decide (a.clk = b.clk) && decide (a.teamid < b.teamid)))
    (ends.filter fun e => decide (e.code ≠ 0))).head?

/-- The causes raised in a grid: those of its teams, and LASTING_FAULT of the first team that a fault kept from being placed
(R379, assumption 49). -/
def Grid.causes (g : Grid) : List TeamEnd :=
  g.ends ++ match g.cutClk with
    | some k => [{ teamid := g.teamCount - g.cut, code := cLastingFault, clk := k }]
    | none => []

/-- CODE and FAILTEAM of a grid with the clock of the cause (R386, R387): a collective code comes after a team's cause of the
same clock. -/
def gridCause (g : Grid) (c : Option Coll) : Code × Nat × Nat :=
  let coll : Option (Code × Nat) := c.bind fun x => if x.code = 0 then none else some (x.code, x.codeClk)
  match firstCause g.causes, coll with
  | some e, some (code, clk) => if clk < e.clk then (code, 0xFFFFFFFF, clk) else (e.code, e.teamid, e.clk)
  | some e, none => (e.code, e.teamid, e.clk)
  | none, some (code, clk) => (code, 0xFFFFFFFF, clk)
  | none, none => (0, 0xFFFFFFFF, 0)

/-- CODE and FAILTEAM of a grid. -/
def gridCode (g : Grid) (c : Option Coll) : Code × Nat := ((gridCause g c).1, (gridCause g c).2.1)

/-- The completion record of a grid (Table 16.1). -/
def gridCompletion (g : Grid) (c : Option Coll) : Completion :=
  let (code, failTeam) := gridCode g c
  { code := code, flags := if c.isSome then 3 else 1, tflags := g.tflags, failTeam := failTeam
    nok := (g.ends.filter fun e => decide (e.code = 0)).length, nerr := (g.ends.filter fun e => decide (e.code ≠ 0)).length
    start := g.startClk, collCode := (c.map fun x => x.code).getD 0, collFlags := (c.map fun x => x.flags).getD 0
    restarts := g.restarts, queue := g.queue, headSeq := g.headSeq }

/-- The grid's entries in the vertical FIFOs discarded (R228). -/
def dropFifo (grid : Nat) (s : State) : State :=
  { s with cores := s.cores.map fun k => (k.1, { k.2 with fifo := k.2.fifo.filter fun e => decide (e.grid ≠ grid) }) }

/-- GRID_END (R385), its five steps in order; a collective node of a graph ends with its instance. -/
def execGridEnd (s : State) : Host.Outcome State Fault Refusal :=
  .next <| match s.arg with
    | .one uid => match s.grid? uid with
      | some g =>
        if !gridOver s g then s
        else
          let c := s.gridColl? g
          let s1 := unpin g.pins (discardHeld (fun h => decide (h.1 = uid)) (dropFifo uid s))
          let gone (s : State) : State := { s with
            grids := s.grids.filter fun x => decide (x.uid ≠ uid), colls := s.colls.filter fun x => decide (x.grid ≠ uid) }
          let ended (s : State) : State := match g.node with
            | some (u, n) => nodeEnded u n (gridCause g c).1 (gridCause g c).2.2 s
            | none => s
          if 1024 ≤ g.queue then ended (gone s1)
          else match complete (gridCompletion g c) g.root (g.field 0x90 8) s1 with
            | some s2 => ended (gone s2)
            | none => s
      | none => s
    | _ => s

/-! ## Graphs (R71 to R74) -/

/-- A graph of a uid. -/
def State.graph? (s : State) (uid : Nat) : Option GraphRun := s.graphs.find? fun w => decide (w.uid = uid)
/-- A graph changed. -/
def State.updGraph (s : State) (uid : Nat) (f : GraphRun → GraphRun) : State :=
  { s with graphs := s.graphs.map fun w => if w.uid = uid then f w else w }

/-- A node that ends its graph with a code: no further node starts. -/
def graphStop (uid : Nat) (node : BitVec 64) (code : Code) (s : State) : State :=
  s.updGraph uid fun w => { w.raise code s.clk with
    stop := true, reached := [], running := w.running.filter fun r => decide (r.1 ≠ node), nerr := w.nerr + 1 }

/-- A node that runs. -/
def nodeRuns (uid : Nat) (node n0 n1 : BitVec 64) (s : State) : State :=
  s.updGraph uid fun w => { w with reached := w.reached.erase node, running := w.running ++ [(node, n0, n1)] }

/-- A node that retires at once, with its one successor. -/
def nodeGoes (uid : Nat) (node next : BitVec 64) (s : State) : State :=
  nodeEnded uid node 0 s.clk (nodeRuns uid node next 0 s)

/-- A join that has had an arrival and not its last. -/
def nodeArrived (uid : Nat) (node : BitVec 64) (s : State) : State :=
  s.updGraph uid fun w => { w with reached := w.reached.erase node }

/-- Whether a queue can take a kernel node's record (R77): as any record of it, the graph itself apart. -/
def nodeQueueFree (s : State) (qi : Nat) : Bool := Queue.free { s with graphs := [] } qi

/-- The record of a collective node as a grid of one team that has been placed (Table 3.8). -/
def nodeRecord (n : List Byte) : List Byte :=
  List.replicate 0x18 0 ++ bytesOfNat 4 1 ++ bytesOfNat 4 1 ++ bytesOfNat 4 1 ++ List.replicate 0x74 0 ++ (n.drop 0x18).take 22 ++
    bytesOfNat 2 (bytesFld n 0x2E 2 ||| 0x200) ++ (n.drop 0x30).take 2 ++ List.replicate 78 0

/-- What starting a node comes to; `none` while a page is locked or a queue is not free. A successor that names no node faults
when it is reached (R71). A collective node's bytes 0x32 to 0x37 have to be zero, and it takes part whatever EN of its COLLCFG
holds; a join or while node whose page lacks W ends the graph with GRAPH_FAULT where ARRIVED or COUNT is written (DESIGN CHOICE,
assumption 77). -/
def startNode (w : GraphRun) (node : BitVec 64) (n : List Byte) (s : State) : Option State :=
  let n0 : BitVec 64 := BitVec.ofNat 64 (bytesFld n 0x08 8)
  let n1 : BitVec 64 := BitVec.ofNat 64 (bytesFld n 0x10 8)
  let fail (s : State) : Option State := some (graphStop w.uid node cGraphFault s)
  let word (k : Nat → State → Option State) : Option State :=
    match agentRead s w.root (bytesFld n 0x18 8) 8 true with
    | .ok bs s1 => k (natOfBytes bs) s1
    | .locked => none
    | .lost => fail s
  let put (o : Nat) (bs : List Byte) (k : State → Option State) (s : State) : Option State :=
    match agentWrite s w.root (node.toNat + o) bs true with
    | .ok _ s1 => k s1
    | .locked => none
    | .lost => fail s
  let holds (v : Nat) : Bool := decide (v &&& bytesFld n 0x20 8 = bytesFld n 0x28 8)
  if bytesFld n 0x02 6 ≠ 0 then fail s
  else match bytesFld n 0 1 with
  | 1 =>
    let qi := bytesFld n 0x20 2
    let ra := bytesFld n 0x18 8
    if 1024 ≤ qi ∨ ra % 256 ≠ 0 then fail s
    else if !nodeQueueFree s qi then none
    else match agentRead s w.root ra 256 true with
      | .ok bs s1 => enterRecord (newGrid s1 qi bs (some (w.uid, node))) (nodeRuns w.uid node n0 n1 s1)
      | .locked => none
      | .lost => fail s
  | 2 => some ((nodeRuns w.uid node n0 n1 s).updGraph w.uid fun w =>
      { w with copies := w.copies ++ [(node, bytesFld n 0x18 8, bytesFld n 0x20 8, bytesFld n 0x28 8)] })
  | 3 =>
    if bytesFld n 0x2E 2 / 1024 ≠ 0 ∨ bytesFld n 0x32 6 ≠ 0 then fail s
    else
      let g0 := newGrid s 1024 (nodeRecord n) (some (w.uid, node))
      let g : Grid := { g0 with asid := w.asid, root := w.root, stage := .running, nextTeam := 1 }
      let s1 := nodeRuns w.uid node n0 n1 (bindCollective g { s with grids := s.grids ++ [g], nextUid := s.nextUid + 1 })
      (fireChunk g 0 s1).map fun r =>
        if r.2 then graphStop w.uid node cGraphFault { s with nextUid := s.nextUid + 1 } else recordEnd g.uid 0 0 s.clk 0 r.1
  | 4 => word fun v s1 => some (nodeGoes w.uid node (if holds v then n1 else n0) s1)
  | 5 => word fun v s1 =>
    let count := if w.zeroed.contains node then bytesFld n 0x34 4 else 0
    let seen (s : State) : State := s.updGraph w.uid fun w => { w with zeroed := if w.zeroed.contains node then w.zeroed else w.zeroed ++ [node] }
    if holds v then
      if bytesFld n 0x30 4 ≤ count then put 0x34 (bytesOfNat 4 count) (fun s => some (graphStop w.uid node cGraphLimit (seen s))) s1
      else put 0x34 (bytesOfNat 4 (count + 1)) (fun s => some (nodeGoes w.uid node n1 (seen s))) s1
    else put 0x34 (bytesOfNat 4 count) (fun s => some (nodeGoes w.uid node n0 (seen s))) s1
  | 6 =>
    let need := bytesFld n 1 1
    let count := bytesFld n 0x18 1 + 1
    if need = 0 then fail s
    else if need ≤ count then put 0x18 [0] (fun s => some (nodeGoes w.uid node n0 s)) s
    else put 0x18 (bytesOfNat 1 count) (fun s => some (nodeArrived w.uid node s)) s
  | _ => fail s

/-- GRAPH_NODE_START (R71, R73): a reached node starts, unless an earlier instance of it runs. A condition node that several
predecessors reach without a join is evaluated at each arrival (DESIGN CHOICE, assumption 77). -/
def execGraphNodeStart (s : State) : Host.Outcome State Fault Refusal :=
  .next <| match s.arg with
    | .node uid node => match s.graph? uid with
      | some w =>
        if w.stop ∨ !w.reached.contains node ∨ w.running.any (fun r => decide (r.1 = node)) then s
        else if node.toNat % 64 ≠ 0 then graphStop uid node cGraphFault s
        else match agentRead s w.root node.toNat 64 true with
          | .ok n s1 => (startNode w node n s1).getD s
          | .locked => s
          | .lost => graphStop uid node cGraphFault s
      | none => s
    | _ => s

/-- GRAPH_COPY_RETIRE (R72): a copy node's transfer is performed, and the node retires. -/
def execGraphCopyRetire (s : State) : Host.Outcome State Fault Refusal :=
  .next <| match s.arg with
    | .node uid node => match s.graph? uid with
      | some w => match w.copies.find? fun c => decide (c.1 = node) with
        | some c =>
          let gone (s : State) : State := s.updGraph uid fun w => { w with copies := w.copies.filter fun x => decide (x.1 ≠ node) }
          match agentRead s w.root c.2.1 c.2.2.2 false with
          | .ok bs s1 => match agentWrite s1 w.root c.2.2.1 bs false with
            | .ok _ s2 => nodeEnded uid node 0 s2.clk (gone s2)
            | .locked => s
            | .lost => graphStop uid node cGraphFault (gone s1)
          | .locked => s
          | .lost => graphStop uid node cGraphFault (gone s)
        | none => s
      | none => s
    | _ => s

/-- GRAPH_END (R74): with no node running or waiting, the completion record is written. -/
def execGraphEnd (s : State) : Host.Outcome State Fault Refusal :=
  .next <| match s.arg with
    | .one uid => match s.graph? uid with
      | some w =>
        if w.reached ≠ [] ∨ w.running ≠ [] then s
        else
          let c : Completion := { code := w.code, flags := 5, nok := w.nok, nerr := w.nerr, queue := w.queue, headSeq := w.headSeq, counts := false }
          match complete c w.root w.complva.toNat s with
          | some s1 =>
            let s2 : State := { s1 with graphs := s1.graphs.filter fun x => decide (x.uid ≠ uid) }
            match w.node with
            | some (u, n) => nodeEnded u n w.code w.codeClk s2
            | none => s2
          | none => s
      | none => s
    | _ => s

end Sys2Proof.Machine
end

