-- ==== Sys2Proof/Machine/Image.lean ====
section
/-! DEFINITION. Context images (R373 to R375), pre-emption, restore and abort through XCTL (R371, R372, R376, R377),
snapshots and their release (R258, R381, R382), and the placing of teams (R78, R380). -/

namespace Sys2Proof.Machine

/-! ## What an image holds -/

/-- A group as an image shows it (R373): at an instruction boundary, which is a drain boundary (R115), before an instruction
that has not issued, be it one that waits in gathering or at REGROUP (R143, R184), and reservations cleared (R245). -/
def Group.atRest (g : Group) : Group :=
  { Group.drain { g with slices := g.before } 0xFF with
    resv := [], saved := g.saved.map fun v => { v with slices := v.slices.map Slice.unpark } }

/-- A team as an image shows it. -/
def Team.atRest (t : Team) : Team := { t with groups := t.groups.map Group.atRest, ringLow := none, ringHigh := none }

/-- The spawned groups of a team that an image saves. -/
def Team.spawnedGroups (t : Team) : List Group := t.groups.filter fun g => g.spawned && !g.ended
/-- The footprint of the spawned groups. -/
def Team.spawnedFoot (t : Team) : Nat := ((t.spawnedGroups).map fun g => groupFoot g.vbud g.e).foldl (· + ·) 0
/-- LEN of a team's image. -/
def Team.imageLen (gr : Grid) (t : Team) : Nat := gr.imageLen t.spawnedGroups.length t.spawnedFoot

/-- The sizes of the sections of Table 15.6 in order, each rounded up to 64 KiB. -/
def sectionSizes (gr : Grid) (t : Team) : List Nat :=
  let n := gr.launched
  let k := t.spawnedGroups.length
  [round64K (16384 * (n + k) + gr.foot + t.spawnedFoot + 256 * (n * gr.contexts + k)), round64K (288 * (4 * n)),
   if gr.hasTrowel then 2162688 else 0, 65536, round64K (gr.hawk + gr.hawk / 128), round64K (gr.columnLen + gr.columnLen / 128)]

/-- The offsets of the six sections (GRPOFF to COLOFF): one after another behind the header's 64 KiB. -/
def sectionOffs (gr : Grid) (t : Team) : List Nat :=
  (List.range 6).map fun k => 65536 + ((sectionSizes gr t).take k).foldl (· + ·) 0

/-- Byte `j` of the full/empty bits of a memory: granule g at bit g. -/
def fullByte (fulls : List Nat) (j : Nat) : Byte :=
  maskOf 8 ((List.range 8).filter fun b => fulls.contains (8 * j + b))

/-- A byte of the Hawk or the Column section: the allocation's bytes, then its full/empty bits. -/
def allocByte (cells : List Host.Cell) (fulls : List Nat) (n k : Nat) : Byte :=
  if k < n then byteAt cells k else fullByte fulls (k - n)

/-- A byte of an image behind the header: Hawk and Column as Table 15.6 has them, the rest as the implementation lays it
out (assumption 7). -/
def bodyByte (tick : Nat) (gr : Grid) (t : Team) (k : Nat) : Byte :=
  let h := nth (sectionOffs gr t) 4 0
  let c := nth (sectionOffs gr t) 5 0
  if h ≤ k ∧ k < h + gr.hawk + gr.hawk / 128 then allocByte t.hawk t.hawkFull gr.hawk (k - h)
  else if c ≤ k ∧ k < c + gr.columnLen + gr.columnLen / 128 then allocByte t.column t.colFull gr.columnLen (k - c)
  else Config.imageByte tick k

/-- The bytes of an image from 0x100 to LEN − 1. -/
def imageBody (tick : Nat) (gr : Grid) (t : Team) : List Byte :=
  (List.range (t.imageLen gr - 256)).map fun j => bodyByte tick gr t (256 + j)

/-- The 256-byte header of an image (Table 15.5). -/
def imageHeader (gr : Grid) (t : Team) (kind seq : Nat) (digest : BitVec 256) : List Byte :=
  let tr := if gr.hasTrowel then 1 else 0
  bytesOfNat 4 0x54584943 ++ bytesOfNat 2 1 ++ bytesOfNat 1 kind ++
    bytesOfNat 1 (t.groups.filter fun g => g.privileged).length ++ bytesOfNat 8 (t.imageLen gr) ++ bytesOfNat 8 seq ++
    bytesOfNat 4 t.teamid ++ bytesOfNat 1 gr.launched ++ bytesOfNat 1 t.spawnedGroups.length ++ bytesOfNat 1 (gr.field 0x27 1) ++
    bytesOfNat 1 (gr.ctl 8 5) ++ [32, tr, tr, 0] ++ bytesOfNat 4 (gr.field 0x30 4) ++ bytesOfNat 4 gr.hawk ++
    bytesOfNat 4 gr.columnLen ++ bytesOfNat 8 (gr.foot + t.spawnedFoot) ++ bytesOfNat 2 (4 * gr.launched) ++
    List.replicate 6 0 ++ bytesOfNat 32 digest.toNat ++ (sectionOffs gr t).flatMap (bytesOfNat 8) ++ List.replicate 112 0

/-- A team's image. -/
def imageOf (tick : Nat) (gr : Grid) (t : Team) (kind seq : Nat) : List Byte :=
  let body := imageBody tick gr t
  imageHeader gr t kind seq (Config.shake256 body) ++ body

/-! ## What an image says -/

/-- Whether an image verifies (R377): MAGIC, VERSION, the reserved bytes and DIGEST, LEN as it was written. -/
def imageVerifies (len : Nat) (bs : List Byte) : Bool :=
  decide (bytesFld bs 0 4 = 0x54584943) && decide (bytesFld bs 4 2 = 1) && decide (bytesFld bs 8 8 = len) &&
    decide (bytesFld bs 0x23 1 = 0) && decide (bytesFld bs 0x3A 6 = 0) && decide (bytesFld bs 0x90 112 = 0) &&
    decide (bytesFld bs 0x40 32 = (Config.shake256 (bs.drop 256)).toNat)

/-- What an image's header says its team needs. -/
def imageNeed (bs : List Byte) : Need :=
  { slots := bytesFld bs 0x1C 1 + bytesFld bs 0x1D 1, foot := bytesFld bs 0x30 8, hawk := bytesFld bs 0x28 4,
    column := bytesFld bs 0x2C 4, lac := bytesFld bs 0x38 2, trowel := decide (bytesFld bs 0x21 1 = 1) }

/-- Whether a core has the capacity an image needs (R376). -/
def imageCapacity (s : State) (bs : List Byte) : Bool :=
  decide (bytesFld bs 0x20 1 ≤ 32) && (decide (bytesFld bs 0x22 1 ≠ 1) || decide (2 ≤ s.level.toNat)) && hasCapacity s (imageNeed bs)

/-- Whether some core is online for placement. -/
def anyOnline (s : State) : Bool := (List.range 64).any fun c => coreOnline s c

/-- Whether the column of a core takes no access, for a grid that has column (R20, R230, R231). -/
def columnBusy (s : State) (gr : Grid) (core : Nat) : Bool :=
  decide (gr.columnLen ≠ 0) && frozenAt s core [(columnBase : Int)]

/-- An image of a team that is out of its core, put back on a core under a uid: it resumes from the image, and what the
core's L1 holds clean is read anew. -/
def resume (x : SavedTeam) (uid core : Nat) (s : State) : State :=
  let s1 := (dropClean s core).updCore core fun k => { k with bins := k.bins ++ x.bins.map fun b => { b with team := uid } }
  seat { x.team with uid := uid, core := core } s1

/-! ## XCTL -/

/-- The end of an operation of XCTL with a status: its pins released. -/
def xctlEnds (st : BitVec 6) (s : State) : State :=
  let s1 := unpin s.lath.xcPins s
  { s1 with lath := { s1.lath with xcBusy := false, xcStatus := st, xcPins := [] } }

/-- An accepted OP (Table 15.4): STATUS 1 at once where the queue has no grid in PLACING or running. A grid that a PREEMPT holds
out of placement is suspended, also where it had no placed team to save (R372). -/
def xctlAccept (op : BitVec 3) (v : BitVec 256) (s : State) : State :=
  if s.lath.xcBusy then { s with lath := { s.lath with xcErr := true } }
  else
    let q : BitVec 10 := vfld v 16 10
    let s1 := { s with lath := { s.lath with
      xcErr := s.lath.xcErr && !v.getLsbD 62, xcQ := q, xcOp := op, xcBusy := true, xcPins := [] } }
    match oldestGrid s q.toNat with
    | none => xctlEnds 1 s1
    | some g =>
      if op = 2 ∧ g.suspended = [] ∧ !g.held then xctlEnds 5 s1
      else { s1 with lath := { s1.lath with xcGrid := g.uid } }

/-- What pinning the image area comes to. -/
inductive AreaPin where
  | ok (pins : List Nat) (s : State)
  | locked
  | bad

/-- The leaves of the area `[va, lim)` pinned (R79, R371): valid, in HBM, with R and W. `fuel` bounds the pages. -/
def pinArea (root lim : Nat) : Nat → Nat → List Nat → State → AreaPin
  | 0, _, pins, s => .ok pins s
  | fuel + 1, va, pins, s =>
    if lim ≤ va then .ok pins s
    else if 2 ^ 57 ≤ va then .bad
    else match walk s root va with
      | .leaf x =>
        if entryLock x.word ∨ entryPin x.word = 4095 then .locked
        else if entryTier x.word ∨ !x.word.getLsbD 2 ∨ !x.word.getLsbD 3 then .bad
        else pinArea root lim fuel ((va / 2 ^ x.shift + 1) * 2 ^ x.shift) (pins ++ [x.entry])
          (l2Write64 s x.entry (x.word + BitVec.ofNat 64 (2 ^ 52)))
      | _ => .bad

/-- XIMG as an address. -/
def areaBase (s : State) : Nat := s.lath.ximg.toNat * 65536

/-- An operation on the image area: its leaves are pinned first. -/
def withArea (g : Grid) (s : State) (act : State → State) : State :=
  if s.lath.xcPins ≠ [] then act s
  else
    let n := s.lath.ximgLen.toNat
    match pinArea g.root (areaBase s + n) (n / 65536 + 1) (areaBase s) [] s with
    | .ok [] _ => xctlEnds 2 s
    | .ok pins s1 => act { s1 with lath := { s1.lath with xcPins := pins } }
    | .locked => s
    | .bad => xctlEnds 2 s

/-- Items in ascending TEAMID. -/
def byTeam {α : Type} (id : α → Nat) (l : List α) : List α := stableSort (fun a b => decide (id a < id b)) l

/-- Whether a team can stop: no MACRO of a live group has steps left, and its column takes accesses (R373). -/
def canStop (s : State) (t : Team) : Bool :=
  !(t.groups.any fun g => !g.ended && !g.mac.isEmpty) && (s.core t.core).frozen.isNone && !s.lath.colBusy

/-- The issued Hod commands and Bead operations of a team completed (R232). -/
def finishEngines (t : Team) (s : State) : State :=
  t.beads.foldl (fun s b => runBead t.uid b s) (t.hods.foldl (fun s h => runHod t.uid h s) s)

/-- The first free 64 KiB boundary of the area: behind the images of the grid's teams it holds. -/
def areaNext (g : Grid) (s : State) : Nat :=
  (g.suspended.filter fun x => decide (areaBase s ≤ x.base.toNat) && decide (x.base.toNat < areaBase s + s.lath.ximgLen.toNat)).foldl
    (fun m x => max m (x.base.toNat + x.len)) (areaBase s)

/-- A team taken off its core, its stores performed; the reflections it has sent still count for its FENCE.W. -/
def takeOff (t : Team) (s : State) : State :=
  let s1 := freeTeam t (dropAll s t.core)
  { s1 with undelivered := s.undelivered }

/-- One team of a grid saved and taken off its core (R372, R374). -/
def saveTeam (g : Grid) (uid : Nat) (s : State) : State :=
  match s.team? uid with
  | none => s
  | some t0 =>
    let t := t0.atRest
    let va := areaNext g s
    let len := t.imageLen g
    if areaBase s + s.lath.ximgLen.toNat < va + len then xctlEnds 2 s
    else match agentWrite s g.root va (imageOf s.tick g t 0 0) true with
      | .locked => s
      | .lost => xctlEnds 2 s
      | .ok _ s1 =>
        let x : SavedTeam :=
          { base := BitVec.ofNat 57 va, len := len, seq := 0, team := t
            bins := (s1.core t.core).bins.filter fun b => decide (b.team = t.uid) }
        (takeOff t s1).updGrid g.uid fun g => { g with suspended := g.suspended ++ [x] }

/-- PREEMPT goes on (R372): the next placed team, in ascending TEAMID, once it can stop. -/
def preemptNext (g : Grid) (s : State) : State :=
  match byTeam Team.teamid (s.teams.filter fun t => decide (t.grid = g.uid)) with
  | [] => xctlEnds 0 s
  | t :: _ =>
    if t.ending.isSome ∨ !canStop s t then s
    else
      let s1 := finishEngines t s
      if ((s1.team? t.uid).map fun t => t.ending.isNone && t.hods.isEmpty && t.beads.isEmpty) = some true then saveTeam g t.uid s1 else s1

/-- The grid of the operation that XCTL performs. -/
def xctlGrid (op : BitVec 3) (s : State) : Option Grid :=
  if s.lath.xcBusy ∧ s.lath.xcOp = op then s.grid? s.lath.xcGrid else none

/-- XCTL_PREEMPT (R372): the write of XCTL; then, with no argument, one team at a time. -/
def execXctlPreempt (s : State) : Host.Outcome State Fault Refusal :=
  .next <| match s.arg with
    | .nothing =>
      if !s.lath.xcBusy ∨ s.lath.xcOp ≠ 1 then s
      else match xctlGrid 1 s with
        | none => xctlEnds 0 s
        | some g => withArea g (s.updGrid g.uid fun g => { g with held := true }) (preemptNext g)
    | _ => registerRow .preempt s fun _ v => xctlAccept 1 v

/-- One suspended team of a grid restored (R376, R377). -/
def restoreTeam (g : Grid) (x : SavedTeam) (s : State) : State :=
  match agentRead s g.root x.base.toNat x.len true with
  | .locked => s
  | .lost => xctlEnds 2 s
  | .ok bs s1 =>
    if !imageVerifies x.len bs then xctlEnds 4 s1
    else if !(imageCapacity s1 bs && anyOnline s1) then xctlEnds 3 s1
    else match chooseCore s1 (x.team.need g) with
      | none => s1
      | some c =>
        if columnBusy s1 g c then s1 else
        (resume x x.team.uid c s1).updGrid g.uid fun g => { g with suspended := g.suspended.filter fun y => decide (y ≠ x) }

/-- RESTORE goes on: the next suspended team, in ascending TEAMID; with none left the grid is placed again. -/
def restoreNext (g : Grid) (s : State) : State :=
  match byTeam (fun x : SavedTeam => x.team.teamid) g.suspended with
  | [] => xctlEnds 0 (s.updGrid g.uid fun g => { g with held := false })
  | x :: _ => restoreTeam g x s

/-- XCTL_RESTORE (R376): the write of XCTL; then, with no argument, one team at a time. -/
def execXctlRestore (s : State) : Host.Outcome State Fault Refusal :=
  .next <| match s.arg with
    | .nothing =>
      if !s.lath.xcBusy ∨ s.lath.xcOp ≠ 2 then s
      else match xctlGrid 2 s with
        | none => xctlEnds 0 s
        | some g => withArea g s (restoreNext g)
    | _ => registerRow .restore s fun _ v => xctlAccept 2 v

/-- A suspended team ended by ABORT: TEAM_ABORTED, or IMAGE_CORRUPT where its image does not verify (R377). -/
def abortSaved (g : Grid) (x : SavedTeam) (s : State) : State :=
  let ends (code : Code) (s : State) : Option State :=
    (retireTeam g x.team.teamid code s.clk x.team.tflags s).map fun s1 =>
      { (s1.updGrid g.uid fun g => { g with suspended := g.suspended.filter fun y => decide (y ≠ x) }) with
        undelivered := s1.undelivered.filter fun w => decide (w.1 ≠ x.team.uid) }
  match agentRead s g.root x.base.toNat x.len true with
  | .locked => s
  | .lost => (ends cImageCorrupt s).getD s
  | .ok bs s1 => (ends (if imageVerifies x.len bs then cTeamAborted else cImageCorrupt) s1).getD s

/-- ABORT goes on: the running teams are made to end, and the suspended ones and those that wait to be placed again end
one at a time; with none left the record takes part in placement again. -/
def abortNext (g : Grid) (s : State) : State :=
  let mine := s.teams.filter fun t => decide (t.grid = g.uid)
  let s1 := mine.foldl (fun s t => endTeamWith s t.uid cTeamAborted) (s.updGrid g.uid fun g => { g with held := true })
  match g.suspended, g.restartQ with
  | x :: _, _ => abortSaved g x s1
  | [], id :: _ =>
    ((retireTeam g id cTeamAborted s.clk 0 s1).map fun s2 =>
      s2.updGrid g.uid fun g => { g with restartQ := g.restartQ.erase id }).getD s1
  | [], [] => if mine = [] then xctlEnds 0 (s1.updGrid g.uid fun g => { g with held := false }) else s1

/-- XCTL_ABORT (R372): the write of XCTL; then, with no argument, one team at a time. -/
def execXctlAbort (s : State) : Host.Outcome State Fault Refusal :=
  .next <| match s.arg with
    | .nothing =>
      if !s.lath.xcBusy ∨ s.lath.xcOp ≠ 3 then s
      else match xctlGrid 3 s with
        | none => xctlEnds 0 s
        | some g => abortNext g s
    | _ => registerRow .abort s fun _ v => xctlAccept 3 v

/-! ## Snapshots -/

/-- Whether SNAP may release its waiters on a barrier: they wait, and the team has no running spawned group, no task in a
bin and no engine work (R258). -/
def snapDue (s : State) (t : Team) (b : Nat) : Bool :=
  t.snapHolds b && t.spawnedGroups.isEmpty && !hasBin s t && !t.engineBusy && t.ending.isNone

/-- The virtual address of slot `k` of a team's snapshots (R381). -/
def Grid.snapSlot (g : Grid) (teamid k : Nat) : Nat := g.field 0x78 8 + (2 * teamid + k) * g.imageLen 0 0

/-- The snapshot of a team that its n-th SNAP writes: its image in slot n mod 2, as the team stands when the SNAP
releases. -/
def takeSnapshot (g : Grid) (t0 : Team) (s : State) : State :=
  let n := t0.snaps + 1
  let t := { t0.atRest with snaps := n }
  let va := g.snapSlot t.teamid (n % 2)
  match agentWrite s g.root va (imageOf s.tick g t 1 n) true with
  | .locked => s
  | .lost => endTeamWith s t.uid cXlatLost
  | .ok _ s1 =>
    let x : SavedTeam := { base := BitVec.ofNat 57 va, len := t.imageLen g, seq := n, team := t, bins := [] }
    (s1.updTeam t.uid fun t => { t with snaps := n }).updGrid g.uid fun g =>
      { g with snapshots := (g.snapshots.filter fun y => decide (y.base ≠ x.base)) ++ [x] }

/-- Whether the snapshot of a team has been written for its n-th SNAP. -/
def snapped (s : State) (uid n : Nat) : Bool := ((s.team? uid).map fun t => decide (t.snaps = n)).getD false

/-- SNAP_RELEASE (R258, R381): the argument names the team and the barrier. For a snapshot grid the copy is written
first, once the column takes accesses. -/
def execSnapRelease (s : State) : Host.Outcome State Fault Refusal :=
  .next <| match s.arg with
    | .two uid b => match s.team? uid with
      | some t => match s.grid? t.grid with
        | some gr =>
          if !snapDue s t b ∨ (gr.cls = 2 ∧ columnBusy s gr t.core) then s
          else if gr.cls = 2 then
            let s1 := takeSnapshot gr (t.settle gr (some b)) s
            if snapped s1 uid (t.snaps + 1) then settleWaits uid (some b) s1 else s1
          else settleWaits uid (some b) s
        | none => s
      | none => s
    | _ => s

/-- A snapshot of a team with the bytes of its slot, where it is valid (R382). -/
def validSnapshot (g : Grid) (x : SavedTeam) (s : State) : Option (Nat × SavedTeam × List Byte) :=
  match agentRead s g.root x.base.toNat x.len true with
  | .ok bs _ =>
    if imageVerifies x.len bs ∧ bytesFld bs 0x18 4 = x.team.teamid ∧ bytesFld bs 0x10 8 ≠ 0 then some (bytesFld bs 0x10 8, x, bs)
    else none
  | _ => none

/-- The newest valid snapshot of a team: that of the highest SEQ. -/
def newestSnapshot (g : Grid) (teamid : Nat) (s : State) : Option (SavedTeam × List Byte) :=
  ((stableSort (fun (a b : Nat × SavedTeam × List Byte) => decide (b.1 < a.1))
    ((g.snapshots.filter fun x => decide (x.team.teamid = teamid)).filterMap fun x => validSnapshot g x s)).head?).map fun r => r.2

/-- Whether a page of a team's snapshots is locked. -/
def snapshotLocked (g : Grid) (teamid : Nat) (s : State) : Bool :=
  (g.snapshots.filter fun x => decide (x.team.teamid = teamid)).any fun x =>
    match agentRead s g.root x.base.toNat x.len true with
    | .locked => true
    | _ => false

/-! ## Placing a team -/

/-- A team that a fence has stopped taken from those that wait to be placed again. -/
def replaced (g : Grid) (teamid : Nat) (again : Bool) (s : State) : State :=
  s.updGrid g.uid fun g => { g with restartQ := g.restartQ.erase teamid, restarts := if again then g.restarts + 1 else g.restarts }

/-- A stopped team placed again (R380, R382): from its newest valid snapshot, or from team start; `none` where it has to
wait. -/
def placeAgain (g : Grid) (teamid : Nat) (s : State) : Option State :=
  let fromStart : Option State := (chooseCore s g.need).map fun c =>
    replaced g teamid true (seat (g.newTeam s.nextUid teamid c s.clk) s)
  if g.cls ≠ 2 then fromStart
  else if snapshotLocked g teamid s then none
  else match newestSnapshot g teamid s with
    | none => fromStart
    | some (x, bs) =>
      if !(imageCapacity s bs && anyOnline s) then (retireTeam g teamid cRestoreCap s.clk x.team.tflags s).map (replaced g teamid false)
      else match chooseCore s (x.team.need g) with
        | none => none
        | some c => if columnBusy s g c then none else some (replaced g teamid true (resume x s.nextUid c s))

/-- The first team that waits to be placed again and can be, placed. -/
def firstAgain (s : State) : Option State :=
  s.grids.findSome? fun g => if g.held then none else g.restartQ.findSome? fun id => placeAgain g id s

/-- PLACE_TEAM (R78, R93, R94, R380): a team that a fence has stopped, else the next team of the record the arbiter
selects. -/
def execPlaceTeam (s : State) : Host.Outcome State Fault Refusal :=
  .next <| match firstAgain s with
    | some s1 => s1
    | none => match arbiter s with
      | some (q, g, c) => placeNext g c { s with prioPtr := mapSet s.prioPtr (s.queue q).prio.toNat q }
      | none => s

end Sys2Proof.Machine
end

