-- ==== Sys2Proof/Machine/Repair.lean ====
section
/-! DEFINITION. Stacked-layer upkeep (R230) and soft errors: the second read of a location, and the containment of a
lasting fault (R378 to R380, Table 15.7). -/

namespace Sys2Proof.Machine

/-! ## Vertical repair -/

/-- A repair that freezes a column's vertical bus, logged under its path and counted (R230, R431, R432). -/
def freezeColumn (core : Nat) (s : State) : State :=
  countEvent 3 (logError 5 (unitPath (.column core 4)) (s.updCore core fun k => { k with frozen := some s.clk }))

/-- REPAIR_FREEZE_END (R230): accesses to the column go on; the clocks of the freeze count in no .WF wait (R213). Those that a
change of COLCLK shares with it are left to the end of that change. -/
def execRepairFreezeEnd (s : State) : Host.Outcome State Fault Refusal :=
  .next <| match s.arg with
    | .one c => match (s.core c).frozen with
      | some start =>
        let stop := if s.lath.colBusy then min s.clk s.lath.colSince else s.clk
        (notCounted (fun k => decide (k = c)) start stop s).updCore c fun k => { k with frozen := none }
      | none => s
    | _ => s

/-! ## Fencing a core (R380) -/

/-- A team on a fenced core stopped at once: its groups issue nothing more, and its engine work is discarded. -/
def stopTeam (uid : Nat) (s : State) : State :=
  s.updTeam uid fun t => { t with
    hods := [], beads := [], hodch := { t.hodch with busy := false }, groups := t.groups.map fun g => { g with mac := [] } }

/-- The reflections held for a team. -/
def heldFor (t : Team) (h : Nat × BitVec 256 × Flit) : Bool :=
  decide (h.1 = t.grid) && decide (fld256 h.2.1 96 32 = t.teamid)

/-- The vertical-FIFO entries of a grid in both FIFOs of a pair discarded. -/
def dropPairFifo (c grid : Nat) (s : State) : State :=
  let keep (k : CoreSt) : CoreSt := { k with fifo := k.fifo.filter fun e => decide (e.grid ≠ grid) }
  (s.updCore c keep).updCore (partner c) keep

/-- What a fence does to one team on the core: by its grid's CLASS it ends with UNIT_FENCED, or waits to be placed again. -/
def fenceTeam (t : Team) (s : State) : State :=
  let s1 := dropPairFifo t.core t.grid (discardHeld (heldFor t) (stopTeam t.uid s))
  match s.grid? t.grid with
  | none => s1
  | some g =>
    if t.ending.isSome then s1
    else if g.cls = 0 then endTeamWith s1 t.uid cUnitFenced
    else (freeTeam t s1).updGrid g.uid fun g => { g with restartQ := g.restartQ ++ [t.teamid] }

/-- The lines of a fenced core's L1: each is performed or lost whole (R380), which is a free value, with the lines that hold
other parts of its blocks (R37). -/
def loseLines (c : Nat) (s : State) : State :=
  (s.core c).lineNos.foldl (fun s ln =>
    if Config.pick s.tick (ln + 2) % 2 = 1 then dropLine s c ln
    else
      let gone := (s.core c).bonded (s.core c).l1.length [ln]
      s.updCore c fun k => { k with l1 := k.l1.filter fun e => !gone.contains e.line }) s

/-- A core fenced with its column (R379, R380). -/
def fenceCore (c : Nat) (s : State) : State :=
  let s1 := (teamsOn s c).foldl (fun s t => fenceTeam t s) s
  (loseLines c s1).updCore c fun k => { k with fenced := true, frozen := none, tlb := [] }

/-! ## Grids that a lasting fault ends -/

/-- A team of a grid that is on no core ended with LASTING_FAULT. -/
def endAbsent (g : Grid) (teamid : Nat) (tflags : BitVec 8) (s : State) : State :=
  (retireTeam g teamid cLastingFault s.clk tflags s).getD (recordEnd g.uid teamid cLastingFault s.clk tflags s)

/-- A grid ended with LASTING_FAULT (R379): its running teams end, those saved or stopped end, and it places no team more, which
is a cause of the grid (R387); one that has placed none is given up. -/
def endGrid (g : Grid) (s : State) : State :=
  let s1 := (s.teams.filter fun t => decide (t.grid = g.uid)).foldl (fun s t => endTeamWith s t.uid cLastingFault) s
  let s2 := g.suspended.foldl (fun s x => endAbsent g x.team.teamid x.team.tflags s) s1
  let s3 := g.restartQ.foldl (fun s id => endAbsent g id 0 s) s2
  if g.nextTeam = 0 then (abandon g cLastingFault true s3).getD s3
  else (s3.updGrid g.uid fun g =>
      { g with
        suspended := [], restartQ := [], held := false, stage := .running, cut := g.cut + (g.teamCount - g.nextTeam)
        cutClk := if g.nextTeam < g.teamCount then some s.clk else g.cutClk, nextTeam := g.teamCount }).updQueue
    g.queue fun q => { q with pending := q.pending.erase g.uid }

/-- Whether a grid holds a lease on the page of a physical address. -/
def leasesPage (s : State) (g : Grid) (pa : Nat) : Bool :=
  g.leases.any fun l => (List.range (l.len / 65536)).any fun k => match walk s g.root (l.base + 65536 * k) with
    | .leaf x => decide (entryPa x.word ≤ pa) && decide (pa < entryPa x.word + 2 ^ x.shift)
    | _ => false

/-- Whether a grid leases a 64 KiB frame. -/
def leasesFrame (s : State) (f : Nat) (g : Grid) : Bool :=
  g.leases.any fun l => (List.range (l.len / 65536)).any fun k => match walk s g.root (l.base + 65536 * k) with
    | .leaf x => decide ((entryPa x.word + (l.base + 65536 * k) % 2 ^ x.shift) / 65536 = f)
    | _ => false

/-- Every grid that a test picks ended. -/
def endLeasing (p : Grid → Bool) (s : State) : State := (s.grids.filter p).foldl (fun s g => endGrid g s) s

/-! ## Containment (Table 15.7) -/

/-- The stack reducer that a step numbered `k` runs on: the next online stack that is not fenced (R359). -/
def reducerOf (s : State) (k : Nat) : Option Nat :=
  ((List.range 12).map fun j => (k + j) % 12).find? fun n => s.hbmUp.getLsbD n && !s.fencedReducers.getLsbD n

/-- The ranks at which a tree node over `n` ranks from `lo` on starts (R354); `fuel` bounds its depth. -/
def treeLos : Nat → Nat → Nat → List Nat
  | 0, _, _ => []
  | fuel + 1, n, lo => if n ≤ 1 then [] else lo :: (treeLos fuel ((n + 1) / 2) lo ++ treeLos fuel (n / 2) (lo + (n + 1) / 2))

/-- The rank of this package in an instance: from its header, else from the participant list. -/
def collRank (s : State) (g : Grid) (c : Coll) : Option Nat :=
  match c.hdr with
  | some h => some h.rank
  | none => match agentRead s g.root (g.field 0x98 8) (2 * g.npart) false with
    | .ok list _ => (List.range g.npart).find? fun k => decide (bytesFld list (2 * k) 2 = s.lath.chipId.toNat)
    | _ => none

/-- Whether an instance has a step queued at a reducer of this package (R359): the package's rank starts a node of the tree, or
is 0 and makes the header check, and a chunk that is not reduced has arrived whose reducer it is. -/
def queuedAt (s : State) (c : Coll) (n : Nat) : Bool :=
  match s.grid? c.grid with
  | none => false
  | some g => match collRank s g c with
    | none => false
    | some r =>
      !(c.state == .done || c.state == .abort) && (decide (r = 0) || (treeLos g.npart g.npart 0).contains r) &&
        c.inputs.any fun x => !c.reduced.contains x.chunk && decide (reducerOf s (c.collId + x.chunk) = some n)

/-- A fenced reducer: every instance with a step queued there ends with LASTING_FAULT at every participant. -/
def fenceReducer (n : Nat) (s : State) : State :=
  let s1 := (s.colls.filter fun c => queuedAt s c n).foldl (fun s c =>
    sendAll c 0 (.abort c.collId c.inst cLastingFault) (s.updColl c.collId c.inst (Coll.abort cLastingFault s.clk))) s
  { s1 with fencedReducers := s1.fencedReducers ||| BitVec.twoPow 12 n }

/-- The fall to service level L0: every team ends with LASTING_FAULT, the arithmetic clock stops, and no bring-up goes on. -/
def fallToL0 (s : State) : State :=
  let s1 := s.teams.foldl (fun s t => endTeamWith s t.uid cLastingFault) s
  let s2 := s1.grids.foldl (fun s g =>
    (g.restartQ.foldl (fun s id => endAbsent g id 0 s)
      (g.suspended.foldl (fun s x => endAbsent g x.team.teamid x.team.tflags s) s)).updGrid g.uid fun g =>
        { g with suspended := [], restartQ := [], held := false }) s1
  { s2 with level := 0, lath := { s2.lath with freq := 0 }, firmware := { s2.firmware with bring := none } }

/-- What a lasting fault of a unit fences and ends. Table 15.7 has no row for a CXL link: it is fenced untrained as a Scrim port
is, and its range has no backing (DESIGN CHOICE, assumption 78). -/
def contain (u : FaultUnit) (s : State) : State :=
  match u with
  | .coreSram c _ | .column c _ => fenceCore c s
  | .l2Line pa =>
    let ln := pa / 64
    let s1 := if s.l2Dirty.contains ln then endLeasing (fun g => leasesPage s g pa) s else s
    { s1 with fencedWays := natInsert s1.fencedWays ln }
  | .hbm _ frames =>
    let s1 := endLeasing (fun g => frames.any fun f => leasesFrame s f g) s
    { s1 with fencedFrames := frames.foldl natInsert s1.fencedFrames }
  | .reducer n => fenceReducer n s
  | .scrimPort n =>
    { updLink false n (fun k => { k with en := false, state := 0 }) s with fencedPorts := s.fencedPorts ||| BitVec.twoPow 48 n }
  | .cxlLink n =>
    { updLink true n (fun k => { k with en := false, state := 0 }) s with
      fencedLinks := s.fencedLinks ||| BitVec.twoPow 8 n, cxlUp := s.cxlUp &&& ~~~(BitVec.twoPow 8 n) }
  | .baseDie _ _ => fallToL0 s

/-- A lasting fault (R378, R379): logged, counted and contained. -/
def lastingFault (u : FaultUnit) (s : State) : State := countEvent 2 (logError 3 (unitPath u) (contain u s))

/-- VERTICAL_REPAIR (R230): no repair starts while COLCLK.BUSY = 1 (R231); a bus that cannot be repaired fences its
column. -/
def execVerticalRepair (s : State) : Host.Outcome State Fault Refusal :=
  .next <| match s.arg with
    | .repair c repaired =>
      if s.lath.colBusy ∨ (s.core c).frozen.isSome ∨ !coreOnline s c then s
      else if repaired then freezeColumn c s
      else lastingFault (.column c 4) s
    | _ => s

/-- UNCORRECTABLE_READ (R378): the unit reads the location once more; where ECC corrects the error, it is corrected in place,
counted and logged. -/
def execUncorrectableRead (s : State) : Host.Outcome State Fault Refusal :=
  .next <| match s.arg with
    | .unit u true => countEvent 0 (logError 1 (unitPath u) s)
    | .unit u false => if s.retryReads.contains u then s else { s with retryReads := s.retryReads ++ [u] }
    | _ => s

/-- RETRY_READ_RESULT (R378): a correct second read is a transient error, a failed one a lasting fault. -/
def execRetryReadResult (s : State) : Host.Outcome State Fault Refusal :=
  .next <| match s.arg with
    | .unit u good =>
      if !s.retryReads.contains u then s
      else
        let s1 := { s with retryReads := s.retryReads.erase u }
        if good then countEvent 1 (logError 2 (unitPath u) s1) else lastingFault u s1
    | _ => s

end Sys2Proof.Machine
end

