-- ==== Sys2Proof/Machine/Boot.lean ====
section
/-! DEFINITION. Reset, power and bring-up (R422 to R424, R437), the firmware image and its check (R425 to R427), recovery
(R428) and attestation (R429). -/

namespace Sys2Proof.Machine

/-! ## Reset and power (R422) -/

/-- The package after a package reset: what is on the module and in the fuses stays, as do the model's own counter and
what the outside world does next. -/
def afterReset (s : State) : State := { State.reset with flash := s.flash, tick := s.tick, agenda := s.agenda }

/-- PACKAGE_RESET (R422). -/
def execPackageReset (s : State) : Host.Outcome State Fault Refusal := .next (afterReset s)

/-- The package without power. -/
def withoutPower (s : State) : State := { afterReset s with firmware := { powered := false } }

/-- POWER_REMOVED (R422, R437). -/
def execPowerRemoved (s : State) : Host.Outcome State Fault Refusal := .next (withoutPower s)

/-- JUNCTION_OVERTEMP (R437): ALERT_N is asserted, upon which the module removes the power. -/
def execJunctionOvertemp (s : State) : Host.Outcome State Fault Refusal :=
  .next (if s.firmware.powered then { s with firmware := { s.firmware with alert := true } } else s)

/-! ## Firmware images (R426) -/

/-- Whether Svaoc accepts a firmware image. -/
def imageAccepted (m : Module) (img : List Byte) : Bool :=
  let k := bytesFld img 0x0C 1
  let n := bytesFld img 0x08 4
  let key := bytesOfNat 57 ((nth m.keys k 0).toNat)
  decide (256 + n ≤ img.length) && decide (bytesFld img 0 4 = 0x4F444E4E) && decide (k < 4) && !m.revoked.getLsbD k &&
    decide (Config.shake512 key = nth m.keyHash k 0) &&
    decide (Config.shake512 ((img.drop 256).take n) = BitVec.ofNat 512 (bytesFld img 0x10 64)) &&
    Config.ed448Verify key (img.take 128) ((img.drop 128).take 114) && decide (m.minSvn.toNat ≤ bytesFld img 4 4)

/-- The image that Svaoc boots: whether it is the recovery image, with its SVN and DIGEST; none where neither is
accepted (R424, R428). -/
def bootImage (m : Module) (recovery : Bool) : Option (Bool × List Byte) :=
  if !recovery ∧ imageAccepted m m.primary then some (false, m.primary)
  else if imageAccepted m m.recovery then some (true, m.recovery)
  else none

/-! ## Bring-up (R424) -/

/-- A unit that fails BIST: logged, counted and fenced (R379, R431, R432). -/
def bistFails (u : FaultUnit) (s : State) : State := countEvent 2 (logError 4 (unitPath u) (contain u s))

/-- Whether a unit is one whose failure keeps the package at L0 (Table 22.2). -/
def isBaseDie (u : FaultUnit) : Bool := match u with
  | .baseDie _ _ => true
  | _ => false

/-- Step 4 of Table 22.2: BIST of every unit. The cores come online in this step, also where a base-die unit fails and the package
stays at L0 (DESIGN CHOICE, assumption 79). -/
def bist (b : BringUp) (s : State) : State :=
  let s1 := b.bistFail.foldl (fun s u => bistFails u s) { s with base := BitVec.allOnes 64 }
  if b.bistFail.any isBaseDie then { s1 with firmware := { s1.firmware with bring := none } } else s1

/-- A link after training: up, or failed and held so; one that is fenced has not trained. -/
def trainedLink (fenced up : Bool) : Link :=
  if fenced then { en := false } else { state := if up then 2 else 3, trained := true }

/-- Step 5: the HBM4E stacks, the CXL links and, except with the recovery image (R428), the Scrim ports train, and the package is
at L1, where the recovery image leaves it. -/
def trainAll (b : BringUp) (s : State) : State :=
  let rec_ := s.firmware.recoveryRunning
  { s with
    hbmUp := b.hbmUp
    cxlUp := b.cxlUp &&& ~~~s.fencedLinks
    cxl := (List.range 8).map fun n => (n, trainedLink (s.fencedLinks.getLsbD n) (b.cxlUp.getLsbD n))
    scrim := if rec_ then s.scrim else (List.range 48).map fun n => (n, trainedLink (s.fencedPorts.getLsbD n) (b.scrimUp.getLsbD n))
    level := 1
    lath := { s.lath with freq := 650 }
    firmware := { s.firmware with bring := if rec_ then none else some b } }

/-- Step 6, its first part: cores whose array fails calibration are fenced, and the package is at L2. -/
def calibrate (b : BringUp) (s : State) : State :=
  { (bitsOf 64 b.arrayFail).foldl (fun s c => fenceCore c s) s with level := 2 }

/-- Step 6, its second part: the clock raised, and L3. -/
def raiseClock (s : State) : State :=
  { s with level := 3, lath := { s.lath with freq := 1300 }, firmware := { s.firmware with bring := none } }

/-- Steps 1 to 3 of bring-up from package reset, with the recovery image where `recovery` asks for it: where an image is accepted
it runs, and the steps of Ndout are to follow. -/
def bringUp (b : BringUp) (recovery : Bool) (s : State) : State :=
  let s0 := afterReset s
  match bootImage s.flash recovery with
  | none => s0
  | some (rec_, img) => { s0 with firmware :=
      { recoveryRunning := rec_, svn := BitVec.ofNat 32 (bytesFld img 4 4), digest := BitVec.ofNat 512 (bytesFld img 0x10 64),
        bring := some b } }

/-- The next step of a bring-up in progress: each starts once the one before has completed. -/
def bringOn (s : State) : State :=
  match s.firmware.bring with
  | none => s
  | some b =>
    if s.level = 0 then (if s.base = 0 then bist b s else trainAll b s)
    else if s.level = 1 then calibrate b s
    else raiseClock s

/-- PERST_N_RELEASE (R424): the rails and the reference clock are stable, and bring-up starts; with no argument it goes on by one
step. -/
def execPerstNRelease (s : State) : Host.Outcome State Fault Refusal :=
  .next <| match s.arg with
    | .boot b => bringUp b b.recov s
    | .nothing => bringOn s
    | _ => s

/-! ## Frames for Svaoc -/

/-- RECOVERY (R428): the package is reset and boots the recovery image; the link reset takes the place of an answer. -/
def execRecovery (s : State) : Host.Outcome State Fault Refusal :=
  .next <| match s.arg with
    | .recover f b =>
      if frameSound f s then (if f.hdr.ty = 0x40 then bringUp b true s else s)
      else if f.crcOk && isReply f then s else lathFrame f id s
    | _ => s

/-- An image put into the primary slot, where Svaoc accepts it. -/
def loadImage (img : List Byte) (s : State) : State :=
  if imageAccepted s.flash img then { s with flash := { s.flash with primary := img } } else s

/-- FIRMWARE_LOAD (R427): the image takes effect at the next reset. -/
def execFirmwareLoad (s : State) : Host.Outcome State Fault Refusal :=
  .next (lathRow (fun f => decide (f.hdr.ty = 0x41)) (fun f => loadImage f.payload) s)

/-- Bytes 0x000 to 0x0FF of an attestation report (Table 22.5). -/
def reportBody (nonce : BitVec 256) (s : State) : List Byte :=
  bytesOfNat 4 0x54544141 ++ bytesOfNat 4 (bit s.firmware.recoveryRunning) ++ bytesOfNat 32 nonce.toNat ++
    bytesOfNat 4 (pkgInfo s).toNat ++ bytesOfNat 4 s.firmware.svn.toNat ++ bytesOfNat 8 (onlineMap s).toNat ++
    (List.range 64).map Config.svaocMeasure ++ bytesOfNat 64 s.firmware.digest.toNat ++ (List.range 57).map Config.identityKey ++
    List.replicate 15 0

/-- The attestation report (Table 22.5). -/
def report (nonce : BitVec 256) (s : State) : List Byte :=
  let body := reportBody nonce s
  body ++ ((Config.attestSign body) ++ List.replicate 114 0).take 114 ++ List.replicate 14 0

/-- ATTESTATION_REQUEST (R429). -/
def execAttestationRequest (s : State) : Host.Outcome State Fault Refusal :=
  .next (lathRow (fun f => decide (f.hdr.ty = 0x42)) (fun f s => lathRespond f.addr 0 (report f.nonce s) s) s)

end Sys2Proof.Machine
end

