-- ==== Sys2Proof/Machine/Int.lean ====
section
/-! DEFINITION. The integer and predicate instructions of majors 0x08 to 0x10 (R165 to R173). Each meaning
acts on the live pairs; with none it writes nothing (R153). -/

namespace Sys2Proof.Machine

/-! ## Arithmetic on two's complement numbers -/

/-- An integer clamped to the signed range of `n` bits. -/
def clampS (n : Nat) (v : Int) : BitVec n :=
  BitVec.ofInt n (max (-(2 ^ (n - 1) : Nat)) (min (((2 ^ (n - 1) : Nat) : Int) - 1) v))
/-- Saturating signed sum. -/
def addSatS {n : Nat} (a b : BitVec n) : BitVec n := clampS n (a.toInt + b.toInt)
/-- Saturating signed difference. -/
def subSatS {n : Nat} (a b : BitVec n) : BitVec n := clampS n (a.toInt - b.toInt)
/-- Saturating unsigned sum. -/
def addSatU {n : Nat} (a b : BitVec n) : BitVec n := BitVec.ofNat n (min (2 ^ n - 1) (a.toNat + b.toNat))
/-- Saturating unsigned difference. -/
def subSatU {n : Nat} (a b : BitVec n) : BitVec n := BitVec.ofNat n (a.toNat - b.toNat)
/-- The smaller operand, unsigned or signed. -/
def minBy {n : Nat} (unsigned : Bool) (a b : BitVec n) : BitVec n :=
  if (if unsigned then a.ule b else a.sle b) then a else b
/-- The larger operand, unsigned or signed. -/
def maxBy {n : Nat} (unsigned : Bool) (a b : BitVec n) : BitVec n :=
  if (if unsigned then a.ule b else a.sle b) then b else a

/-! ## Bits (R168, R169) -/

/-- Shift left; 0 for a shift of the width or more. -/
def shlBy {n : Nat} (a : BitVec n) (k : Nat) : BitVec n := if k < n then a <<< k else 0
/-- Logical shift right; 0 for a shift of the width or more. -/
def shrUBy {n : Nat} (a : BitVec n) (k : Nat) : BitVec n := if k < n then a >>> k else 0
/-- Arithmetic shift right; copies of the sign for a shift of the width or more. -/
def shrSBy {n : Nat} (a : BitVec n) (k : Nat) : BitVec n :=
  if k < n then a.sshiftRight k else if a.msb then BitVec.allOnes n else 0
/-- Rotate left by k mod 32. -/
def rolBy (a : Word) (k : Nat) : Word := (a <<< (k % 32)) ||| (a >>> (32 - k % 32))
/-- Rotate right by k mod 32. -/
def rorBy (a : Word) (k : Nat) : Word := (a >>> (k % 32)) ||| (a <<< (32 - k % 32))
/-- The number of 1 bits among the low `n`. -/
def popCount : Nat → Nat → Nat
  | 0, _ => 0
  | k + 1, v => v % 2 + popCount k (v / 2)
/-- The zeros above the highest 1 bit of `n` bits; `n` when there is none. -/
def leadingZeros (n v : Nat) : Nat := if v = 0 then n else n - 1 - v.log2
/-- The zeros below the lowest 1 bit of `n` bits; `n` when there is none. -/
def trailingZeros : Nat → Nat → Nat
  | 0, _ => 0
  | k + 1, v => if v % 2 = 1 then 0 else 1 + trailingZeros k (v / 2)
/-- The bits in reverse order. -/
def bitReverse (a : Word) : Word := maskOf 32 ((List.range 32).filter fun i => a.getLsbD (31 - i))

/-- pos and len of a field description (R169). -/
def fieldPos (b : Word) : Nat := (b.extractLsb' 0 8).toNat
/-- len, at most 32. -/
def fieldLen (b : Word) : Nat := min (b.extractLsb' 8 8).toNat 32
/-- The field of a, zero-extended (R169). -/
def fieldU (a b : Word) : Word := BitVec.ofNat 32 ((a.toNat / 2 ^ fieldPos b) % 2 ^ fieldLen b)
/-- The field of a, sign-extended (R169). -/
def fieldS (a b : Word) : Word :=
  let f := fieldU a b
  if 0 < fieldLen b ∧ f.getLsbD (fieldLen b - 1) then BitVec.ofInt 32 ((f.toNat : Int) - (2 ^ fieldLen b : Nat)) else f
/-- The low bits of a inserted into a base (R169). -/
def fieldInsert (base a b : Word) : Word :=
  let m : Word := BitVec.ofNat 32 ((2 ^ fieldLen b - 1) * 2 ^ fieldPos b)
  (base &&& ~~~m) ||| (BitVec.ofNat 32 (a.toNat * 2 ^ fieldPos b) &&& m)
/-- One byte of BYSEL by its selector (R169). -/
def selectByte (a : Word) (sel : BitVec 4) : Byte :=
  let x := a.extractLsb' (8 * (sel.extractLsb' 0 2).toNat) 8
  if sel.getLsbD 3 then 0 else if sel.getLsbD 2 then (if x.msb then 0xFF else 0) else x
/-- BYSEL (R169). -/
def byteSelect (a b : Word) : Word :=
  selectByte a (b.extractLsb' 12 4) ++ selectByte a (b.extractLsb' 8 4) ++ selectByte a (b.extractLsb' 4 4) ++
    selectByte a (b.extractLsb' 0 4)

/-! ## Multiply, divide, compare -/

/-- The high half of the signed product. -/
def mulHighS {n : Nat} (a b : BitVec n) : BitVec n := BitVec.ofInt n ((a.toInt * b.toInt).fdiv (2 ^ n : Nat))
/-- The high half of the unsigned product. -/
def mulHighU {n : Nat} (a b : BitVec n) : BitVec n := BitVec.ofNat n (a.toNat * b.toNat / 2 ^ n)
/-- Signed quotient toward zero; all ones for a divisor of 0 (Table 7.4). -/
def divS {n : Nat} (a b : BitVec n) : BitVec n :=
  if b = 0 then BitVec.allOnes n else BitVec.ofInt n (a.toInt.tdiv b.toInt)
/-- Signed remainder; the dividend for a divisor of 0 (Table 7.4). -/
def remS {n : Nat} (a b : BitVec n) : BitVec n :=
  if b = 0 then a else BitVec.ofInt n (a.toInt.tmod b.toInt)
/-- Unsigned quotient; all ones for a divisor of 0 (Table 7.4). -/
def divU {n : Nat} (a b : BitVec n) : BitVec n :=
  if b = 0 then BitVec.allOnes n else BitVec.ofNat n (a.toNat / b.toNat)
/-- Unsigned remainder; the dividend for a divisor of 0 (Table 7.4). -/
def remU {n : Nat} (a b : BitVec n) : BitVec n :=
  if b = 0 then a else BitVec.ofNat n (a.toNat % b.toNat)

/-- A relation of ICMP: 0 EQ, 1 NE, 2 LT, 3 LE, 4 GT, 5 GE (Table 5.8). -/
def intRel {n : Nat} (unsigned : Bool) (r : BitVec 3) (a b : BitVec n) : Bool :=
  let lt := if unsigned then a.ult b else a.slt b
  let gt := if unsigned then b.ult a else b.slt a
  match r.toNat with
  | 0 => a == b
  | 1 => a != b
  | 2 => lt
  | 3 => lt || a == b
  | 4 => gt
  | _ => gt || a == b

/-- The scaled, extended index of LEA: fn 0 to 4 sign-extend, fn 5 to 9 zero-extend, with scales 1 to 16
(R167). -/
def leaOffset (k : BitVec 5) (b : Word) : DWord :=
  if k.toNat < 5 then b.signExtend 64 <<< k.toNat else b.setWidth 64 <<< (k.toNat - 5)

/-! ## Shared forms -/

/-- A two-operand form of majors 0x08 and 0x09: 32-bit, or on pairs for w = 1. -/
def Issue.bin (c : Issue) (j : Instr) (w : BitVec 1) (d a b : BitVec 7) (f : (n : Nat) → BitVec n → BitVec n → BitVec n)
    (t : State) : Res :=
  .ok (if w = 1 then c.put64 (latency j) d (fun p => f 64 (c.src64 a p) (c.src64 b p)) t
    else c.put (latency j) d (fun p => f 32 (c.src a p) (c.src b p)) t)
/-- A one-operand form of majors 0x08 and 0x09. -/
def Issue.un (c : Issue) (j : Instr) (w : BitVec 1) (d a : BitVec 7) (f : (n : Nat) → BitVec n → BitVec n)
    (t : State) : Res :=
  .ok (if w = 1 then c.put64 (latency j) d (fun p => f 64 (c.src64 a p)) t
    else c.put (latency j) d (fun p => f 32 (c.src a p)) t)

/-! ## The instructions -/

/-- ADD (R165, Table 7.1). -/
def execAdd (w : BitVec 1) (d a b : BitVec 7) (s : State) : Host.Outcome State Fault Refusal :=
  groupInstr (.add w d a b) s fun c t => c.bin (.add w d a b) w d a b (fun _ x y => x + y) t

/-- SUB (R165, Table 7.1). -/
def execSub (w : BitVec 1) (d a b : BitVec 7) (s : State) : Host.Outcome State Fault Refusal :=
  groupInstr (.sub w d a b) s fun c t => c.bin (.sub w d a b) w d a b (fun _ x y => x - y) t

/-- ADDSAT.S and ADDSAT.U (R165, Table 7.1). -/
def execAddsat (w u : BitVec 1) (d a b : BitVec 7) (s : State) : Host.Outcome State Fault Refusal :=
  groupInstr (.addsat w u d a b) s fun c t => c.bin (.addsat w u d a b) w d a b (fun _ x y => if u = 1 then addSatU x y else addSatS x y) t

/-- SUBSAT.S and SUBSAT.U (R165, Table 7.1). -/
def execSubsat (w u : BitVec 1) (d a b : BitVec 7) (s : State) : Host.Outcome State Fault Refusal :=
  groupInstr (.subsat w u d a b) s fun c t => c.bin (.subsat w u d a b) w d a b (fun _ x y => if u = 1 then subSatU x y else subSatS x y) t

/-- MIN.S and MIN.U (R165, Table 7.1). -/
def execMin (w u : BitVec 1) (d a b : BitVec 7) (s : State) : Host.Outcome State Fault Refusal :=
  groupInstr (.min w u d a b) s fun c t => c.bin (.min w u d a b) w d a b (fun _ x y => minBy (u == 1) x y) t

/-- MAX.S and MAX.U (R165, Table 7.1). -/
def execMax (w u : BitVec 1) (d a b : BitVec 7) (s : State) : Host.Outcome State Fault Refusal :=
  groupInstr (.max w u d a b) s fun c t => c.bin (.max w u d a b) w d a b (fun _ x y => maxBy (u == 1) x y) t

/-- ABS (R165, Table 7.1). -/
def execAbs (w : BitVec 1) (d a : BitVec 7) (s : State) : Host.Outcome State Fault Refusal :=
  groupInstr (.abs w d a) s fun c t => c.un (.abs w d a) w d a (fun _ x => if x.msb then 0 - x else x) t

/-- NEG (R165, Table 7.1). -/
def execNeg (w : BitVec 1) (d a : BitVec 7) (s : State) : Host.Outcome State Fault Refusal :=
  groupInstr (.neg w d a) s fun c t => c.un (.neg w d a) w d a (fun _ x => 0 - x) t

/-- MOV (R165, Table 7.1). -/
def execMov (w : BitVec 1) (d a : BitVec 7) (s : State) : Host.Outcome State Fault Refusal :=
  groupInstr (.mov w d a) s fun c t => c.un (.mov w d a) w d a (fun _ x => x) t

/-- ADDI (R166). -/
def execAddi (d a : BitVec 7) (i : BitVec 12) (s : State) : Host.Outcome State Fault Refusal :=
  groupInstr (.addi d a i) s fun c t => .ok (c.put (latency (.addi d a i)) d (fun p => c.src a p + i.signExtend 32) t)

/-- AND (R168). -/
def execAnd (d a b : BitVec 7) (s : State) : Host.Outcome State Fault Refusal :=
  groupInstr (.and d a b) s fun c t => .ok (c.put (latency (.and d a b)) d (fun p => (c.src a p) &&& (c.src b p)) t)

/-- OR (R168). -/
def execOr (d a b : BitVec 7) (s : State) : Host.Outcome State Fault Refusal :=
  groupInstr (.or d a b) s fun c t => .ok (c.put (latency (.or d a b)) d (fun p => (c.src a p) ||| (c.src b p)) t)

/-- XOR (R168). -/
def execXor (d a b : BitVec 7) (s : State) : Host.Outcome State Fault Refusal :=
  groupInstr (.xor d a b) s fun c t => .ok (c.put (latency (.xor d a b)) d (fun p => (c.src a p) ^^^ (c.src b p)) t)

/-- ANDN (R168). -/
def execAndn (d a b : BitVec 7) (s : State) : Host.Outcome State Fault Refusal :=
  groupInstr (.andn d a b) s fun c t => .ok (c.put (latency (.andn d a b)) d (fun p => (c.src a p) &&& ~~~(c.src b p)) t)

/-- ORN (R168). -/
def execOrn (d a b : BitVec 7) (s : State) : Host.Outcome State Fault Refusal :=
  groupInstr (.orn d a b) s fun c t => .ok (c.put (latency (.orn d a b)) d (fun p => (c.src a p) ||| ~~~(c.src b p)) t)

/-- NOT (R168). -/
def execNot (d a : BitVec 7) (s : State) : Host.Outcome State Fault Refusal :=
  groupInstr (.not d a) s fun c t => .ok (c.put (latency (.not d a)) d (fun p => ~~~(c.src a p)) t)

/-- SHL (R168). -/
def execShl (d a b : BitVec 7) (s : State) : Host.Outcome State Fault Refusal :=
  groupInstr (.shl d a b) s fun c t => .ok (c.put (latency (.shl d a b)) d (fun p => shlBy (c.src a p) (c.src b p).toNat) t)

/-- SHR.U (R168). -/
def execShrU (d a b : BitVec 7) (s : State) : Host.Outcome State Fault Refusal :=
  groupInstr (.shrU d a b) s fun c t => .ok (c.put (latency (.shrU d a b)) d (fun p => shrUBy (c.src a p) (c.src b p).toNat) t)

/-- SHR.S (R168). -/
def execShrS (d a b : BitVec 7) (s : State) : Host.Outcome State Fault Refusal :=
  groupInstr (.shrS d a b) s fun c t => .ok (c.put (latency (.shrS d a b)) d (fun p => shrSBy (c.src a p) (c.src b p).toNat) t)

/-- ROL (R168). -/
def execRol (d a b : BitVec 7) (s : State) : Host.Outcome State Fault Refusal :=
  groupInstr (.rol d a b) s fun c t => .ok (c.put (latency (.rol d a b)) d (fun p => rolBy (c.src a p) (c.src b p).toNat) t)

/-- ROR (R168). -/
def execRor (d a b : BitVec 7) (s : State) : Host.Outcome State Fault Refusal :=
  groupInstr (.ror d a b) s fun c t => .ok (c.put (latency (.ror d a b)) d (fun p => rorBy (c.src a p) (c.src b p).toNat) t)

/-- SHL.64 (R168). -/
def execShl64 (d a b : BitVec 7) (s : State) : Host.Outcome State Fault Refusal :=
  groupInstr (.shl64 d a b) s fun c t => .ok (c.put64 (latency (.shl64 d a b)) d (fun p => shlBy (c.src64 a p) (c.src b p).toNat) t)

/-- SHR.64.U (R168). -/
def execShr64U (d a b : BitVec 7) (s : State) : Host.Outcome State Fault Refusal :=
  groupInstr (.shr64U d a b) s fun c t => .ok (c.put64 (latency (.shr64U d a b)) d (fun p => shrUBy (c.src64 a p) (c.src b p).toNat) t)

/-- SHR.64.S (R168). -/
def execShr64S (d a b : BitVec 7) (s : State) : Host.Outcome State Fault Refusal :=
  groupInstr (.shr64S d a b) s fun c t => .ok (c.put64 (latency (.shr64S d a b)) d (fun p => shrSBy (c.src64 a p) (c.src b p).toNat) t)

/-- POPC (R168). -/
def execPopc (d a : BitVec 7) (s : State) : Host.Outcome State Fault Refusal :=
  groupInstr (.popc d a) s fun c t => .ok (c.put (latency (.popc d a)) d (fun p => BitVec.ofNat 32 (popCount 32 (c.src a p).toNat)) t)

/-- CLZ (R168). -/
def execClz (d a : BitVec 7) (s : State) : Host.Outcome State Fault Refusal :=
  groupInstr (.clz d a) s fun c t => .ok (c.put (latency (.clz d a)) d (fun p => BitVec.ofNat 32 (leadingZeros 32 (c.src a p).toNat)) t)

/-- CTZ (R168). -/
def execCtz (d a : BitVec 7) (s : State) : Host.Outcome State Fault Refusal :=
  groupInstr (.ctz d a) s fun c t => .ok (c.put (latency (.ctz d a)) d (fun p => BitVec.ofNat 32 (trailingZeros 32 (c.src a p).toNat)) t)

/-- BREV (R168). -/
def execBrev (d a : BitVec 7) (s : State) : Host.Outcome State Fault Refusal :=
  groupInstr (.brev d a) s fun c t => .ok (c.put (latency (.brev d a)) d (fun p => bitReverse (c.src a p)) t)

/-- FLDX.U (R169). -/
def execFldxU (d a b : BitVec 7) (s : State) : Host.Outcome State Fault Refusal :=
  groupInstr (.fldxU d a b) s fun c t => .ok (c.put (latency (.fldxU d a b)) d (fun p => fieldU (c.src a p) (c.src b p)) t)

/-- FLDX.S (R169). -/
def execFldxS (d a b : BitVec 7) (s : State) : Host.Outcome State Fault Refusal :=
  groupInstr (.fldxS d a b) s fun c t => .ok (c.put (latency (.fldxS d a b)) d (fun p => fieldS (c.src a p) (c.src b p)) t)

/-- FLDI: the base is SRC3 where it is bound, else the old value of d (R169). -/
def execFldi (d a b : BitVec 7) (s : State) : Host.Outcome State Fault Refusal :=
  groupInstr (.fldi d a b) s fun c t => .ok (c.put (latency (.fldi d a b)) d (fun p => fieldInsert (c.src (c.thirdOr d p) p) (c.src a p) (c.src b p)) t)

/-- BYSEL (R169). -/
def execBysel (d a b : BitVec 7) (s : State) : Host.Outcome State Fault Refusal :=
  groupInstr (.bysel d a b) s fun c t => .ok (c.put (latency (.bysel d a b)) d (fun p => byteSelect (c.src a p) (c.src b p)) t)

/-- MUL (R170). -/
def execMul (d a b : BitVec 7) (s : State) : Host.Outcome State Fault Refusal :=
  groupInstr (.mul d a b) s fun c t => .ok (c.put (latency (.mul d a b)) d (fun p => (c.src a p) * (c.src b p)) t)

/-- MULHI.S (R170). -/
def execMulhiS (d a b : BitVec 7) (s : State) : Host.Outcome State Fault Refusal :=
  groupInstr (.mulhiS d a b) s fun c t => .ok (c.put (latency (.mulhiS d a b)) d (fun p => mulHighS (c.src a p) (c.src b p)) t)

/-- MULHI.U (R170). -/
def execMulhiU (d a b : BitVec 7) (s : State) : Host.Outcome State Fault Refusal :=
  groupInstr (.mulhiU d a b) s fun c t => .ok (c.put (latency (.mulhiU d a b)) d (fun p => mulHighU (c.src a p) (c.src b p)) t)

/-- MULW.S: the full signed product (R170). -/
def execMulwS (d a b : BitVec 7) (s : State) : Host.Outcome State Fault Refusal :=
  groupInstr (.mulwS d a b) s fun c t => .ok (c.put64 (latency (.mulwS d a b)) d (fun p => (c.src a p).signExtend 64 * (c.src b p).signExtend 64) t)

/-- MULW.U: the full unsigned product (R170). -/
def execMulwU (d a b : BitVec 7) (s : State) : Host.Outcome State Fault Refusal :=
  groupInstr (.mulwU d a b) s fun c t => .ok (c.put64 (latency (.mulwU d a b)) d (fun p => (c.src a p).setWidth 64 * (c.src b p).setWidth 64) t)

/-- MAD: the addend is SRC3 where it is bound, else the old value of d (R170). -/
def execMad (d a b : BitVec 7) (s : State) : Host.Outcome State Fault Refusal :=
  groupInstr (.mad d a b) s fun c t => .ok (c.put (latency (.mad d a b)) d (fun p => c.src a p * c.src b p + c.src (c.thirdOr d p) p) t)

/-- MUL.64 (R170). -/
def execMul64 (d a b : BitVec 7) (s : State) : Host.Outcome State Fault Refusal :=
  groupInstr (.mul64 d a b) s fun c t => .ok (c.put64 (latency (.mul64 d a b)) d (fun p => (c.src64 a p) * (c.src64 b p)) t)

/-- MULHI.64.S (R170). -/
def execMulhi64S (d a b : BitVec 7) (s : State) : Host.Outcome State Fault Refusal :=
  groupInstr (.mulhi64S d a b) s fun c t => .ok (c.put64 (latency (.mulhi64S d a b)) d (fun p => mulHighS (c.src64 a p) (c.src64 b p)) t)

/-- MULHI.64.U (R170). -/
def execMulhi64U (d a b : BitVec 7) (s : State) : Host.Outcome State Fault Refusal :=
  groupInstr (.mulhi64U d a b) s fun c t => .ok (c.put64 (latency (.mulhi64U d a b)) d (fun p => mulHighU (c.src64 a p) (c.src64 b p)) t)

/-- DIV.S (R171, Table 7.4). -/
def execDivS (d a b : BitVec 7) (s : State) : Host.Outcome State Fault Refusal :=
  groupInstr (.divS d a b) s fun c t => .ok (c.put (latency (.divS d a b)) d (fun p => divS (c.src a p) (c.src b p)) t)

/-- DIV.U (R171, Table 7.4). -/
def execDivU (d a b : BitVec 7) (s : State) : Host.Outcome State Fault Refusal :=
  groupInstr (.divU d a b) s fun c t => .ok (c.put (latency (.divU d a b)) d (fun p => divU (c.src a p) (c.src b p)) t)

/-- REM.S (R171, Table 7.4). -/
def execRemS (d a b : BitVec 7) (s : State) : Host.Outcome State Fault Refusal :=
  groupInstr (.remS d a b) s fun c t => .ok (c.put (latency (.remS d a b)) d (fun p => remS (c.src a p) (c.src b p)) t)

/-- REM.U (R171, Table 7.4). -/
def execRemU (d a b : BitVec 7) (s : State) : Host.Outcome State Fault Refusal :=
  groupInstr (.remU d a b) s fun c t => .ok (c.put (latency (.remU d a b)) d (fun p => remU (c.src a p) (c.src b p)) t)

/-- DIV.64.S (R171, Table 7.4). -/
def execDiv64S (d a b : BitVec 7) (s : State) : Host.Outcome State Fault Refusal :=
  groupInstr (.div64S d a b) s fun c t => .ok (c.put64 (latency (.div64S d a b)) d (fun p => divS (c.src64 a p) (c.src64 b p)) t)

/-- DIV.64.U (R171, Table 7.4). -/
def execDiv64U (d a b : BitVec 7) (s : State) : Host.Outcome State Fault Refusal :=
  groupInstr (.div64U d a b) s fun c t => .ok (c.put64 (latency (.div64U d a b)) d (fun p => divU (c.src64 a p) (c.src64 b p)) t)

/-- REM.64.S (R171, Table 7.4). -/
def execRem64S (d a b : BitVec 7) (s : State) : Host.Outcome State Fault Refusal :=
  groupInstr (.rem64S d a b) s fun c t => .ok (c.put64 (latency (.rem64S d a b)) d (fun p => remS (c.src64 a p) (c.src64 b p)) t)

/-- REM.64.U (R171, Table 7.4). -/
def execRem64U (d a b : BitVec 7) (s : State) : Host.Outcome State Fault Refusal :=
  groupInstr (.rem64U d a b) s fun c t => .ok (c.put64 (latency (.rem64U d a b)) d (fun p => remU (c.src64 a p) (c.src64 b p)) t)

/-- ICMP (R172): fn[4:3] gives the type, fn[2:0] the relation. -/
def execIcmp (ty : BitVec 2) (r p : BitVec 3) (a b : BitVec 7) (s : State) : Host.Outcome State Fault Refusal :=
  groupInstr (.icmp ty r p a b) s fun c t => .ok (c.putPred (latency (.icmp ty r p a b)) p (fun q =>
      if ty.getLsbD 1 then intRel (ty.getLsbD 0) r (c.src64 a q) (c.src64 b q)
      else intRel (ty.getLsbD 0) r (c.src a q) (c.src b q)) t)

/-- LEA (R167). -/
def execLea (k : BitVec 5) (d a b : BitVec 7) (s : State) : Host.Outcome State Fault Refusal :=
  groupInstr (.lea k d a b) s fun c t => .ok (c.put64 (latency (.lea k d a b)) d (fun p => c.src64 a p + leaOffset k (c.src b p)) t)

/-- PAND (R173). -/
def execPand (d : BitVec 3) (n : BitVec 1) (a : BitVec 3) (m : BitVec 1) (b : BitVec 3) (s : State) : Host.Outcome State Fault Refusal :=
  groupInstr (.pand d n a m b) s fun c t => .ok (c.putPred (latency (.pand d n a m b)) d (fun p => (c.pred n a p) && (c.pred m b p)) t)

/-- POR (R173). -/
def execPor (d : BitVec 3) (n : BitVec 1) (a : BitVec 3) (m : BitVec 1) (b : BitVec 3) (s : State) : Host.Outcome State Fault Refusal :=
  groupInstr (.por d n a m b) s fun c t => .ok (c.putPred (latency (.por d n a m b)) d (fun p => (c.pred n a p) || (c.pred m b p)) t)

/-- PXOR (R173). -/
def execPxor (d : BitVec 3) (n : BitVec 1) (a : BitVec 3) (m : BitVec 1) (b : BitVec 3) (s : State) : Host.Outcome State Fault Refusal :=
  groupInstr (.pxor d n a m b) s fun c t => .ok (c.putPred (latency (.pxor d n a m b)) d (fun p => (c.pred n a p) != (c.pred m b p)) t)

/-- PMOV (R173). -/
def execPmov (d : BitVec 3) (n : BitVec 1) (a : BitVec 3) (s : State) : Host.Outcome State Fault Refusal :=
  groupInstr (.pmov d n a) s fun c t => .ok (c.putPred (latency (.pmov d n a)) d (fun p => c.pred n a p) t)

/-- PTOV (R173). -/
def execPtov (d : BitVec 7) (n : BitVec 1) (a : BitVec 3) (s : State) : Host.Outcome State Fault Refusal :=
  groupInstr (.ptov d n a) s fun c t => .ok (c.put (latency (.ptov d n a)) d (fun p => if c.pred n a p then 1 else 0) t)

/-- VTOP (R173). -/
def execVtop (d : BitVec 3) (a : BitVec 7) (s : State) : Host.Outcome State Fault Refusal :=
  groupInstr (.vtop d a) s fun c t => .ok (c.putPred (latency (.vtop d a)) d (fun p => c.src a p != 0) t)

end Sys2Proof.Machine
end

