-- ==== Sys2Proof/Machine/Lanes.lean ====
section
/-! DEFINITION. Lane exchanges and combinations, member operations, REGROUP, roles and register budgets:
majors 0x11 to 0x13 (R141 to R144, R174 to R180). -/

namespace Sys2Proof.Machine

/-! ## Lane exchanges (R174) -/

/-- An exchange: register a of the source lane that `src` gives, or the pair's own where that lane is out of
range or not live in the member context. -/
def Issue.exchange (c : Issue) (j : Instr) (d a b : BitVec 7) (src : Nat → Word → Option Nat) (s : State) : Res :=
  .ok (c.put (latency j) d (fun p =>
    match src p.2 (c.src b p) with
    | some l => if c.live.contains (p.1, l) then c.src a (p.1, l) else c.src a p
    | none => c.src a p) s)

/-- LXG.SEL (R174). -/
def execLxgSel (d a b : BitVec 7) (s : State) : Host.Outcome State Fault Refusal :=
  gangWide (.lxgSel d a b) cGangUnreachable s fun c t =>
    c.exchange (.lxgSel d a b) d a b (fun _ v => some (v.toNat % 32)) t

/-- LXG.BELOW (R174). -/
def execLxgBelow (d a b : BitVec 7) (s : State) : Host.Outcome State Fault Refusal :=
  gangWide (.lxgBelow d a b) cGangUnreachable s fun c t =>
    c.exchange (.lxgBelow d a b) d a b (fun l v => if v.toNat ≤ l then some (l - v.toNat) else none) t

/-- LXG.ABOVE (R174). -/
def execLxgAbove (d a b : BitVec 7) (s : State) : Host.Outcome State Fault Refusal :=
  gangWide (.lxgAbove d a b) cGangUnreachable s fun c t =>
    c.exchange (.lxgAbove d a b) d a b (fun l v => if l + v.toNat ≤ 31 then some (l + v.toNat) else none) t

/-- LXG.FLIP (R174). -/
def execLxgFlip (d a b : BitVec 7) (s : State) : Host.Outcome State Fault Refusal :=
  gangWide (.lxgFlip d a b) cGangUnreachable s fun c t =>
    c.exchange (.lxgFlip d a b) d a b (fun l v => some (l ^^^ (v.toNat % 32))) t

/-! ## Combinations of the live lanes of a member context (R175) -/

/-- The contributors of a pair: the live pairs of its member context. -/
def Issue.peers (c : Issue) (p : Nat × Nat) : List (Nat × Nat) := c.live.filter fun q => decide (q.1 = p.1)

/-- LTEST.ALL (R175). -/
def execLtestAll (d : BitVec 3) (n : BitVec 1) (a : BitVec 3) (s : State) : Host.Outcome State Fault Refusal :=
  gangWide (.ltestAll d n a) cGangUnreachable s fun c t =>
    .ok (c.putPred (latency (.ltestAll d n a)) d (fun p => (c.peers p).all fun q => c.pred n a q) t)

/-- LTEST.ANY (R175). -/
def execLtestAny (d : BitVec 3) (n : BitVec 1) (a : BitVec 3) (s : State) : Host.Outcome State Fault Refusal :=
  gangWide (.ltestAny d n a) cGangUnreachable s fun c t =>
    .ok (c.putPred (latency (.ltestAny d n a)) d (fun p => (c.peers p).any fun q => c.pred n a q) t)

/-- LTEST.SAME (R175). -/
def execLtestSame (d : BitVec 3) (n : BitVec 1) (a : BitVec 3) (s : State) : Host.Outcome State Fault Refusal :=
  gangWide (.ltestSame d n a) cGangUnreachable s fun c t =>
    .ok (c.putPred (latency (.ltestSame d n a)) d (fun p => (c.peers p).all fun q => c.pred n a q == c.pred n a p) t)

/-- PGATH (R175). -/
def execPgath (d : BitVec 7) (n : BitVec 1) (a : BitVec 3) (s : State) : Host.Outcome State Fault Refusal :=
  gangWide (.pgath d n a) cGangUnreachable s fun c t =>
    .ok (c.put (latency (.pgath d n a)) d
      (fun p => maskOf 32 (((c.peers p).filter fun q => c.pred n a q).map fun q => q.2)) t)

/-- LEQM (R175). -/
def execLeqm (d a : BitVec 7) (s : State) : Host.Outcome State Fault Refusal :=
  gangWide (.leqm d a) cGangUnreachable s fun c t =>
    .ok (c.put (latency (.leqm d a)) d
      (fun p => maskOf 32 (((c.peers p).filter fun q => c.src a q == c.src a p).map fun q => q.2)) t)

/-- LFOLD.ADD (R175). -/
def execLfoldAdd (d a : BitVec 7) (s : State) : Host.Outcome State Fault Refusal :=
  gangWide (.lfoldAdd d a) cGangUnreachable s fun c t =>
    .ok (c.put (latency (.lfoldAdd d a)) d (fun p => (c.peers p).foldl (fun v q => v + c.src a q) 0) t)

/-- LFOLD.MIN.S and LFOLD.MIN.U (R175). -/
def execLfoldMin (u : BitVec 1) (d a : BitVec 7) (s : State) : Host.Outcome State Fault Refusal :=
  gangWide (.lfoldMin u d a) cGangUnreachable s fun c t =>
    .ok (c.put (latency (.lfoldMin u d a)) d (fun p => (c.peers p).foldl (fun v q => minBy (u == 1) v (c.src a q)) (c.src a p)) t)

/-- LFOLD.MAX.S and LFOLD.MAX.U (R175). -/
def execLfoldMax (u : BitVec 1) (d a : BitVec 7) (s : State) : Host.Outcome State Fault Refusal :=
  gangWide (.lfoldMax u d a) cGangUnreachable s fun c t =>
    .ok (c.put (latency (.lfoldMax u d a)) d (fun p => (c.peers p).foldl (fun v q => maxBy (u == 1) v (c.src a q)) (c.src a p)) t)

/-! ## Member operations (R176, R177) -/

/-- MMASKR (R176). -/
def execMmaskr (d : BitVec 7) (s : State) : Host.Outcome State Fault Refusal :=
  groupInstr (.mmaskr d) s fun c t => .ok (c.put (latency (.mmaskr d)) d (fun _ => (slotMask c.live).setWidth 32) t)

/-- The topmost region entry of a slice's stack. -/
def topRegion (gr : Grid) (t : Team) (g : Group) (sl : Nat) : Option StackEntry :=
  (stackAll gr t g sl).find? fun x => !x.deferred

/-- MMASKW (R176): the removed pairs of each slice are deferred to the JOIN of its topmost region. -/
def execMmaskw (a : BitVec 7) (s : State) : Host.Outcome State Fault Refusal :=
  groupInstr (.mmaskw a) s fun c t =>
    let removed (sl : Nat) := sliceMask (c.live.filter fun p => !(c.src a p).getLsbD p.1) sl
    if c.live.isEmpty then .ok t
    else if c.slices.any fun sl => (topRegion c.grid c.team c.group sl).isNone then .trap { code := cRstackFault }
    else if !c.room (fun sl => if removed sl = 0 then 0 else 1) then .trap { code := cRstackOvf }
    else
      let one (sl : Nat) (o : Option Team) : Option Team := o.bind fun tm =>
        let stay := tm.updGroup c.gid fun g => g.updSlice sl (Slice.advance c.step)
        if removed sl = 0 then some stay
        else match topRegion c.grid c.team c.group sl with
          | none => some stay
          | some r =>
            unwind c.grid c.gid sl c.step ((c.group.slice sl).depth + 1)
              ((pushEntry c.grid c.gid sl { mask := removed sl, deferred := true, addr := r.addr } stay).updGroup c.gid fun g =>
                g.updSlice sl fun x => { x with active := x.active &&& ~~~ removed sl })
      match c.slices.foldl (fun o sl => one sl o) (some c.team) with
      | none => .trap { code := cRstackFault }
      | some tm => .placed (t.updTeam c.uid fun _ => formGangs c.grid c.gid c.slices tm)

/-- The pairs of a lane that are live, over the member slots. -/
def Issue.column (c : Issue) (l : Nat) : List (Nat × Nat) := c.live.filter fun q => decide (q.2 = l)

/-- MTEST.ALL (R177). -/
def execMtestAll (d : BitVec 3) (n : BitVec 1) (a : BitVec 3) (s : State) : Host.Outcome State Fault Refusal :=
  gangWide (.mtestAll d n a) cGangUnreachable s fun c t =>
    .ok (c.putPred (latency (.mtestAll d n a)) d (fun p => (c.column p.2).all fun q => c.pred n a q) t)

/-- MTEST.ANY (R177). -/
def execMtestAny (d : BitVec 3) (n : BitVec 1) (a : BitVec 3) (s : State) : Host.Outcome State Fault Refusal :=
  gangWide (.mtestAny d n a) cGangUnreachable s fun c t =>
    .ok (c.putPred (latency (.mtestAny d n a)) d (fun p => (c.column p.2).any fun q => c.pred n a q) t)

/-- MPICK (R177): slot b[3:0] of the lane, and d keeps its own a when b ≥ E. -/
def execMpick (d a b : BitVec 7) (s : State) : Host.Outcome State Fault Refusal :=
  gangWide (.mpick d a b) cGangUnreachable s fun c t =>
    .ok (c.put (latency (.mpick d a b)) d (fun p =>
      let q := ((c.src b p).toNat, p.2)
      if q.1 < c.group.e ∧ c.live.contains q then c.src a q else c.src a p) t)

/-! ## REGROUP (R141 to R143, R178) -/

/-- The member slot of a member-private cell. -/
def Loc.slot? (r : Loc) : Option Nat :=
  match r with
  | .v _ e _ | .s _ e | .p _ e _ | .fpm e => some e
  | .k _ _ | .q _ => none

/-- A member-private cell in another slot. -/
def Loc.inSlot (e : Nat) (r : Loc) : Loc :=
  match r with
  | .v n _ l => .v n e l
  | .s n _ => .s n e
  | .p n _ l => .p n e l
  | .fpm _ => .fpm e
  | r => r

/-- A mask made of columns: slot k takes column `(src k).2` of the mask of group `(src k).1`. -/
def moveColumns (e : Nat) (src : Nat → Nat × Nat) (mask : Nat → BitVec 64) : BitVec 64 :=
  (List.range e).foldl (fun m k =>
    m ||| BitVec.ofNat 64 ((((mask (src k).1).toNat / 2 ^ (4 * (src k).2)) % 16) * 2 ^ (4 * k))) 0

/-- A group whose member slots receive the contexts `src` names, from the groups of the set. -/
def Group.receive (set : List Group) (src : Nat → Nat × Nat) (g : Group) : Group :=
  let from_ (k : Nat) : Group := nth set k g
  let slice (sl : Nat) (x : Slice) : Slice :=
    { x with
      active := moveColumns g.e src fun k => ((from_ k).slice sl).active
      exited := moveColumns g.e src fun k => ((from_ k).slice sl).exited
      stack := x.stack.mapIdx fun i y => { y with mask := moveColumns g.e src fun k => (nth ((from_ k).slice sl).stack i y).mask } }
  { g with
    regs := (g.regs.filter fun r => r.1.slot?.isNone) ++ (List.range g.e).flatMap fun k =>
      ((from_ (src k).1).regs.filter fun r => decide (r.1.slot? = some (src k).2)).map fun r => (r.1.inSlot k, r.2)
    members := (List.range g.e).map fun k => (k, (from_ (src k).1).memberId (src k).2)
    xbind := (List.range (4 * g.e)).filterMap fun i =>
      (mapGet (from_ (src (i / 4)).1).xbind (4 * (src (i / 4)).2 + i % 4)).map fun v => (i, v)
    slices := g.slices.mapIdx slice
    resv := [] }

/-- The spilled stack entries of a group's slices with their mask columns moved. -/
def receiveSpill (gr : Grid) (t : Team) (set : List Group) (src : Nat → Nat × Nat) (g : Group) (hawk : List Host.Cell) : List Host.Cell :=
  (List.range 8).foldl (fun h sl => (List.range (g.slice sl).spilled).foldl (fun h n =>
    let raw (b : Group) : BitVec 128 := BitVec.ofNat 128 (natOfBytes (bytesAt t.hawk (spillOff gr b sl n) 16))
    let mask := moveColumns g.e src fun k => (raw (nth set k g)).extractLsb' 64 64
    bytesSet h (spillOff gr g sl n) (bytesOfNat 16 (mask ++ (raw g).extractLsb' 0 64).toNat)) h) hawk

/-- A slice after REGROUP: pairs that came to a finished slice make it run at the next word. -/
def Slice.revive (pc : VAddr) (st : Nat) (x : Slice) : Slice :=
  if x.finished ∧ x.active ≠ 0 then { x with wait := .ready, pc := pc, step := st } else x

/-- The rank of every member context of a sibling set (R142). -/
def regroupRanks (a : BitVec 7) (issues : List Issue) : List Nat :=
  issues.flatMap fun k => (List.range k.group.e).map fun e =>
    if k.slots.contains e then (k.memberValue a e).toNat % 4 else 4

/-- The slices of an issue's group that have not finished. -/
def Issue.running (k : Issue) (t : Team) : List Nat :=
  match t.group? k.gid with
  | some g => (List.range g.slices.length).filter fun sl => !(g.slice sl).finished
  | none => []

/-- The regroup unit's one step (R142). A slice it leaves with no live pair goes on to its next JOIN or EXIT,
for only an exit unwinds (R133; log 80). -/
def regroupAct (a : BitVec 7) (issues : List Issue) (s : State) : State :=
  match issues with
  | [] => s
  | k0 :: _ =>
    let ranks := regroupRanks a issues
    let order := stableSort (fun (x y : Nat) => decide (nth ranks x 0 < nth ranks y 0)) (List.range ranks.length)
    let e := k0.group.e
    let source (sib slot : Nat) : Nat × Nat := let n := nth order (sib * e + slot) 0; (n / e, n % e)
    s.updTeam k0.uid fun t0 =>
      -- every sibling past the word, then the contexts move
      let t1 := issues.foldl (fun t k => t.updGroup k.gid fun g =>
        ((g.drain 0xFF).updSlices k.slices (Slice.resume k.step))) t0
      let set := issues.filterMap fun k => t1.group? k.gid
      let hawk := (set.zipIdx).foldl (fun h p => receiveSpill k0.grid t1 set (source p.2) p.1 h) t1.hawk
      let t2 := (issues.zipIdx).foldl (fun t p => t.updGroup p.1.gid fun g =>
        let g1 := g.receive set (source p.2)
        { g1 with slices := g1.slices.map (Slice.revive (k0.pc + 4) (p.1.step + 1)) }) { t1 with hawk := hawk }
      issues.foldl (fun t k => formGangs k.grid k.gid (k.running t) t) t2

/-- REGROUP (R141, R142, R178). -/
def execRegroup (a : BitVec 7) (s : State) : Host.Outcome State Fault Refusal :=
  siblingWide (.regroup a) true s fun issues t => regroupAct a issues t

/-! ## Roles and register budgets (R144, R179, R180) -/

/-- ROLE (R179). -/
def execRole (a : BitVec 7) (s : State) : Host.Outcome State Fault Refusal :=
  groupInstr (.role a) s fun c t =>
    let r := c.groupValue a
    let waits := c.group.slices.any fun x => match x.wait with
      | .barrier b _ _ => decide (b = c.grid.ctl 4 4)
      | _ => false
    if c.live.isEmpty then .ok t
    else if 2 < r.toNat ∨ 1 < (siblingsOf c.team c.grid c.group).length ∨ (c.grid.ctl 3 1 = 1 ∧ waits) then
      .trap { code := cRoleFault }
    else .ok (t.updGroup c.uid c.gid fun g => { g with role := r, reassigned := false })

/-- A role pool changed. -/
def Team.updPool (t : Team) (r : Nat) (f : Nat → Nat) : Team := { t with pools := t.pools.mapIdx fun k v => if k = r then f v else v }

/-- REGS.GIVE (R180). -/
def execRegsGive (a b : BitVec 7) (s : State) : Host.Outcome State Fault Refusal :=
  groupInstr (.regsGive a b) s fun c t =>
    let n := (c.groupValue a).toNat
    let r := (c.groupValue b).toNat
    if c.live.isEmpty then .ok t
    else if 2 < r then .trap { code := cRoleFault }
    else if n % 8 ≠ 0 ∨ n < 8 ∨ c.group.regbud < n + 8 then .trap { code := cRegBudget }
    else .ok ((t.updGroup c.uid c.gid fun g => { g with regbud := g.regbud - n }).updTeam c.uid fun tm => tm.updPool r (· + n / 8))

/-- The waiting places of the REGS.CLAIMs of one role in a team. -/
def Team.claims (t : Team) (role : Word) : List WaitKey :=
  t.groups.flatMap fun g => if g.role = role ∧ !g.ended then
      g.slices.filterMap fun x => match x.wait with
        | .blocked (.regsClaim _) since order => some (since, g.gid, order)
        | _ => none
    else []

/-- A claim that has not waited, in the clock that has already served one of a higher GROUPID. -/
def Issue.claimsLate (c : Issue) (s : State) : Bool :=
  match (c.group.slice (c.slices.headD 0)).wait, mapGet c.team.lastClaims c.group.role.toNat with
  | .blocked _ _ _, _ | _, none => false
  | _, some (clk, gid) => decide (clk = s.clk) && decide (c.gid < gid)

/-- REGS.CLAIM (R180): it waits until it heads its role's claims and the pool covers it. Claims of one clock are
served in ascending GROUPID, so a claim that issues in the clock of one already served, from a group of lower
GROUPID, does not issue in that clock. -/
def execRegsClaim (a : BitVec 7) (s : State) : Host.Outcome State Fault Refusal :=
  groupInstr (.regsClaim a) s fun c t =>
    let n := (c.groupValue a).toNat
    let role := c.group.role.toNat
    if c.live.isEmpty then .ok t
    else if n % 8 ≠ 0 ∨ n < 8 ∨ 96 < c.group.regbud + n then .trap { code := cRegBudget }
    else if (c.team.claims c.group.role).any (fun k => WaitKey.before k (c.waitKey t)) ∨ nth c.team.pools role 0 < n / 8 then .hold 0 t
    else if c.claimsLate t then .again
    else
      let lo := c.group.regbud
      let fresh (r : Loc × Word) : Bool := match r.1 with
        | .v k _ _ => !(decide (lo ≤ k) && decide (k < lo + n))
        | _ => true
      .ok ((t.updGroup c.uid c.gid fun g =>
          { g with regbud := lo + n, regs := g.regs.filter fresh, pend := g.pend.filter fun w => fresh (w.loc, 0) }).updTeam c.uid
        fun tm => { tm.updPool role (· - n / 8) with lastClaims := mapSet tm.lastClaims role (t.clk, c.gid) })

end Sys2Proof.Machine
end

