-- ==== Sys2Proof/Machine/Crew.lean ====
section
/-! DEFINITION. The waits of groups and what ends them: the fill of a .WF access (R212), a claim's grant (R180), an entry of
the vertical FIFO (R254), and the waits that have lasted FEWAIT clocks (R96, R180, R213, R229, R251, R253); the launch of
spawn bins (R97) and role reassignment (R145). -/

namespace Sys2Proof.Machine

/-! ## Waits that end -/

/-- FEWAIT of a record (Table 3.3). -/
def Grid.fewait (g : Grid) : Nat := g.field 0x14 4

/-- Whether a gang may end its wait now: a team that ends finishes its MACROs alone (R370), and another gang's MACRO comes
first (R121). -/
def Issue.mayEnd (c : Issue) : Bool := c.mac.isSome || (c.team.ending.isNone && c.group.mac.isEmpty)

/-- The instruction that a gang waits to issue, with its issue and the clock its wait began. A group whose held cause is due
takes that first (R367). -/
def gangWait (s : State) (uid gid k : Nat) : Option (Instr × Issue × Nat) :=
  if causeDue s uid gid then none
  else match blockedGang s uid gid k with
    | some (j, c, key) => if c.mayEnd then some (j, c, key.1) else none
    | none => none

/-- The same for the gang that an event is about. -/
def waitOf (s : State) : Option (Instr × Issue × Nat) :=
  match s.arg with
  | .gang uid gid k => gangWait s uid gid k
  | _ => none

/-- The gang that a fill releases, if an event is about it: one that waits for its granules, whatever else its group has to
do, for each fill releases one (R212). -/
def wfWaiter (s : State) (uid gid k : Nat) : Option (Instr × Issue × WfNeed) :=
  match blockedGang s uid gid k with
  | some (j, c, _) =>
    if c.wfWaits j ∧ (c.mac.isSome ∨ c.team.ending.isNone) then
      match c.wfNeed j with
      | some n => if c.wfGo n s then some (j, c, n) else none
      | none => none
    else none
  | none => none

/-- The state in which a waiting gang issues. -/
def issuing (c : Issue) (s : State) : State := { s with issuer := .gang c.uid c.gid c.gang }

/-- WF_RELEASE (R212): with every granule full and no earlier .CLR waiter, the access proceeds in one step. -/
def execWfRelease (s : State) : Host.Outcome State Fault Refusal :=
  match s.arg with
  | .gang uid gid k => match wfWaiter s uid gid k with
    | some (j, c, _) => match j with
      | .ldhWfKeep f d b o => execLdhWfKeep f d b o (issuing c s)
      | .ldhWfClr f d b o => execLdhWfClr f d b o (issuing c s)
      | .ldhbMx8 d a q => execLdhbMx8 d a q (issuing c s)
      | .ldhbMx4 d a q => execLdhbMx4 d a q (issuing c s)
      | .ldhbTb4 d a q => execLdhbTb4 d a q (issuing c s)
      | _ => .next s
    | none => .next s
  | _ => .next s

/-- REGS_CLAIM_GRANT (R180): the claim at the head of its role's queue is served once the pool covers it. -/
def execRegsClaimGrant (s : State) : Host.Outcome State Fault Refusal :=
  match waitOf s with
  | some (.regsClaim a, c, _) => execRegsClaim a (issuing c s)
  | _ => .next s

/-- VFIFO_WAIT_END (R254): a VSEND appends its entries once they are free, a VRECV takes its entries once present. -/
def execVfifoWaitEnd (s : State) : Host.Outcome State Fault Refusal :=
  match waitOf s with
  | some (.vsend a, c, _) => execVsend a (issuing c s)
  | some (.vrecv d, c, _) => execVrecv d (issuing c s)
  | _ => .next s

/-! ## Waits that have lasted FEWAIT clocks -/

/-- The partner of an issuing core is online (R229, R254). -/
def Issue.partnerOn (c : Issue) (s : State) : Bool := coreOnline s (partner c.team.core)

/-- A limit of patience: the clocks beyond FEWAIT, the event that ends the wait, and the cause it raises. -/
structure Patience where
  more : Nat
  event : Instr
  code : Code
  deriving DecidableEq, Repr

/-- The limit of a waiting instruction: a claim's wait has to be longer than FEWAIT (R180), and a .WF access has none while
its column is frozen (R213). -/
def patience (s : State) (j : Instr) (c : Issue) : Option Patience :=
  match j with
  | .regsClaim _ => some ⟨1, .regsTimeout, cRegsTimeout⟩
  | .vsend _ => some (if c.partnerOn s then ⟨0, .feTimeout, cFeTimeout⟩ else ⟨0, .vfifoGated, cVfifoGated⟩)
  | .vrecv _ => some ⟨0, .feTimeout, cFeTimeout⟩
  | .spawn _ _ => some ⟨0, .spawnStall, cSpawnStall⟩
  | .hod _ _ | .hodChain _ => some ⟨0, .hodBusy, cHodBusy⟩
  | .bead _ _ => some ⟨0, .beadBusy, cBeadBusy⟩
  | _ => match c.wfNeed j with
    | some n => if c.wfWaits j ∧ !frozenAt s c.team.core (n.cells.map Int.ofNat) then some ⟨0, .feTimeout, cFeTimeout⟩ else none
    | none => none

/-- What a gang's wait raises once it has lasted FEWAIT clocks; FEWAIT 0 waits without limit. -/
def overdue (s : State) (uid gid k : Nat) : Option (Patience × Issue) :=
  match gangWait s uid gid k with
  | some (j, c, since) => match patience s j c with
    | some p => if c.grid.fewait ≠ 0 ∧ since + c.grid.fewait + p.more ≤ s.clk then some (p, c) else none
    | none => none
  | none => none

/-- The same, where no gang of a lower SLICEID of the group has a cause due at the same boundary (R366). -/
def firstOverdue (s : State) (uid gid k : Nat) : Option (Patience × Issue) :=
  if (List.range k).any fun i => (overdue s uid gid i).isSome then none else overdue s uid gid k

/-- A wait that has lasted too long, of the kind an event ends, traps: nothing of its instruction has taken effect, tasks of a
SPAWN that have entered apart (R184). -/
def timeout (s : State) (event : Instr) : State :=
  match s.arg with
  | .gang uid gid k => match firstOverdue s uid gid k with
    | some (p, c) => if p.event = event then c.trapWith { code := p.code } s else s
    | none => s
  | _ => s

/-- FE_TIMEOUT (R213, R254). -/
def execFeTimeout (s : State) : Host.Outcome State Fault Refusal := .next (timeout s .feTimeout)

/-- VFIFO_GATED (R229, R254). -/
def execVfifoGated (s : State) : Host.Outcome State Fault Refusal := .next (timeout s .vfifoGated)

/-- SPAWN_STALL (R96). -/
def execSpawnStall (s : State) : Host.Outcome State Fault Refusal := .next (timeout s .spawnStall)

/-- REGS_TIMEOUT (R180): a claim that has waited longer than FEWAIT clocks. -/
def execRegsTimeout (s : State) : Host.Outcome State Fault Refusal := .next (timeout s .regsTimeout)

/-- HOD_BUSY (R251, R252). -/
def execHodBusy (s : State) : Host.Outcome State Fault Refusal := .next (timeout s .hodBusy)

/-- BEAD_BUSY (R253). -/
def execBeadBusy (s : State) : Host.Outcome State Fault Refusal := .next (timeout s .beadBusy)

/-! ## Spawn bins (R97) -/

/-- TIMEOUT of SPAWNCTL; 0 means 65,536 (Table 4.13). -/
def spawnWait (s : State) : Nat := if s.lath.spawnTimeout = 0 then 65536 else s.lath.spawnTimeout.toNat

/-- Whether a bin is due to launch: it holds 32 tasks, or its first task entered TIMEOUT clocks ago. -/
def binDue (s : State) (b : Bin) : Bool := decide (32 ≤ b.tasks.length) || decide (b.first + spawnWait s ≤ s.clk)

/-- Whether a team has room for a spawned group with a budget: 32 groups, the core's slots and its registers. -/
def spawnRoom (s : State) (t : Team) (vbud : Nat) : Bool :=
  t.ending.isNone && decide (t.groupCount < 32) && decide (usedOn s t.core Need.slots + 1 ≤ 64) &&
    decide (usedOn s t.core Need.foot + groupFoot vbud 1 ≤ 0x800000)

/-- The lowest number above a team's existing GROUPIDs. -/
def Team.nextGid (t : Team) : Nat := t.groups.foldl (fun m g => max m (g.gid + 1)) 0

/-- A slice of a spawned group of `n` tasks: its lanes with a task are live, the others are not. -/
def spawnSlice (entry : VAddr) (n sl : Nat) : Slice :=
  let act : BitVec 64 := maskOf 64 ((List.range 4).filter fun i => decide (4 * sl + i < n))
  { pc := entry, active := act, exited := allPairs 1 &&& ~~~act, wait := if act = 0 then .finished else .ready }

/-- The group that a bin launches: E = 1, MEMBERID 0, role computer, each lane's argument in v0:v1. -/
def spawnGroup (gr : Grid) (gid vbud : Nat) (b : Bin) : Group :=
  { gid := gid, role := 1, regbud := vbud, vbud := vbud, sibling := 0, e := 1, spawned := true, members := [(0, 0)]
    regs := argRegs gr ++ ((b.tasks.zipIdx.flatMap fun x =>
      [(Loc.v 0 0 x.2, half x.1 0), (Loc.v 1 0 x.2, half x.1 1)]).filter fun r => decide (r.2 ≠ 0))
    slices := (List.range 8).map (spawnSlice b.entry b.tasks.length) }

/-- A bin's launch, where its team has room. -/
def launchBin (t : Team) (gr : Grid) (b : Bin) (s : State) : State :=
  let vbud := headerVbud s t.core gr b.entry.toNat
  if !spawnRoom s t vbud then s
  else
    (s.updTeam t.uid fun t => { t with groups := t.groups ++ [spawnGroup gr t.nextGid vbud b] }).updCore t.core fun k =>
      { k with bins := k.bins.filter fun x => decide (x ≠ b) }

/-- SPAWN_BIN_LAUNCH (R97): the argument names the core and the bin. -/
def execSpawnBinLaunch (s : State) : Host.Outcome State Fault Refusal :=
  .next <| match s.arg with
    | .two core k => match (s.core core).bins[k]? with
      | some b =>
        if !binDue s b then s
        else match s.team? b.team with
          | some t => match s.grid? t.grid with
            | some gr => launchBin t gr b s
            | none => s
          | none => s
      | none => s
    | _ => s

/-! ## Role reassignment (R145) -/

/-- Whether a group waits at BAR.WT on a barrier. -/
def Group.waitsWt (g : Group) (b : Nat) : Bool :=
  let at_ (x : Slice) : Bool := match x.wait with
    | .barrier k _ .wt => decide (k = b)
    | _ => false
  !g.ended && (g.slices.any at_) && g.slices.all fun x => x.finished || at_ x

/-- Whether a ring has been in a condition for RINGCLK clocks. -/
def ringFor (s : State) (gr : Grid) (since : Option Nat) : Bool :=
  match since with
  | some c => decide (c + gr.field 0x4C 4 ≤ s.clk)
  | none => false

/-- The group that changes role, with its new ROLEID and mark (Table 6.2); one that started as a loader or storer never
does. -/
def roleChange (s : State) (gr : Grid) (t : Team) : Option (Nat × Word × Bool) :=
  let b := gr.ctl 4 4
  let waiting (p : Group → Bool) : List Nat :=
    stableSort (fun a b => decide (a < b)) ((t.groups.filter fun g => p g && g.waitsWt b).map fun g => g.gid)
  let computers := (t.groups.filter fun g => !g.ended && decide (g.role = 1)).length
  match (waiting fun g => decide (g.role = 1) && decide (g.startRole = 1)).getLast?, (waiting fun g => g.reassigned).head? with
  | some g, none => if ringFor s gr t.ringLow ∧ 2 ≤ computers then some (g, 0, true) else none
  | none, some g => if ringFor s gr t.ringHigh then some (g, 1, false) else none
  | some g, some h =>
    if ringFor s gr t.ringLow ∧ 2 ≤ computers then some (g, 0, true)
    else if ringFor s gr t.ringHigh then some (h, 1, false) else none
  | none, none => none

/-- ROLE_REASSIGNMENT (R145): the counts of clocks start again. -/
def execRoleReassignment (s : State) : Host.Outcome State Fault Refusal :=
  .next <| match s.arg with
    | .one uid => match s.team? uid with
      | some t => match s.grid? t.grid with
        | some gr =>
          if gr.ctl 3 1 ≠ 1 ∨ t.ending.isSome then s
          else match roleChange s gr t with
            | some (gid, role, mark) => s.updTeam uid fun t =>
                { (t.updGroup gid fun g => { g with role := role, reassigned := mark }) with
                  ringLow := t.ringLow.map fun _ => s.clk, ringHigh := t.ringHigh.map fun _ => s.clk }
            | none => s
        | none => s
      | none => s
    | _ => s

end Sys2Proof.Machine
end

