-- ==== Sys2Proof/Machine/Dispatch.lean ====
section
/-! DEFINITION. The dispatch of an instruction or event to its meaning, one arm for each row of the opcode table. -/

namespace Sys2Proof.Machine

def exec (i : Instr) (s : State) : Host.Outcome State Fault Refusal :=
  match i with
  | .bra c o => Sys2Proof.Machine.execBra c o s
  | .call c o => Sys2Proof.Machine.execCall c o s
  | .rpush o => Sys2Proof.Machine.execRpush o s
  | .bri a => Sys2Proof.Machine.execBri a s
  | .calli d a => Sys2Proof.Machine.execCalli d a s
  | .ret a => Sys2Proof.Machine.execRet a s
  | .regang => Sys2Proof.Machine.execRegang s
  | .exit => Sys2Proof.Machine.execExit s
  | .brk => Sys2Proof.Machine.execBrk s
  | .nop => Sys2Proof.Machine.execNop s
  | .trap n => Sys2Proof.Machine.execTrap n s
  | .mfs d i₀ => Sys2Proof.Machine.execMfs d i₀ s
  | .mts a i₀ => Sys2Proof.Machine.execMts a i₀ s
  | .mstld a => Sys2Proof.Machine.execMstld a s
  | .hret => Sys2Proof.Machine.execHret s
  | .add w d a b => Sys2Proof.Machine.execAdd w d a b s
  | .sub w d a b => Sys2Proof.Machine.execSub w d a b s
  | .addsat w u d a b => Sys2Proof.Machine.execAddsat w u d a b s
  | .subsat w u d a b => Sys2Proof.Machine.execSubsat w u d a b s
  | .min w u d a b => Sys2Proof.Machine.execMin w u d a b s
  | .max w u d a b => Sys2Proof.Machine.execMax w u d a b s
  | .abs w d a => Sys2Proof.Machine.execAbs w d a s
  | .neg w d a => Sys2Proof.Machine.execNeg w d a s
  | .mov w d a => Sys2Proof.Machine.execMov w d a s
  | .addi d a i₀ => Sys2Proof.Machine.execAddi d a i₀ s
  | .and d a b => Sys2Proof.Machine.execAnd d a b s
  | .or d a b => Sys2Proof.Machine.execOr d a b s
  | .xor d a b => Sys2Proof.Machine.execXor d a b s
  | .andn d a b => Sys2Proof.Machine.execAndn d a b s
  | .orn d a b => Sys2Proof.Machine.execOrn d a b s
  | .not d a => Sys2Proof.Machine.execNot d a s
  | .shl d a b => Sys2Proof.Machine.execShl d a b s
  | .shrU d a b => Sys2Proof.Machine.execShrU d a b s
  | .shrS d a b => Sys2Proof.Machine.execShrS d a b s
  | .rol d a b => Sys2Proof.Machine.execRol d a b s
  | .ror d a b => Sys2Proof.Machine.execRor d a b s
  | .shl64 d a b => Sys2Proof.Machine.execShl64 d a b s
  | .shr64U d a b => Sys2Proof.Machine.execShr64U d a b s
  | .shr64S d a b => Sys2Proof.Machine.execShr64S d a b s
  | .popc d a => Sys2Proof.Machine.execPopc d a s
  | .clz d a => Sys2Proof.Machine.execClz d a s
  | .ctz d a => Sys2Proof.Machine.execCtz d a s
  | .brev d a => Sys2Proof.Machine.execBrev d a s
  | .fldxU d a b => Sys2Proof.Machine.execFldxU d a b s
  | .fldxS d a b => Sys2Proof.Machine.execFldxS d a b s
  | .fldi d a b => Sys2Proof.Machine.execFldi d a b s
  | .bysel d a b => Sys2Proof.Machine.execBysel d a b s
  | .mul d a b => Sys2Proof.Machine.execMul d a b s
  | .mulhiS d a b => Sys2Proof.Machine.execMulhiS d a b s
  | .mulhiU d a b => Sys2Proof.Machine.execMulhiU d a b s
  | .mulwS d a b => Sys2Proof.Machine.execMulwS d a b s
  | .mulwU d a b => Sys2Proof.Machine.execMulwU d a b s
  | .mad d a b => Sys2Proof.Machine.execMad d a b s
  | .mul64 d a b => Sys2Proof.Machine.execMul64 d a b s
  | .mulhi64S d a b => Sys2Proof.Machine.execMulhi64S d a b s
  | .mulhi64U d a b => Sys2Proof.Machine.execMulhi64U d a b s
  | .divS d a b => Sys2Proof.Machine.execDivS d a b s
  | .divU d a b => Sys2Proof.Machine.execDivU d a b s
  | .remS d a b => Sys2Proof.Machine.execRemS d a b s
  | .remU d a b => Sys2Proof.Machine.execRemU d a b s
  | .div64S d a b => Sys2Proof.Machine.execDiv64S d a b s
  | .div64U d a b => Sys2Proof.Machine.execDiv64U d a b s
  | .rem64S d a b => Sys2Proof.Machine.execRem64S d a b s
  | .rem64U d a b => Sys2Proof.Machine.execRem64U d a b s
  | .icmp t r p a b => Sys2Proof.Machine.execIcmp t r p a b s
  | .lea s₀ d a b => Sys2Proof.Machine.execLea s₀ d a b s
  | .pand d n a m b => Sys2Proof.Machine.execPand d n a m b s
  | .por d n a m b => Sys2Proof.Machine.execPor d n a m b s
  | .pxor d n a m b => Sys2Proof.Machine.execPxor d n a m b s
  | .pmov d n a => Sys2Proof.Machine.execPmov d n a s
  | .ptov d n a => Sys2Proof.Machine.execPtov d n a s
  | .vtop d a => Sys2Proof.Machine.execVtop d a s
  | .lxgSel d a b => Sys2Proof.Machine.execLxgSel d a b s
  | .lxgBelow d a b => Sys2Proof.Machine.execLxgBelow d a b s
  | .lxgAbove d a b => Sys2Proof.Machine.execLxgAbove d a b s
  | .lxgFlip d a b => Sys2Proof.Machine.execLxgFlip d a b s
  | .ltestAll d n a => Sys2Proof.Machine.execLtestAll d n a s
  | .ltestAny d n a => Sys2Proof.Machine.execLtestAny d n a s
  | .ltestSame d n a => Sys2Proof.Machine.execLtestSame d n a s
  | .pgath d n a => Sys2Proof.Machine.execPgath d n a s
  | .leqm d a => Sys2Proof.Machine.execLeqm d a s
  | .lfoldAdd d a => Sys2Proof.Machine.execLfoldAdd d a s
  | .lfoldMin u d a => Sys2Proof.Machine.execLfoldMin u d a s
  | .lfoldMax u d a => Sys2Proof.Machine.execLfoldMax u d a s
  | .mmaskr d => Sys2Proof.Machine.execMmaskr d s
  | .mmaskw a => Sys2Proof.Machine.execMmaskw a s
  | .mtestAll d n a => Sys2Proof.Machine.execMtestAll d n a s
  | .mtestAny d n a => Sys2Proof.Machine.execMtestAny d n a s
  | .mpick d a b => Sys2Proof.Machine.execMpick d a b s
  | .regroup a => Sys2Proof.Machine.execRegroup a s
  | .role a => Sys2Proof.Machine.execRole a s
  | .regsGive a b => Sys2Proof.Machine.execRegsGive a b s
  | .regsClaim a => Sys2Proof.Machine.execRegsClaim a s
  | .fadd t m d a b => Sys2Proof.Machine.execFadd t m d a b s
  | .fsub t m d a b => Sys2Proof.Machine.execFsub t m d a b s
  | .fmul t m d a b => Sys2Proof.Machine.execFmul t m d a b s
  | .fma t m d a b => Sys2Proof.Machine.execFma t m d a b s
  | .fmin t d a b => Sys2Proof.Machine.execFmin t d a b s
  | .fmax t d a b => Sys2Proof.Machine.execFmax t d a b s
  | .fabs t d a => Sys2Proof.Machine.execFabs t d a s
  | .fneg t d a => Sys2Proof.Machine.execFneg t d a s
  | .fcpys t d a b => Sys2Proof.Machine.execFcpys t d a b s
  | .fclass t d a => Sys2Proof.Machine.execFclass t d a s
  | .fscale t d a b => Sys2Proof.Machine.execFscale t d a b s
  | .fcmp r t p a b => Sys2Proof.Machine.execFcmp r t p a b s
  | .cvt g d a s₀ m => Sys2Proof.Machine.execCvt g d a s₀ m s
  | .packMx8 e d a m => Sys2Proof.Machine.execPackMx8 e d a m s
  | .packMx4 d a m => Sys2Proof.Machine.execPackMx4 d a m s
  | .packTb4 d a m => Sys2Proof.Machine.execPackTb4 d a m s
  | .unpkMx8 e d a m => Sys2Proof.Machine.execUnpkMx8 e d a m s
  | .unpkMx4 d a m => Sys2Proof.Machine.execUnpkMx4 d a m s
  | .unpkTb4 d a m => Sys2Proof.Machine.execUnpkTb4 d a m s
  | .rcp d a m => Sys2Proof.Machine.execRcp d a m s
  | .rsq d a m => Sys2Proof.Machine.execRsq d a m s
  | .sqrt d a m => Sys2Proof.Machine.execSqrt d a m s
  | .exp2 d a m => Sys2Proof.Machine.execExp2 d a m s
  | .log2 d a m => Sys2Proof.Machine.execLog2 d a m s
  | .sinpi d a m => Sys2Proof.Machine.execSinpi d a m s
  | .cospi d a m => Sys2Proof.Machine.execCospi d a m s
  | .lacAdd t x a => Sys2Proof.Machine.execLacAdd t x a s
  | .lacClr x => Sys2Proof.Machine.execLacClr x s
  | .lacClrBind x a => Sys2Proof.Machine.execLacClrBind x a s
  | .lacMrg x y => Sys2Proof.Machine.execLacMrg x y s
  | .lacRnd d x f m => Sys2Proof.Machine.execLacRnd d x f m s
  | .lacLd x a => Sys2Proof.Machine.execLacLd x a s
  | .lacSt x a => Sys2Proof.Machine.execLacSt x a s
  | .maxi t d a b => Sys2Proof.Machine.execMaxi t d a b s
  | .mini t d a b => Sys2Proof.Machine.execMini t d a b s
  | .topk t d a b => Sys2Proof.Machine.execTopk t d a b s
  | .topkm t d a b => Sys2Proof.Machine.execTopkm t d a b s
  | .estatMean d a f m => Sys2Proof.Machine.execEstatMean d a f m s
  | .estatSprd d a f m => Sys2Proof.Machine.execEstatSprd d a f m s
  | .estatRank d a f => Sys2Proof.Machine.execEstatRank d a f s
  | .estatQnt d a f => Sys2Proof.Machine.execEstatQnt d a f s
  | .ld f d b o => Sys2Proof.Machine.execLd f d b o s
  | .st f d b o => Sys2Proof.Machine.execSt f d b o s
  | .ldAcq f d b s₀ o => Sys2Proof.Machine.execLdAcq f d b s₀ o s
  | .stRel f d b s₀ o => Sys2Proof.Machine.execStRel f d b s₀ o s
  | .ldh f d b o => Sys2Proof.Machine.execLdh f d b o s
  | .ldhWfKeep f d b o => Sys2Proof.Machine.execLdhWfKeep f d b o s
  | .ldhWfClr f d b o => Sys2Proof.Machine.execLdhWfClr f d b o s
  | .sth f d b o => Sys2Proof.Machine.execSth f d b o s
  | .sthF f d b o => Sys2Proof.Machine.execSthF f d b o s
  | .atomAdd w d a b => Sys2Proof.Machine.execAtomAdd w d a b s
  | .atomMinS w d a b => Sys2Proof.Machine.execAtomMinS w d a b s
  | .atomMinU w d a b => Sys2Proof.Machine.execAtomMinU w d a b s
  | .atomMaxS w d a b => Sys2Proof.Machine.execAtomMaxS w d a b s
  | .atomMaxU w d a b => Sys2Proof.Machine.execAtomMaxU w d a b s
  | .atomExch w d a b => Sys2Proof.Machine.execAtomExch w d a b s
  | .atomCas w d a b => Sys2Proof.Machine.execAtomCas w d a b s
  | .atomAnd w d a b => Sys2Proof.Machine.execAtomAnd w d a b s
  | .atomOr w d a b => Sys2Proof.Machine.execAtomOr w d a b s
  | .atomXor w d a b => Sys2Proof.Machine.execAtomXor w d a b s
  | .atomFadd w d a b => Sys2Proof.Machine.execAtomFadd w d a b s
  | .lr w d a => Sys2Proof.Machine.execLr w d a s
  | .sc w d a b => Sys2Proof.Machine.execSc w d a b s
  | .ldbMx8 d a b => Sys2Proof.Machine.execLdbMx8 d a b s
  | .ldbMx4 d a b => Sys2Proof.Machine.execLdbMx4 d a b s
  | .ldbTb4 d a b => Sys2Proof.Machine.execLdbTb4 d a b s
  | .stbMx8 d a b => Sys2Proof.Machine.execStbMx8 d a b s
  | .stbMx4 d a b => Sys2Proof.Machine.execStbMx4 d a b s
  | .stbTb4 d a b => Sys2Proof.Machine.execStbTb4 d a b s
  | .ldhbMx8 d a q => Sys2Proof.Machine.execLdhbMx8 d a q s
  | .ldhbMx4 d a q => Sys2Proof.Machine.execLdhbMx4 d a q s
  | .ldhbTb4 d a q => Sys2Proof.Machine.execLdhbTb4 d a q s
  | .sthbMx8 d a q => Sys2Proof.Machine.execSthbMx8 d a q s
  | .sthbMx4 d a q => Sys2Proof.Machine.execSthbMx4 d a q s
  | .sthbTb4 d a q => Sys2Proof.Machine.execSthbTb4 d a q s
  | .fence s₀ => Sys2Proof.Machine.execFence s₀ s
  | .fenceX s₀ p q => Sys2Proof.Machine.execFenceX s₀ p q s
  | .fenceW => Sys2Proof.Machine.execFenceW s
  | .cwbL1 a => Sys2Proof.Machine.execCwbL1 a s
  | .cinvL1 a => Sys2Proof.Machine.execCinvL1 a s
  | .cwbL2 a => Sys2Proof.Machine.execCwbL2 a s
  | .prefL1 a => Sys2Proof.Machine.execPrefL1 a s
  | .prefL2 a => Sys2Proof.Machine.execPrefL2 a s
  | .wst f d b o => Sys2Proof.Machine.execWst f d b o s
  | .hod a b => Sys2Proof.Machine.execHod a b s
  | .hodChain a => Sys2Proof.Machine.execHodChain a s
  | .bead m a => Sys2Proof.Machine.execBead m a s
  | .vsend a => Sys2Proof.Machine.execVsend a s
  | .vrecv d => Sys2Proof.Machine.execVrecv d s
  | .spawn a b => Sys2Proof.Machine.execSpawn a b s
  | .launch d a b => Sys2Proof.Machine.execLaunch d a b s
  | .cwset a b => Sys2Proof.Machine.execCwset a b s
  | .barArv n a => Sys2Proof.Machine.execBarArv n a s
  | .barWt n => Sys2Proof.Machine.execBarWt n s
  | .barSync n a => Sys2Proof.Machine.execBarSync n a s
  | .barSyncm n a b => Sys2Proof.Machine.execBarSyncm n a b s
  | .snap n => Sys2Proof.Machine.execSnap n s
  | .runMacro i₀ a b c => Sys2Proof.Machine.execRunMacro i₀ a b c s
  | .stall c => Sys2Proof.Machine.execStall c s
  | .imm i₀ => Sys2Proof.Machine.execImm i₀ s
  | .src3 s₀ => Sys2Proof.Machine.execSrc3 s₀ s
  | .guard n g p => Sys2Proof.Machine.execGuard n g p s
  | .join => Sys2Proof.Machine.execJoin s
  | .prefetch l b o => Sys2Proof.Machine.execPrefetch l b o s
  | .rnd m => Sys2Proof.Machine.execRnd m s
  | .tld t s₀ m => Sys2Proof.Machine.execTld t s₀ m s
  | .tldm d s₀ f t => Sys2Proof.Machine.execTldm d s₀ f t s
  | .tst m t s₀ f k r => Sys2Proof.Machine.execTst m t s₀ f k r s
  | .tcpy d s₀ f t => Sys2Proof.Machine.execTcpy d s₀ f t s
  | .tzero s₀ m => Sys2Proof.Machine.execTzero s₀ m s
  | .mma f t s₀ a b => Sys2Proof.Machine.execMma f t s₀ a b s
  | .tscl s₀ x => Sys2Proof.Machine.execTscl s₀ x s
  | .tbias s₀ m r => Sys2Proof.Machine.execTbias s₀ m r s
  | .tact s₀ k => Sys2Proof.Machine.execTact s₀ k s
  | .txpose s₀ => Sys2Proof.Machine.execTxpose s₀ s
  | .tcvt s₀ m => Sys2Proof.Machine.execTcvt s₀ m s
  | .tred s₀ r => Sys2Proof.Machine.execTred s₀ r s
  | .gset g x => Sys2Proof.Machine.execGset g x s
  | .gseed g a b => Sys2Proof.Machine.execGseed g a b s
  | .gorg g a b => Sys2Proof.Machine.execGorg g a b s
  | .tmov d a => Sys2Proof.Machine.execTmov d a s
  | .tadd d a b => Sys2Proof.Machine.execTadd d a b s
  | .tsub d a b => Sys2Proof.Machine.execTsub d a b s
  | .tmul d a b => Sys2Proof.Machine.execTmul d a b s
  | .tbrnz t o => Sys2Proof.Machine.execTbrnz t o s
  | .tbra o => Sys2Proof.Machine.execTbra o s
  | .tbarArv b c => Sys2Proof.Machine.execTbarArv b c s
  | .tbarWt b => Sys2Proof.Machine.execTbarWt b s
  | .tend => Sys2Proof.Machine.execTend s
  | .mset m a b => Sys2Proof.Machine.execMset m a b s
  | .madv m a b => Sys2Proof.Machine.execMadv m a b s
  | .mcpy m a n => Sys2Proof.Machine.execMcpy m a n s
  | .trecOn b l x m => Sys2Proof.Machine.execTrecOn b l x m s
  | .trecOff => Sys2Proof.Machine.execTrecOff s
  | .trecExt b l => Sys2Proof.Machine.execTrecExt b l s
  | .trev m b k r p => Sys2Proof.Machine.execTrev m b k r p s
  | .perstNRelease => Sys2Proof.Machine.execPerstNRelease s
  | .packageReset => Sys2Proof.Machine.execPackageReset s
  | .powerRemoved => Sys2Proof.Machine.execPowerRemoved s
  | .junctionOvertemp => Sys2Proof.Machine.execJunctionOvertemp s
  | .recovery => Sys2Proof.Machine.execRecovery s
  | .firmwareLoad => Sys2Proof.Machine.execFirmwareLoad s
  | .attestationRequest => Sys2Proof.Machine.execAttestationRequest s
  | .lathRegisterWrite => Sys2Proof.Machine.execLathRegisterWrite s
  | .lathMemoryRead => Sys2Proof.Machine.execLathMemoryRead s
  | .lathMemoryWrite => Sys2Proof.Machine.execLathMemoryWrite s
  | .lathMemoryCas => Sys2Proof.Machine.execLathMemoryCas s
  | .lathAck => Sys2Proof.Machine.execLathAck s
  | .lathNak => Sys2Proof.Machine.execLathNak s
  | .lathResendTimeout => Sys2Proof.Machine.execLathResendTimeout s
  | .colclkWrite => Sys2Proof.Machine.execColclkWrite s
  | .colclkRatioApply => Sys2Proof.Machine.execColclkRatioApply s
  | .qptrTailWrite => Sys2Proof.Machine.execQptrTailWrite s
  | .qctlRetry => Sys2Proof.Machine.execQctlRetry s
  | .qctlCancel => Sys2Proof.Machine.execQctlCancel s
  | .xlatinvPage => Sys2Proof.Machine.execXlatinvPage s
  | .xlatinvAsid => Sys2Proof.Machine.execXlatinvAsid s
  | .xlatinvAll => Sys2Proof.Machine.execXlatinvAll s
  | .xlatinvDone => Sys2Proof.Machine.execXlatinvDone s
  | .swapGo => Sys2Proof.Machine.execSwapGo s
  | .swapDone => Sys2Proof.Machine.execSwapDone s
  | .xctlPreempt => Sys2Proof.Machine.execXctlPreempt s
  | .xctlRestore => Sys2Proof.Machine.execXctlRestore s
  | .xctlAbort => Sys2Proof.Machine.execXctlAbort s
  | .vgateRequest => Sys2Proof.Machine.execVgateRequest s
  | .vgateGated => Sys2Proof.Machine.execVgateGated s
  | .vgateUngate => Sys2Proof.Machine.execVgateUngate s
  | .vgateUngateDone => Sys2Proof.Machine.execVgateUngateDone s
  | .scrimidWrite => Sys2Proof.Machine.execScrimidWrite s
  | .windowEntryWrite => Sys2Proof.Machine.execWindowEntryWrite s
  | .linkstEnClear => Sys2Proof.Machine.execLinkstEnClear s
  | .linkstEnSet => Sys2Proof.Machine.execLinkstEnSet s
  | .linkTrainingEnd => Sys2Proof.Machine.execLinkTrainingEnd s
  | .linkError => Sys2Proof.Machine.execLinkError s
  | .pwrlimWrite => Sys2Proof.Machine.execPwrlimWrite s
  | .powerIntervalEnd => Sys2Proof.Machine.execPowerIntervalEnd s
  | .dispatcherTakeRecord => Sys2Proof.Machine.execDispatcherTakeRecord s
  | .leasePinAttempt => Sys2Proof.Machine.execLeasePinAttempt s
  | .placeTeam => Sys2Proof.Machine.execPlaceTeam s
  | .translationWalk => Sys2Proof.Machine.execTranslationWalk s
  | .spawnBinLaunch => Sys2Proof.Machine.execSpawnBinLaunch s
  | .roleReassignment => Sys2Proof.Machine.execRoleReassignment s
  | .localityWindowEnd => Sys2Proof.Machine.execLocalityWindowEnd s
  | .loadTokenReturn => Sys2Proof.Machine.execLoadTokenReturn s
  | .wfRelease => Sys2Proof.Machine.execWfRelease s
  | .feTimeout => Sys2Proof.Machine.execFeTimeout s
  | .spawnStall => Sys2Proof.Machine.execSpawnStall s
  | .regsClaimGrant => Sys2Proof.Machine.execRegsClaimGrant s
  | .regsTimeout => Sys2Proof.Machine.execRegsTimeout s
  | .hodBusy => Sys2Proof.Machine.execHodBusy s
  | .beadBusy => Sys2Proof.Machine.execBeadBusy s
  | .vfifoGated => Sys2Proof.Machine.execVfifoGated s
  | .vfifoWaitEnd => Sys2Proof.Machine.execVfifoWaitEnd s
  | .hodCommandRun => Sys2Proof.Machine.execHodCommandRun s
  | .hodChainRecord => Sys2Proof.Machine.execHodChainRecord s
  | .beadOperationRun => Sys2Proof.Machine.execBeadOperationRun s
  | .trapEntry => Sys2Proof.Machine.execTrapEntry s
  | .snapRelease => Sys2Proof.Machine.execSnapRelease s
  | .teamEnd => Sys2Proof.Machine.execTeamEnd s
  | .gridEnd => Sys2Proof.Machine.execGridEnd s
  | .graphNodeStart => Sys2Proof.Machine.execGraphNodeStart s
  | .graphCopyRetire => Sys2Proof.Machine.execGraphCopyRetire s
  | .graphEnd => Sys2Proof.Machine.execGraphEnd s
  | .flitForward => Sys2Proof.Machine.execFlitForward s
  | .reflectionArrival => Sys2Proof.Machine.execReflectionArrival s
  | .reflectionTimeout => Sys2Proof.Machine.execReflectionTimeout s
  | .collHeaderCheck => Sys2Proof.Machine.execCollHeaderCheck s
  | .collChunkStep => Sys2Proof.Machine.execCollChunkStep s
  | .collResultWrite => Sys2Proof.Machine.execCollResultWrite s
  | .collAbortReceive => Sys2Proof.Machine.execCollAbortReceive s
  | .collTimeout => Sys2Proof.Machine.execCollTimeout s
  | .verticalRepair => Sys2Proof.Machine.execVerticalRepair s
  | .repairFreezeEnd => Sys2Proof.Machine.execRepairFreezeEnd s
  | .uncorrectableRead => Sys2Proof.Machine.execUncorrectableRead s
  | .retryReadResult => Sys2Proof.Machine.execRetryReadResult s
  | .l1LineAgeExpiry => Sys2Proof.Machine.execL1LineAgeExpiry s

end Sys2Proof.Machine
end

