-- ==== Sys2Proof/Machine/Turns.lean ====
section
/-! DEFINITION. Who moves next: the head of the agenda, or one of the agents of the package that can move now. The choice
among them is a free value (assumption 2). -/

namespace Sys2Proof.Machine

/-! ## What is due -/

/-- The release of a .WF access whose granules a fill has made full: it comes before anything else, so that no second fill
reaches a granule before the access that the first one releases (R212). -/
def wfDue (s : State) : Option Turn :=
  s.teams.findSome? fun t => t.groups.findSome? fun g =>
    if g.ended then none
    else (List.range 8).findSome? fun k => (wfWaiter s t.uid g.gid k).map fun _ => .event .wfRelease (.gang t.uid g.gid k)

/-- The turns of a waiting gang: what ends its wait or its patience, or another attempt at its instruction. -/
def waitTurns (s : State) (uid gid k : Nat) : List Turn :=
  let late : List Turn := match firstOverdue s uid gid k with
    | some (p, _) => [.event p.event (.gang uid gid k)]
    | none => []
  match gangWait s uid gid k with
  | none => []
  | some (j, c, _) =>
    (match j with
     | .regsClaim _ => [.event .regsClaimGrant (.gang uid gid k)]
     | .vsend _ | .vrecv _ => [.event .vfifoWaitEnd (.gang uid gid k)]
     | _ => if c.wfWaits j then [] else [.gang uid gid k]) ++ late

/-- The turns about a team: its gangs, its waits, its Trowel, its engines and its end. -/
def teamTurns (s : State) (t : Team) : List Turn :=
  let ev (i : Instr) : Turn := .event i (.one t.uid)
  let roles : Bool := match s.grid? t.grid with
    | some gr => gr.ctl 3 1 == 1 && t.ending.isNone && (roleChange s gr t).isSome
    | none => false
  List.flatten [
    t.readyGangs,
    t.trowelTurn,
    t.groups.flatMap fun g => if g.ended then [] else (List.range 8).flatMap (waitTurns s t.uid g.gid),
    (t.groups.filter fun g => causeDue s t.uid g.gid).map fun g => .event .trapEntry (.two t.uid g.gid),
    (t.hods.take 1).map fun h => .event .hodCommandRun (.two t.uid h.slot),
    if t.hodch.busy then [ev .hodChainRecord] else [],
    t.beads.map fun b => .event .beadOperationRun (.two t.uid b.slot),
    (t.barriers.filter fun b => snapDue s t b.1).map fun b => .event .snapRelease (.two t.uid b.1),
    if roles then [ev .roleReassignment] else [],
    if (teamEndNow s t).isSome then [ev .teamEnd] else [] ]

/-- Whether an L1 line has aged 65,536 clocks: since it first became dirty, else since its fill (R216). -/
def lineDue (clk : Nat) (e : L1Line) : Bool :=
  match e.dirtySince, e.filled with
  | some d, _ => decide (d + 65536 ≤ clk)
  | none, some f => decide (f + 65536 ≤ clk)
  | none, none => false

/-- The turns about a core. -/
def coreTurns (s : State) (c : Nat) (k : CoreSt) : List Turn :=
  let ev (i : Instr) : Turn := .event i (.one c)
  let tokens : Bool := (k.tokens.any (tokenDue s.clk)) || (!k.tokenQ.isEmpty && decide (k.tokens.length < k.limit.toNat))
  List.flatten [
    ((List.range k.bins.length).filter fun j => ((k.bins[j]?).map (binDue s)).getD false).map
      fun j => .event .spawnBinLaunch (.two c j),
    if k.frozen.isSome then [ev .repairFreezeEnd] else [],
    if windowDue s c then [ev .localityWindowEnd] else [],
    if tokens then [ev .loadTokenReturn] else [],
    if k.vgReq && !k.gated then [ev .vgateGated] else [],
    if k.ungating then [ev .vgateUngateDone] else [],
    (k.l1.filter (lineDue s.clk)).map fun e => .event .l1LineAgeExpiry (.two c e.line) ]

/-- The turns of a graph walk. -/
def graphTurns (w : GraphRun) : List Turn :=
  List.flatten [
    (w.reached.filter fun n => !w.running.any fun r => decide (r.1 = n)).map fun n => .event .graphNodeStart (.node w.uid n),
    w.copies.map fun c => .event .graphCopyRetire (.node w.uid c.1),
    if w.reached.isEmpty && w.running.isEmpty then [.event .graphEnd (.one w.uid)] else [] ]

/-- The turns of the Dispatcher, of grids and of graphs. -/
def launchTurns (s : State) : List Turn :=
  let leasing (g : Grid) : Bool := match g.stage with
    | .leasing _ _ => true
    | _ => false
  List.flatten [
    (s.queues.filter fun q => Queue.free s q.1 && decide (q.2.count ≠ 0)).map fun q => .event .dispatcherTakeRecord (.one q.1),
    (s.grids.filter leasing).map fun g => .event .leasePinAttempt (.one g.uid),
    if (firstAgain s).isSome || (arbiter s).isSome then [.event .placeTeam .nothing] else [],
    (s.grids.filter (gridOver s)).map fun g => .event .gridEnd (.one g.uid),
    s.graphs.flatMap graphTurns ]

/-- The turns of a collective. -/
def collTurns (s : State) (c : Coll) : List Turn :=
  let steps : List Turn := (c.inputs.filter fun x => !c.reduced.contains x.chunk).map
    fun x => .event .collChunkStep (.gang c.collId c.inst x.chunk)
  List.flatten [
    if c.state = .check then [.event .collHeaderCheck (.two c.collId c.inst)] else [],
    if c.state = .run then steps else [],
    c.results.map fun x => .event .collResultWrite (.chunk x),
    if collOverdue s c then [.event .collTimeout (.two c.collId c.inst)] else [] ]

/-- What can happen to a reflection that this package has sent and that has not left it. -/
def outboxEvent (s : State) (f : Flit) : Option Instr :=
  if f.dchip = s.lath.chipId then some .reflectionArrival
  else if (portFor s f.dchip.toNat (flowNo f)).isSome then some .flitForward
  else if overdueFlit s f then some .reflectionTimeout
  else none

/-- The turns of collectives, and of reflections and collective steps on their way. -/
def scrimTurns (s : State) : List Turn :=
  List.flatten [
    s.colls.flatMap (collTurns s),
    (s.outbox.filter (firstOfFlow s)).filterMap fun f => (outboxEvent s f).map fun i => .event i (.flit f),
    s.lockedRefl.map fun h => .event .reflectionArrival (.flit h.2),
    s.heldRefl.map fun h => .event .reflectionArrival (.flit h.2.2),
    (s.collOut.filter fun f => (portFor s f.dchip.toNat f.flow).isSome).map fun f => .event .flitForward (.coll f) ]

/-- The event that ends the operation XCTL has started (R372). -/
def xctlEvent (op : BitVec 3) : Instr := if op = 1 then .xctlPreempt else if op = 2 then .xctlRestore else .xctlAbort

/-- The turns of operations that control registers have started, of the Lath port, of bring-up and of the power alert. -/
def controlTurns (s : State) : List Turn :=
  let ev (i : Instr) : List Turn := [.event i .nothing]
  List.flatten [
    if s.lath.xcBusy then ev (xctlEvent s.lath.xcOp) else [],
    if s.lath.xiBusy then ev .xlatinvDone else [],
    if s.lath.swap.isSome then ev .swapDone else [],
    if s.lath.colBusy then ev .colclkRatioApply else [],
    if s.lath.unacked.isEmpty then [] else ev .lathResendTimeout,
    if s.firmware.bring.isSome then ev .perstNRelease else [],
    if s.firmware.alert then ev .powerRemoved else [] ]

/-- The evictions of lines that a home L2 has: those whose dirty sectors have yet to reach the memory behind it, and those of
which an L1 has a copy (R215). -/
def evictTurns (s : State) : List Turn :=
  ((s.l2Dirty ++ s.cores.flatMap fun k => k.2.l1.map fun e => e.line).map fun n => n / 4).dedup.map .evict

/-- Everything that can move. -/
def candidates (s : State) : List Turn :=
  s.teams.flatMap (teamTurns s) ++ s.cores.flatMap (fun k => coreTurns s k.1 k.2) ++ launchTurns s ++ scrimTurns s ++ controlTurns s ++
    evictTurns s

/-- Who moves: a .WF access that a fill has released, the head of the agenda, else one of those that can (assumption 2). -/
def nextTurn (s : State) : Option Turn × State :=
  match wfDue s with
  | some t => (some t, s)
  | none => match s.agenda with
    | t :: rest => (some t, { s with agenda := rest })
    | [] => match candidates s with
      | [] => (none, s)
      | [t] => (some t, s)
      | ts => (nth (ts.map some) (Config.pick s.tick ts.length % ts.length) none, s)

/-! ## Time -/

/-- The clocks counted for each reflection of this package that has found no way out (R348), after `n` more clocks. -/
def countStuck (s : State) (n : Nat) : SMap Nat :=
  s.outbox.filterMap fun f =>
    let old := (mapGet s.stuck f.serial).getD 0
    let k := if unroutable s f then old + n else old
    if k = 0 then none else some (f.serial, k)

/-- Time passes: the model's step counter, and the arithmetic clocks the step took (assumption 3); at L0 the arithmetic clock is
stopped (Table 22.1). -/
def passTime (s : State) : State :=
  let n := if s.level = 0 then 0 else Config.clocks s.tick
  let s1 := { s with tick := s.tick + 1, clk := s.clk + n, stuck := countStuck s n }
  { s1 with teams := s1.teams.map (trackRing s1) }

end Sys2Proof.Machine
end

