-- ==== Sys2Proof/Machine/Step.lean ====
section
/-! DEFINITION. One step of the machine: an agent moves, and time passes. A gang or a Trowel fetches, decodes
and executes one word; an event of the device or of the outside world takes place. -/

namespace Sys2Proof.Machine

/-- What one agent's move does. -/
def runTurn (s : State) (t : Turn) : Host.Outcome State Fault Refusal :=
  match t with
  | .gang uid gid k =>
    let gang := gangTurn s uid gid k
    if causeDue s uid gid then .next (takeHeld s uid gid)
    else
      match fetchGang s uid gid gang with
      | (.instr j, s1) => exec j { s1 with issuer := .gang uid gid gang }
      | (.illegal, s1) => .next (gangIllegal s1 uid gid gang)
      | (.ended c, s1) => .next (endTeamWith s1 uid c)
      | (.locked, s1) | (.past, s1) => .next s1
  | .trowel uid =>
    match fetchTrowel s uid with
    | (.instr j, s1) => exec j { s1 with issuer := .trowel uid }
    | (.illegal, s1) => .next (trowelTrap s1 uid cIllegal 0)
    | (.ended c, s1) => .next (endTeamWith s1 uid c)
    | (.past, s1) => .next (trowelTrap s1 uid cTrowelFault 0)
    | (.locked, s1) => .next s1
  | .event j a => exec j { s with issuer := .nobody, arg := a }
  | .evict n => .next (evictL2 s n)

/-- One step. -/
def step (s : State) : Host.Outcome State Fault Refusal :=
  match nextTurn s with
  | (none, s1) => .next (passTime s1)
  | (some t, s1) =>
    match runTurn s1 t with
    | .next s2 => .next (passTime s2)
    | .fault f => .fault f
    | .refused r => .refused r

/-- The state `s` with the word whose low `nbits` bits are those of `w` stored where the next step fetches
(assumption 4): a team is resident, and its gang or its Trowel moves next. -/
def State.withFetchWord (s : State) (nbits w : Nat) : State := placeWord s (w % 2 ^ nbits)

end Sys2Proof.Machine
end

