-- ==== Sys2Proof/Safety.lean ====
section
/-! DEFINITION. What counts as a safe run, in the terms the claims use: the events of the table, an agenda that names
only agents and events, runs of steps, and the invariants of the memories. -/

namespace Sys2Proof

open Machine

/-- An event: a row of the table that has no encoding. -/
def isEvent (i : Instr) : Bool := (encode i).isNone

/-- A turn that names an agent or an event. -/
def turnOk (t : Turn) : Bool :=
  match t with
  | .event i _ => isEvent i
  | _ => true

/-- The agenda names only agents and events. -/
def agendaOk (s : State) : Bool := s.agenda.all turnOk

/-- The state after some steps of which none stops. -/
def stateAfter (n : Nat) (s : State) : Option State :=
  match n with
  | 0 => some s
  | k + 1 => match Machine.step s with
    | .next t => stateAfter k t
    | _ => none

/-- A run is safe when no step of it stops. -/
def SafeRun (s : State) : Prop := ∀ n, (stateAfter n s).isSome

/-- The canonical form of a team's Hawk and column. -/
def teamMemWf (t : Team) : Bool := Memory.wf t.hawk && Memory.wf t.column

/-- The canonical form of the physical memory. -/
def memWf (s : State) : Bool := Memory.wf s.mem

/-! ## Terms of the statements -/

/-- A group of the state. -/
def groupAt (s : State) (uid gid : Nat) : Option Group := (s.team? uid).bind fun t => t.group? gid

/-- The value of a register cell of a group once every earlier write is complete (R115). -/
def cell (s : State) (uid gid : Nat) (r : Loc) : Word :=
  match groupAt s uid gid with
  | some g => g.full r
  | none => r.initial

/-- A slice of a group. -/
def sliceAt (s : State) (uid gid sl : Nat) : Slice :=
  match groupAt s uid gid with
  | some g => g.slice sl
  | none => {}

/-- A byte of a team's Hawk or column. -/
def localAt (s : State) (uid o : Nat) : Byte :=
  match s.team? uid with
  | some t => t.localByte o
  | none => 0

/-- The gang of the issue `c` issues an instruction that none of the checks before its effect stops. -/
abbrev Issues (j : Instr) (s : State) (c : Issue) : Prop :=
  s.issuer = .gang c.uid c.gid c.gang ∧ issueOf s c.uid c.gid c.gang false = some c ∧ precheck j c = none

/-- The gang of the issue `c` issues a hint word. -/
abbrev IssuesHint (s : State) (c : Issue) : Prop :=
  s.issuer = .gang c.uid c.gid c.gang ∧ issueOf s c.uid c.gid c.gang true = some c

/-- Every byte reads as before: at the home L2s, as each core sees it, and in every team's Hawk and column. -/
def SameMemory (s t : State) : Prop :=
  (∀ a, l2Read t a = l2Read s a) ∧ (∀ k a, coreView t k a = coreView s k a) ∧ ∀ u o, localAt t u o = localAt s u o

/-- What of a group an instruction that computes a result leaves alone: all of it but the register cells, the progress of the
slices, and that of a MACRO. -/
def restOf (g : Group) : Group := { g with slices := [], regs := [], pend := [], mac := [] }

/-- Nothing but the register cells of the issuing group and the progress of its slices has changed: every other field of the
group, and all other state, is as it was. -/
def OnlyGroup (s t : State) (c : Issue) : Prop :=
  ∃ f : Group → Group, t = s.updGroup c.uid c.gid f ∧ ∀ g, restOf (f g) = restOf g

/-- An open GUARD window after one more word of its stream (R111). -/
def windowAfter (w : Option GuardWin) : Option GuardWin :=
  w.bind fun g => if g.left ≤ 1 then none else some { g with left := g.left - 1 }

/-- The MACROs of a group once an operation word of one of them, `m`, has run: it goes on at its next step, its own hints used, and
is over after its last; every other MACRO is as it was (R118 to R121). -/
def macsAfter (m : MacroRun) (ms : List MacroRun) : List MacroRun :=
  let others := ms.filter fun x => decide (x.slices ≠ m.slices)
  if m.step + 1 < m.ops.length then
    { m with step := m.step + 1, imm := [], src3 := none, rnd := none, dup := false, guardWin := windowAfter m.guardWin } :: others
  else others

/-- Whether a slice moves to its next word once the gang of `c` has run one: a slice of the gang; of a MACRO, each slice that runs
it, at its last step (R121). -/
def movesOn (c : Issue) (sl : Nat) : Bool :=
  match c.mac with
  | none => c.slices.contains sl
  | some m => decide (m.ops.length ≤ m.step + 1) && m.slices.getLsbD sl && decide (sl < min 8 c.group.slices.length)

/-- The slices that move on stand at the next word with their pairs and stacks as they were, ready to issue; no other slice has
changed, and the group's MACROs are those of before but for the one that has gone on (R118 to R121). -/
def Advances (s t : State) (c : Issue) : Prop :=
  (∀ sl,
    let x := sliceAt s c.uid c.gid sl
    let y := sliceAt t c.uid c.gid sl
    if movesOn c sl then
      y.pc = x.pc + 4 ∧ y.active = x.active ∧ y.exited = x.exited ∧ y.stack = x.stack ∧ y.spilled = x.spilled ∧
        y.gang = x.gang ∧ y.wait = .ready
    else y = x) ∧
  ∀ g h, groupAt s c.uid c.gid = some g → groupAt t c.uid c.gid = some h →
    h.mac = match c.mac with
      | none => g.mac
      | some m => macsAfter m g.mac

/-- The new value of a register cell from its old one. -/
abbrev Effect := Loc → Word → Word

/-- The first live pair, and register of a destination of `n` registers, that a cell is. -/
def writerOf (c : Issue) (d : BitVec 7) (n : Nat) (r : Loc) : Option ((Nat × Nat) × Nat) :=
  (c.live.flatMap fun p => (List.range n).map fun k => (p, k)).find? fun x => decide (cellOf d x.2 x.1.1 x.1.2 = some r)

/-- Register `k` of the destination takes `f p k` for pair `p`; a shared register takes that of the first live pair
(R140, R152). -/
def destEffect (c : Issue) (d : BitVec 7) (n : Nat) (f : Nat × Nat → Nat → Word) : Effect := fun r old =>
  match writerOf c d n r with
  | some x => f x.1 x.2
  | none => old

/-- A 32-bit result. -/
def dest32 (c : Issue) (d : BitVec 7) (f : Nat × Nat → Word) : Effect := destEffect c d 1 fun p _ => f p
/-- A 64-bit result, its low half in the first register (R102). -/
def dest64 (c : Issue) (d : BitVec 7) (f : Nat × Nat → DWord) : Effect :=
  destEffect c d 2 fun p k => (f p).extractLsb' (32 * k) 32
/-- A result of one or two registers given as a natural. -/
def destNat (c : Issue) (d : BitVec 7) (n : Nat) (f : Nat × Nat → Nat) : Effect :=
  destEffect c d n fun p k => BitVec.ofNat 32 (f p / 2 ^ (32 * k))

/-- A predicate result of every live pair; p0 takes none (R104). -/
def predEffect (c : Issue) (d : BitVec 3) (f : Nat × Nat → Bool) : Effect := fun r old =>
  match r with
  | .p n e l => if d ≠ 0 ∧ n = d.toNat ∧ c.live.contains (e, l) then (if f (e, l) then 1 else 0) else old
  | _ => old

/-- The flags of the live pairs of a member context ORed into its FPM (R42). -/
def flagEffect (c : Issue) (fl : Nat × Nat → FFlags) : Effect := fun r old =>
  match r with
  | .fpm e =>
    if c.slots.contains e then
      old ||| ((c.live.filter fun p => decide (p.1 = e)).foldl (fun a p => a ||| fl p) (0 : FFlags)).setWidth 32
    else old
  | _ => old

/-- One effect after another. -/
def andThenEffect (a b : Effect) : Effect := fun r old => b r (a r old)
/-- No cell changes. -/
def noEffect : Effect := fun _ old => old

/-- The words a microprogram may hold that are not hint words: majors 0x08 to 0x10 and 0x14 to 0x22, and the plain forms of LD, ST,
LDH and STH (R119). -/
def macroWord (j : Instr) : Bool :=
  let m := majorOf j
  !isHint j && ((decide (0x08 ≤ m) && decide (m ≤ 0x10)) || (decide (0x14 ≤ m) && decide (m ≤ 0x22)) || m == 0x24 || m == 0x25 ||
    (match j with
     | .ldh _ _ _ _ | .sth _ _ _ _ => true
     | _ => false))

/-- An instruction completes: besides the state `s1` of its other effects, it changes the cells of its group as `new` says and
nothing else, and its slices, or the MACRO it is a word of, go on. -/
def Completes (j : Instr) (s s1 : State) (c : Issue) (new : Effect) : Prop :=
  ∃ t, Machine.exec j s = .next t ∧ OnlyGroup s1 t c ∧ (c.mac = none ∨ macroWord j → Advances s1 t c) ∧ SameMemory s1 t ∧
    ∀ r, cell t c.uid c.gid r = new r (cell s1 c.uid c.gid r)

/-- An instruction that has no effect but on register cells, for every state in which it issues. -/
def Computes (j : Instr) (new : State → Issue → Effect) : Prop :=
  ∀ s c, Issues j s c → Completes j s s c (new s c)

/-- An instruction that computes a value of `n` registers, and flags, for each live pair. -/
def ComputesFlags (j : Instr) (d : BitVec 7) (n : Nat) (r : Issue → Nat × Nat → Nat × FFlags) : Prop :=
  Computes j fun _ c => andThenEffect (destNat c d n fun p => (r c p).1) (flagEffect c fun p => (r c p).2)

/-- The magnitude of the pattern `k` of a format, the sign left out; past the largest finite pattern, what the next one would
be (R32). -/
def magnitude (f : Fmt) (k : Nat) : ℚ :=
  let ef := k / 2 ^ f.mb
  let mf := k % 2 ^ f.mb
  if ef = 0 then mf * 2 ^ f.minExp else (mf + 2 ^ f.mb : Nat) * 2 ^ (f.minExp + (ef - 1 : Nat))

/-- The number a value is; an infinity and a NaN are none. -/
def exactValue (x : Machine.Num) : Option ℚ :=
  match x with
  | .fin neg m e => some ((if neg then -1 else 1) * m * 2 ^ e)
  | _ => none

/-- The number ± m × 2^e. -/
def ratOf (neg : Bool) (m : Nat) (e : Int) : ℚ := (if neg then -1 else 1) * m * 2 ^ e

/-- An infinity of a format. -/
def infOf (f : Fmt) (neg : Bool) : Nat := (if neg then f.signBit else 0) + f.infBits
/-- A zero of a format. -/
def zeroOf (f : Fmt) (neg : Bool) : Nat := if neg then f.signBit else 0

/-- A result is a nonzero real number rounded once by its mode: unless it overflows, its magnitude is the neighbour that the mode
picks, and NX is raised exactly when it is not equal; it overflows only above the greatest finite magnitude (R38 to R43). -/
def roundsTo (f : Fmt) (mode : RMode) (x : ℝ) (r : Nat × FFlags) : Prop :=
  (r.2 &&& flagOF ≠ 0 → ((magnitude f f.maxBits : ℚ) : ℝ) < |x|) ∧
  (r.2 &&& flagOF = 0 → ∃ k < f.signBit, r.1 = zeroOf f (decide (x < 0)) + k ∧
    let v : ℝ := ((magnitude f k : ℚ) : ℝ)
    let up : ℝ := ((magnitude f (k + 1) : ℚ) : ℝ)
    let down : ℝ := ((magnitude f (k - 1) : ℚ) : ℝ)
    (r.2 &&& flagNX = 0 ↔ v = |x|) ∧
    (mode = .rtz ∨ (mode = .rup ∧ x < 0) ∨ (mode = .rdn ∧ 0 < x) → v ≤ |x| ∧ |x| < up) ∧
    ((mode = .rup ∧ 0 < x) ∨ (mode = .rdn ∧ x < 0) → |x| ≤ v ∧ (0 < k → down < |x|)) ∧
    (mode = .rne → 2 * |x| ≤ v + up ∧ (0 < k → v + down ≤ 2 * |x|) ∧
      ((2 * |x| = v + up ∨ (0 < k ∧ 2 * |x| = v + down)) → k % 2 = 0)) ∧
    (mode = .rna → 2 * |x| < v + up ∧ (0 < k → v + down ≤ 2 * |x|)))

/-- A pattern that is no NaN comes before another in the order −∞ < … < −0 < +0 < … < +∞ (R59). -/
def keyBefore (f : Fmt) (x y : Nat) : Prop :=
  let neg (v : Nat) : Bool := decide (f.signBit ≤ v)
  (neg x ∧ ¬ neg y) ∨ (¬ neg x ∧ ¬ neg y ∧ x < y) ∨ (neg x ∧ neg y ∧ y < x)

/-- A value that is no NaN is numerically below another, −0 equal to +0 (R190, R205). -/
def isBelow (x y : Machine.Num) : Prop :=
  (x = .inf true ∧ y ≠ .inf true) ∨ (y = .inf false ∧ x ≠ .inf false) ∨
    ∃ a b, exactValue x = some a ∧ exactValue y = some b ∧ a < b

/-- The relation of FCMP on two values that are no NaN: EQ, NE, LT, LE, GT, GE, UN, ORD (R190). -/
def fcmpHolds (r : BitVec 3) (x y : Machine.Num) : Prop :=
  if r = 0 then ¬ isBelow x y ∧ ¬ isBelow y x else if r = 1 then isBelow x y ∨ isBelow y x
  else if r = 2 then isBelow x y else if r = 3 then ¬ isBelow y x
  else if r = 4 then isBelow y x else if r = 5 then ¬ isBelow x y else r = 7

/-- The bit of the class of a pattern of an IEEE format (Table 8.3). -/
def classBit (f : Fmt) (a : Nat) : Nat :=
  let neg : Bool := decide (f.signBit ≤ a)
  let mag := a % f.signBit
  if f.infBits < mag then (if mag < f.qnan then 8 else 9)
  else if mag = f.infBits then (if neg then 0 else 7)
  else if mag = 0 then (if neg then 3 else 4)
  else if mag < 2 ^ f.mb then (if neg then 2 else 5)
  else if neg then 1 else 6

/-- A number rounded to an integer by a mode of R38. -/
def roundedInt (mode : RMode) (q : ℚ) : Int :=
  match mode with
  | .rtz | .sr => if q < 0 then ⌈q⌉ else ⌊q⌋
  | .rup => ⌈q⌉
  | .rdn => ⌊q⌋
  | .rna => if q < 0 then -⌊-q + 1 / 2⌋ else ⌊q + 1 / 2⌋
  | .rne => if 2 * (q - ⌊q⌋) < 1 then ⌊q⌋ else if 1 < 2 * (q - ⌊q⌋) then ⌊q⌋ + 1 else if ⌊q⌋ % 2 = 0 then ⌊q⌋ else ⌊q⌋ + 1

/-- The bits of an integer code of Table 5.13, 8 to 15: S8, N8, S16, N16, S32, N32, S64, N64. -/
def intBits (k : BitVec 4) : Nat := nth [8, 8, 16, 16, 32, 32, 64, 64] (k.toNat - 8) 8
/-- The bits of a float code, 0 to 6: binary64, binary32, binary16, BF16, E4M3, E5M2, E2M1. -/
def floatOf (k : BitVec 4) : Fmt := nth [fmtF64, fmtF32, fmtF16, fmtBF16, fmtE4M3, fmtE5M2] k.toNat fmtE2M1

/-- The value of a source of CVT (R185, Table 5.13). -/
def cvtValue (k : BitVec 4) (bits : Nat) : Machine.Num :=
  if k.toNat < 8 then (floatOf k).value (bits % 2 ^ ((floatOf k).eb + (floatOf k).mb + 1))
  else Machine.Num.ofInt (if k.toNat % 2 = 0 then (BitVec.ofNat (intBits k) bits).toInt else (BitVec.ofNat (intBits k) bits).toNat)

/-- The greatest magnitude of an element format of a block, and the next one with an unbounded exponent range (R193). -/
def elemTop (f : Fmt) : ℚ × ℚ := if f = fmtE4M3 then (448, 480) else if f = fmtE5M2 then (57344, 65536) else (6, 8)

/-- `round_unb` of a positive number is at most the format's greatest magnitude (R193). -/
def fitsUnbounded (f : Fmt) (mode : RMode) (y : ℚ) : Prop :=
  let top := elemTop f
  match mode with
  | .rtz | .rdn => y < top.2
  | .rup | .sr => y ≤ top.1
  | .rna => 2 * y < top.1 + top.2
  | .rne => if f = fmtE4M3 then 2 * y ≤ top.1 + top.2 else 2 * y < top.1 + top.2

/-- The greatest magnitude of the finite binary32 values of a block; 0 where there is none. -/
def blockMax (block : List Nat) : ℚ := (block.filterMap fun a => exactValue (fmtF32.value a)).foldl (fun m v => max m |v|) 0

/-- The scale exponent of an MX block whose greatest magnitude is `amax` (R193). -/
def mxScale (f : Fmt) (mode : RMode) (amax : ℚ) (x : Int) : Prop :=
  -127 ≤ x ∧ x ≤ 127 ∧
    if amax = 0 then x = 0
    else (fitsUnbounded f mode (amax * 2 ^ (-x)) ∨ x = 127) ∧ ∀ y, -127 ≤ y → y < x → ¬ fitsUnbounded f mode (amax * 2 ^ (-y))

/-! ### Arithmetic -/

/-- The `n`-bit signed number nearest to an integer. -/
def nearestS (n : Nat) (v : Int) : BitVec n :=
  BitVec.ofInt n (if v < -2 ^ (n - 1) then -2 ^ (n - 1) else if 2 ^ (n - 1) ≤ v then 2 ^ (n - 1) - 1 else v)
/-- The `n`-bit unsigned number nearest to an integer. -/
def nearestU (n : Nat) (v : Int) : BitVec n := BitVec.ofInt n (if v < 0 then 0 else if 2 ^ n ≤ v then 2 ^ n - 1 else v)
/-- A shift left by `k` places, whatever `k` is. -/
def shiftUp (n v k : Nat) : BitVec n := if n ≤ k then 0 else BitVec.ofNat n (v * 2 ^ k)
/-- A shift right by `k` places of a number, rounding down, whatever `k` is: an unsigned one comes to 0, a negative one to
−1. -/
def shiftDown (n : Nat) (v : Int) (k : Nat) : BitVec n := BitVec.ofInt n (v / 2 ^ min k n)
/-- pos of a field description (R169). -/
def posOf (b : Word) : Nat := b.toNat % 256
/-- len of a field description (R169). -/
def lenOf (b : Word) : Nat := min (b.toNat / 256 % 256) 32
/-- The relation of a comparison: 0 EQ, 1 NE, 2 LT, 3 LE, 4 GT, 5 GE (Table 5.8). -/
def relates (r : BitVec 3) (x y : Int) : Bool :=
  if r = 0 then decide (x = y) else if r = 1 then decide (x ≠ y) else if r = 2 then decide (x < y) else if r = 3 then decide (x ≤ y)
  else if r = 4 then decide (y < x) else decide (y ≤ x)

/-! ### What else may change -/

/-- Nothing but the issuing group has changed, and it has become `g`: all other state, every other team, and every other
group of the team with the team's own state, and every byte of memory, are as they were. -/
def GroupBecomes (s t : State) (c : Issue) (g : Group) : Prop :=
  t = { s with teams := t.teams } ∧ (∀ u, u ≠ c.uid → t.team? u = s.team? u) ∧
    (∃ tm, t.team? c.uid = some tm ∧ tm = { c.team with groups := tm.groups } ∧
      (∀ k, k ≠ c.gid → tm.group? k = c.team.group? k) ∧ tm.group? c.gid = some g) ∧ SameMemory s t

/-- An instruction moves the slices of its gang: it changes the register cells as `new` says and each slice as `move` says, ends
at most reservations, and changes nothing else; the slices that do not issue stay as they were. -/
def Moves (j : Instr) (s : State) (c : Issue) (new : Effect) (move : Nat → Slice → Slice → Prop) : Prop :=
  ∃ t g, Machine.exec j s = .next t ∧ GroupBecomes s t c g ∧ restOf { g with resv := c.group.resv } = restOf c.group ∧
    (∀ r ∈ g.resv, r ∈ c.group.resv) ∧ (∀ r, g.full r = new r (c.group.full r)) ∧
    ∀ sl, if c.slices.contains sl then move sl (c.group.slice sl) (g.slice sl) else g.slice sl = c.group.slice sl

/-- A slice holds its stack in hardware, with room for `n` more entries (R134). -/
def roomFor (n : Nat) (x : Slice) : Bool := decide (x.spilled = 0) && decide (x.stack.length + n ≤ 32)

/-- A branch over the pairs `taken` (R130): where none takes it, or all do, the slice goes to the next word or to the target;
where some do, they are deferred to the target and the others go on. -/
def branchMove (taken : List (Nat × Nat)) (target : VAddr) (sl : Nat) (x y : Slice) : Prop :=
  let m := sliceMask taken sl
  y.exited = x.exited ∧ y.spilled = 0 ∧ y.wait = .ready ∧
  if m = 0 then y.pc = x.pc + 4 ∧ y.active = x.active ∧ y.stack = x.stack
  else if m = x.active then y.pc = target ∧ y.active = x.active ∧ y.stack = x.stack
  else y.pc = x.pc + 4 ∧ y.active = x.active &&& ~~~m ∧ y.stack = { mask := m, deferred := true, addr := target } :: x.stack

/-- An indirect branch (R157): the live pairs of a slice with the lowest target go there, and those of every other target are
deferred to it, the lowest of them on top; `region` stands below them. -/
def indirectMove (c : Issue) (a : BitVec 7) (region : Nat → List StackEntry) (sl : Nat) (x y : Slice) : Prop :=
  let mask (v : Nat) := sliceMask (c.live.filter fun p => decide ((c.src64 a p).toNat = v)) sl
  y.exited = x.exited ∧ y.spilled = 0 ∧ y.wait = .ready ∧
  match c.targets a sl with
  | [] => y.pc = x.pc + 4 ∧ y.active = x.active ∧ y.stack = x.stack
  | low :: others => y.pc = BitVec.ofNat 57 low ∧ y.active = mask low ∧
      y.stack = (others.map fun v => { mask := mask v, deferred := true, addr := BitVec.ofNat 57 v }) ++ region sl ++ x.stack

/-- A slice that unwinds its stack (R133): it pops the entries `pre`, of which no pair is left, and takes the entry `e`. -/
def unwinds (x y : Slice) (pre : List StackEntry) (e : StackEntry) (post : List StackEntry) : Prop :=
  x.stack = pre ++ e :: post ∧ x.spilled = 0 ∧ (∀ b ∈ pre, b.mask &&& ~~~y.exited = 0) ∧ e.mask &&& ~~~y.exited ≠ 0 →
    y.stack = post ∧ y.spilled = 0 ∧ y.active = e.mask &&& ~~~y.exited ∧ y.pc = (if e.deferred then e.addr else e.addr + 4)

/-- Where a slice of the issuing gang resumes (R114, R365, Table 15.3): after the word for SOFT_TRAP and BREAKPOINT, else at the
first word of the instruction with its hints. -/
def resumePc (after : Bool) (x : Slice) : VAddr := if after then x.pc + 4 else x.pfx.getD x.pc

/-- Trap entry (R8, R365): nothing of the instruction has taken effect; the group becomes privileged, TRAPCTX holds the cause,
INFO, the failing pair and the masks of Table 15.2, the slice state is saved, and every pair that has not exited runs the handler
as one gang; the entry clears the reservations. STALL counts that the word has used are gone, and a slice in a MACRO keeps what
it has run of it (R112, R114, R121). -/
def EntersHandler (j : Instr) (s : State) (c : Issue) (x : Trap) (after : Bool) : Prop :=
  ∃ t g sv, Machine.exec j s = .next t ∧ GroupBecomes s t c g ∧ g.saved = some sv ∧
    restOf { g with privileged := c.group.privileged, saved := c.group.saved, trapctx := c.group.trapctx, resv := c.group.resv } =
      restOf c.group ∧
    g.privileged = true ∧ g.resv = [] ∧ (∀ r, g.full r = c.group.full r) ∧ g.mac = [] ∧
    sv.cause = x.code ∧ sv.clk = s.clk ∧ sv.trw = false ∧ sv.left = c.group.slices ∧
    (nth g.trapctx 0 0).extractLsb' 0 16 = x.code ∧ (nth g.trapctx 0 0).extractLsb' 16 5 = BitVec.ofNat 5 ((c.mac.map fun m => m.step).getD 0) ∧ (nth g.trapctx 0 0).extractLsb' 32 32 = x.info ∧
    (nth g.trapctx 0 0).getLsbD 21 = false ∧ (nth g.trapctx 0 0).getLsbD 22 = x.pair.isSome ∧
    (∀ p, x.pair = some p → (nth g.trapctx 0 0).extractLsb' 23 5 = BitVec.ofNat 5 p.2 ∧
      (nth g.trapctx 0 0).extractLsb' 28 4 = BitVec.ofNat 4 p.1) ∧
    (nth g.trapctx 1 0).extractLsb' 0 57 = resumePc false (c.group.slice (c.slices.headD 0)) ∧ nth g.trapctx 2 0 = x.faddr ∧
    nth g.trapctx 3 0 = slotMask c.live ++ maskOf 8 c.slices ++ 0#8 ++ laneMask c.live ∧
    ∀ sl < c.group.slices.length,
      let old := c.group.slice sl
      let new := g.slice sl
      let kept := nth sv.slices sl {}
      (if old.finished then new = old
       else new.pc = BitVec.ofNat 57 (c.grid.gbase + c.grid.handler) ∧ new.active = allPairs c.group.e &&& ~~~old.exited ∧
         new.gang = 0 ∧ new.exited = old.exited ∧ new.stack = old.stack ∧ new.spilled = old.spilled ∧ new.wait = .ready) ∧
      kept.active = old.active ∧ kept.exited = old.exited ∧ kept.stack = old.stack ∧
      (c.slices.contains sl → kept.wait = .ready ∧ kept.pc = resumePc after old ∧
        kept.stall = (if after then old.stall.tail else old.stall) ∧
        kept.redo = if after then none else (c.group.inMacro sl).or old.redo)

/-- Whether a trap enters the handler: there is one, the group is not in privileged state, and it has a pair (R363, R369). -/
abbrev handles (c : Issue) : Prop := c.grid.handler ≠ 0xFFFFFFFF ∧ c.group.privileged = false ∧ c.group.hasPair = true

/-- No held cause goes before a precise cause of the issue: in a microprogram one that is held does (R366). -/
abbrev noneHeld (c : Issue) : Prop := c.mac = none ∨ c.group.held = [] ∨ c.group.privileged = true

/-- The instructions of the Trowel stream (R260). -/
def isTrowel (j : Instr) : Bool :=
  match j with
  | .tld _ _ _ | .tldm _ _ _ _ | .tst _ _ _ _ _ _ | .tcpy _ _ _ _ | .tzero _ _ | .mma _ _ _ _ _ | .tscl _ _ | .tbias _ _ _ | .tact _ _
  | .txpose _ | .tcvt _ _ | .tred _ _ | .gset _ _ | .gseed _ _ _ | .gorg _ _ _ | .tmov _ _ | .tadd _ _ _ | .tsub _ _ _ | .tmul _ _ _
  | .tbrnz _ _ | .tbra _ | .tbarArv _ _ | .tbarWt _ | .tend | .mset _ _ _ | .madv _ _ _ | .mcpy _ _ _ | .trecOn _ _ _ _ | .trecOff
  | .trecExt _ _ | .trev _ _ _ _ _ => true
  | _ => false

/-- The instructions of the group stream that are not hint words. -/
def groupStream (j : Instr) : Bool := !isHint j && !isTrowel j && !isEvent j

/-! ### Accesses -/

/-- The TLB entry of the issuing core that maps a virtual byte (R85). -/
def tlbHit (s : State) (c : Issue) (b : Nat) : Option TlbEntry :=
  (s.core c.team.core).tlb.find? fun e => e.hits c.grid.asid b

/-- The virtual bytes of an access of `w` bytes at `va` by a pair, each mapped through the member segments (R69). -/
def bytesAtVa (c : Issue) (w : Nat) (va : DWord) (p : Nat × Nat) : List Nat :=
  accessBytes c.grid (some (c.group.memberId p.1)) va.toNat w

/-- The physical bytes of an access, by the core's TLB. -/
def physAt (s : State) (c : Issue) (w : Nat) (va : DWord) (p : Nat × Nat) : List Nat :=
  (bytesAtVa c w va p).map fun b => ((tlbHit s c b).map fun e => e.pa b).getD 0

/-- Every byte of an access is mapped by the core's TLB; for a write by an entry with D. -/
def mapped (s : State) (c : Issue) (write : Bool) (w : Nat) (va : DWord) (p : Nat × Nat) : Bool :=
  (bytesAtVa c w va p).all fun b => match tlbHit s c b with
    | some e => !write || e.d
    | none => false

/-- The checks of a global access pass for some pairs: aligned to `align`, in a lease with the permission, and mapped (R235). -/
abbrev accessOk (s : State) (c : Issue) (ps : List (Nat × Nat)) (perm : Perm) (align w : Nat) (va : Nat × Nat → DWord) : Prop :=
  ∀ p ∈ ps, (va p).toNat % align = 0 ∧ leaseOk c.grid (some (c.group.memberId p.1)) perm (va p).toNat w ∧
    mapped s c (perm != .r) w (va p) p

/-- The lines of some physical bytes fit in the core's L1 beside those it holds, so none leaves it (R214). -/
abbrev fits (s : State) (k : Nat) (pas : List Nat) : Prop :=
  ∀ n < 1024, ((s.core k).lineNos.filter fun ln => decide (ln % 1024 = n)).length +
    ((pas.map (· / 64)).dedup.filter fun ln => decide (ln % 1024 = n) && !(s.core k).lineNos.contains ln).length ≤ 8

/-- No line of an access is fetched again: the L1 holds each byte, or of its line no clean byte (R328). -/
abbrev steady (s : State) (k : Nat) (pas : List Nat) : Prop :=
  ∀ a ∈ pas, ∀ e, (s.core k).line? (a / 64) = some e → (e.byte? (a % 64)).isSome ∨ ∀ b ∈ e.bytes, b.2.2 = true

/-- The issuing group has a load token, or there is one for it (R150). -/
def hasToken (s : State) (c : Issue) : Bool := (takeToken s c.team.core c.uid c.gid).2

/-- The value that the last of some byte writes gives an address, else what it had. -/
def lastWrite (ws : List (Nat × Byte)) (a : Nat) (old : Byte) : Byte :=
  ((ws.reverse.find? fun w => decide (w.1 = a)).map Prod.snd).getD old

/-- Only the caches and tokens of one core have changed. -/
def OnlyCore (s t : State) : Prop := t = { s with cores := t.cores }

/-- The value in register `k` of a load of width code `f` (Table 10.2): 0 a byte, 1 a signed byte, 2 a halfword, 3 a signed
halfword, then one, two and four words. -/
def loadedWord (f : BitVec 3) (bs : List Byte) (k : Nat) : Word :=
  let v := natOfBytes bs
  if f = 1 then (BitVec.ofNat 8 v).signExtend 32 else if f = 3 then (BitVec.ofNat 16 v).signExtend 32
  else BitVec.ofNat 32 (v / 2 ^ (32 * k))
/-- The bytes of a load of width code `f`. -/
def loadBytesOf (f : BitVec 3) : Nat := if f.toNat < 2 then 1 else if f.toNat < 4 then 2 else if f = 4 then 4 else if f = 5 then 8 else 16
/-- The registers of a load of width code `f`. -/
def loadRegsOf (f : BitVec 3) : Nat := if f = 6 then 4 else if f = 5 then 2 else 1

/-- The bytes a store of `w` bytes takes from register d of a pair, lowest first. -/
def storedBytes (c : Issue) (d : BitVec 7) (w : Nat) (p : Nat × Nat) : List Byte :=
  (List.range w).map fun j => (c.reg d (j / 4) p).extractLsb' (8 * (j % 4)) 8

/-- A completed instruction whose other effects change only memory, caches and translation, not the team. -/
abbrev Completed (j : Instr) (s : State) (c : Issue) (new : Effect) (other : State → Prop) : Prop :=
  ∃ s1, other s1 ∧ Completes j s s1 c new

/-- A load of `w` bytes at `va` of each live pair: each obtains the bytes that its core sees, its destination takes the value
`val` makes of them, and no byte of memory has changed. -/
def Loads (j : Instr) (s : State) (c : Issue) (w : Nat) (va : Nat × Nat → DWord) (d : BitVec 7) (n : Nat)
    (val : List Byte → Nat → Word) : Prop :=
  Completed j s c
    (destEffect c d n fun p k => val ((physAt s c w (va p) p).map fun a => coreView s c.team.core a) k)
    fun s1 => OnlyCore s s1 ∧ SameMemory s s1

/-- The bytes that a store of each live pair writes, in order. -/
def storeList (s : State) (c : Issue) (w : Nat) (va : Nat × Nat → DWord) (d : BitVec 7) : List (Nat × Byte) :=
  c.live.flatMap fun p => (physAt s c w (va p) p).zip (storedBytes c d w p)

/-- A team without its groups' reservations. -/
def noResv (t : Team) : Team := { t with groups := t.groups.map fun g => { g with resv := [] } }

/-- No state of any team but reservations has changed (R245). -/
def SameTeams (s t : State) : Prop := t.teams.map noResv = s.teams.map noResv

/-- A store of each live pair: its core then sees the stored bytes, the last one where they overlap; every byte that is not
stored reads as before at the home L2s, for every core, and in every team's Hawk and column. -/
def Stores (j : Instr) (s : State) (c : Issue) (ws : List (Nat × Byte)) : Prop :=
  Completed j s c noEffect fun s1 =>
    (∀ a, coreView s1 c.team.core a = lastWrite ws a (coreView s c.team.core a)) ∧
    (∀ a, (∀ w ∈ ws, w.1 ≠ a) → l2Read s1 a = l2Read s a ∧ ∀ k, coreView s1 k a = coreView s k a) ∧
    (∀ u o, localAt s1 u o = localAt s u o) ∧ SameTeams s s1 ∧
    s1 = { s with mem := s1.mem, l2Dirty := s1.l2Dirty, cores := s1.cores, teams := s1.teams }

/-- The canonical form of a core's L1: no two lines with one number, no two entries for one byte of a line, and 64 bytes to a
line. -/
def l1Wf (k : CoreSt) : Bool :=
  decide (k.lineNos.Nodup) && k.l1.all fun e => decide ((e.bytes.map fun b => b.1).Nodup) && e.bytes.all fun b => decide (b.1 < 64)

/-- The value of a byte that a core's L1 holds and that has not been performed beyond the core. -/
def dirtyByte (s : State) (k a : Nat) : Option Byte :=
  (((s.core k).line? (a / 64)).bind fun e => e.byte? (a % 64)).bind fun b => if b.2 then some b.1 else none

/-- The core's L1 holds no line of an access. -/
abbrev notHeld (s : State) (k : Nat) (pas : List Nat) : Prop := ∀ a ∈ pas, (s.core k).line? (a / 64) = none

/-- Every store that core `k` has made is performed at the home L2s: each byte its L1 held dirty is there, every other byte of
memory is as it was, and of the rest of the state only that core's L1 and reservations have changed (R248, R329). -/
def Performed (s t : State) (k : Nat) : Prop :=
  (∀ a, l2Read t a = (dirtyByte s k a).getD (l2Read s a)) ∧ (∀ u o, localAt t u o = localAt s u o) ∧ SameTeams s t ∧
    (∀ n, n ≠ k → t.core n = s.core n) ∧ (t.core k) = { s.core k with l1 := (t.core k).l1 } ∧
    t = { s with mem := t.mem, l2Dirty := t.l2Dirty, cores := t.cores, teams := t.teams }

/-- The reads and writes of an atomic at the home L2s, one pair after another; the core's copies of the lines are first written
back and dropped (R236, R242). -/
def atomicRun (s0 : State) (c : Issue) (w : Nat) (va : Nat × Nat → DWord) (new : Nat × Nat → Nat → Nat) :
    List (Nat × Nat) → State → List ((Nat × Nat) × Nat) × State
  | [], s => ([], s)
  | p :: rest, s =>
    let pas := physAt s0 c w (va p) p
    let s1 := dropLines s c.team.core pas
    let old := natOfBytes (l2Reads s1 pas)
    let r := atomicRun s0 c w va new rest (l2Writes s1 pas (bytesOfNat w (new p old)))
    ((p, old) :: r.1, r.2)

/-- An atomic of width code `w`: each live pair's d takes the old value, and `op` of it, b and the third source is written; the
flags that `fl` gives of the old value are raised (R242). -/
def Atomic (j : Instr) (w : BitVec 1) (d a b : BitVec 7) (op : Issue → Nat × Nat → AtomOp) (fl : Issue → Nat × Nat → Nat → FFlags) : Prop :=
  let n := regsOf w
  ∀ s c, Issues j s c → c.live ≠ [] → accessOk s c c.live .rw (4 * n) (4 * n) (fun p => c.src64 a p) →
    let run := atomicRun s c (4 * n) (fun p => c.src64 a p) (fun p old =>
      (op c p (32 * n) (BitVec.ofNat _ old) (BitVec.ofNat _ (c.srcNat b n p))
        (BitVec.ofNat _ (((c.third p).map fun code => c.srcNat code n p).getD 0))).toNat) c.live s
    let old (p : Nat × Nat) : Nat := ((run.1.find? fun x => decide (x.1 = p)).map Prod.snd).getD 0
    Completed j s c (andThenEffect (destNat c d n old) (flagEffect c fun p => fl c p (old p))) fun s1 => s1 = run.2

/-- The element of lane `l` among the element bytes of a block form: a byte of MX8, else a nibble (Table 10.3). -/
def elemBits (fm : BlockForm) (byte : Nat → Byte) (l : Nat) : Nat :=
  if fm.elems = 32 then (byte l).toNat else (byte (l / 2)).toNat / 16 ^ (l % 2) % 16
/-- The scale byte of lane `l`: one of 32 lanes, or of each eight for TB4. -/
def scaleOf (fm : BlockForm) (l : Nat) : Nat := if fm.scales = 4 then l / 8 else 0
/-- The packed word of a lane: its element below its scale (R192). -/
def packedWord (fm : BlockForm) (es ss : Nat → Byte) (l : Nat) : Word :=
  BitVec.ofNat 32 ((ss (scaleOf fm l)).toNat * 256 + elemBits fm es l)

/-- The pairs that read the addresses of a block form: the lowest live lane of each live member context (R152). -/
def blockPairs (c : Issue) : List (Nat × Nat) := c.slots.map c.memberPair

/-- A block form's element and scale accesses pass their checks. -/
abbrev blockReady (s : State) (c : Issue) (fm : BlockForm) (a b : BitVec 7) (perm : Perm) : Prop :=
  accessOk s c (blockPairs c) perm fm.elems fm.elems (fun p => c.src64 a p) ∧
  accessOk s c (blockPairs c) perm fm.scales fm.scales (fun p => c.src64 b p) ∧
  fits s c.team.core ((blockPairs c).flatMap (fun p => physAt s c fm.elems (c.src64 a p) p) ++
    (blockPairs c).flatMap fun p => physAt s c fm.scales (c.src64 b p) p)

/-- The blocks of a block form can be read as they stand, each with its scale (R37): the core's L1 holds none of their lines, or all
of each block's own lines, from one fill. -/
abbrev blockWhole (s : State) (c : Issue) (fm : BlockForm) (a b : BitVec 7) : Prop :=
  let k := c.team.core
  let pas (p : Nat × Nat) := physAt s c fm.elems (c.src64 a p) p ++ physAt s c fm.scales (c.src64 b p) p
  (∀ p ∈ blockPairs c, ∀ x ∈ pas p, (s.core k).line? (x / 64) = none) ∨
    ∀ p ∈ blockPairs c, ∃ stamp, ∀ x ∈ pas p, homeTower x = coreTower k →
      ∃ e, (s.core k).line? (x / 64) = some e ∧ e.stamp = stamp ∧ (e.byte? (x % 64)).isSome

/-- The local offsets of a block form's elements and scales are aligned and in the allocation. -/
abbrev blockReadyLocal (s : State) (c : Issue) (fm : BlockForm) (a : BitVec 7) : Prop :=
  (∀ p ∈ blockPairs c, (c.reg a 0 p).toNat % fm.elems = 0 ∧ (c.reg a 1 p).toNat % fm.scales = 0 ∧
    localOk c.grid (c.reg a 0 p).toNat fm.elems ∧ localOk c.grid (c.reg a 1 p).toNat fm.scales) ∧
  frozenAt s c.team.core (c.blockInts a) = false

/-- Lane `l` of a block with the element bytes `es` and scale bytes `ss`, after a store of the words of live lanes: a live
lane's element is its word's low bits and every other element is unchanged; the scale of a block with a live lane is that of its
lowest one's word (R241). -/
def blockStored (c : Issue) (fm : BlockForm) (d : BitVec 7) (e : Nat) (es ss es' ss' : Nat → Byte) : Prop :=
  (∀ l < 32, elemBits fm es' l =
    if c.live.contains (e, l) then (c.src d (e, l)).toNat % (if fm.elems = 32 then 256 else 16) else elemBits fm es l) ∧
  ∀ k < fm.scales, ss' k = match (c.lanes e).find? fun l => decide (scaleOf fm l = k) with
    | some l => (c.src d (e, l)).extractLsb' 8 8
    | none => ss k

/-! ### Gang-wide instructions -/

/-- The gang-wide instructions that act on lanes and member contexts: major 0x11, MTEST, MPICK and REGROUP, TOPK, TOPKM and ESTAT
(R136). -/
def actsGangWide (j : Instr) : Bool :=
  match j with
  | .lxgSel _ _ _ | .lxgBelow _ _ _ | .lxgAbove _ _ _ | .lxgFlip _ _ _ | .ltestAll _ _ _ | .ltestAny _ _ _ | .ltestSame _ _ _
  | .pgath _ _ _ | .leqm _ _ | .lfoldAdd _ _ | .lfoldMin _ _ _ | .lfoldMax _ _ _ | .mtestAll _ _ _ | .mtestAny _ _ _ | .mpick _ _ _
  | .regroup _ | .topk _ _ _ _ | .topkm _ _ _ _ | .estatMean _ _ _ _ | .estatSprd _ _ _ _ | .estatRank _ _ _ | .estatQnt _ _ _ => true
  | _ => false

/-- A slice has stopped gathering at the word `a`, in no microprogram: its participants wait there (R137). -/
abbrev waitsAt (a : VAddr) (x : Slice) : Prop :=
  x.wait = .parked ∧ ∃ p, x.park = some p ∧ p.addr = a ∧ p.run = none

/-- The gang of `c` reaches a gang-wide instruction, which no check stops. -/
abbrev Reaches (j : Instr) (s : State) (c : Issue) : Prop :=
  s.issuer = .gang c.uid c.gid c.gang ∧ issueOf s c.uid c.gid c.gang false = some c ∧ precheckCore j c = none

/-- A slice of the gang of `c` whose every participant stands at its word, with no deferred pairs on top of its stack (R137). -/
abbrev allHere (c : Issue) (sl : Nat) : Prop :=
  let x := c.group.slice sl
  x.park = none ∧ x.topDeferred = false ∧ x.pc = c.pc ∧ x.active = participants c.grid c.team c.group sl

/-- With the gang of `c` every slice of the group that has not finished has gathered at a gang-wide instruction of the plain stream:
each slice of the gang holds all its participants, and every other waits there already (R136, R137). -/
abbrev WholeGroup (j : Instr) (s : State) (c : Issue) : Prop :=
  Reaches j s c ∧ c.group.mac = [] ∧ c.group.slices.length = 8 ∧
    ∀ sl < 8, if c.slices.contains sl then allHere c sl else (c.group.slice sl).wait = .finished ∨ waitsAt c.pc (c.group.slice sl)

/-- The slices of a group that waited at the word of `c` made to stand there, each with the pairs and hints it had. -/
def standing (c : Issue) : Group :=
  { c.group with slices := c.group.slices.mapIdx fun sl x =>
      if c.slices.contains sl then x
      else match x.park with
        | some p => { x with active := p.mask, imm := p.imm, src3 := p.src3, rnd := p.rnd }
        | none => x }

/-- The issue of a gang-wide instruction of the whole group: the gathering is a drain boundary before it, so it sees every
earlier result (R115, R137), and a GUARD window leaves on the pairs that act (R111). -/
def wideOf (c : Issue) : Issue :=
  let g := (standing c).drain 0xFF
  let sls := (List.range 8).filter fun sl => !(c.group.slice sl).finished
  { c with
    group := g
    slices := sls
    live := (pairsWhere c.group.e sls fun sl => (g.slice sl).active).filter fun p =>
      let x := c.group.slice (p.2 / 4)
      if c.slices.contains (p.2 / 4) then match x.guardWin with
        | none => true
        | some w => (c.group.drain (maskOf 8 [p.2 / 4])).predAt x.issueStep w.pred.toNat p != w.neg
      else !((x.park.map Park.off).getD 0).getLsbD (4 * p.1 + p.2 % 4) }

/-- A slice after a gang-wide instruction: at the next word, its pairs and stack as they were. -/
def resumed (x y : Slice) : Prop :=
  y.pc = ((x.park.map fun p => p.addr).getD x.pc) + 4 ∧ y.active = (x.park.map fun p => p.mask).getD x.active ∧
    y.exited = x.exited ∧ y.stack = x.stack ∧ y.spilled = x.spilled ∧ y.wait = .ready ∧ y.park = none

/-- A gang-wide instruction changes the cells of its group as `new` says; every slice of the group that has not finished changes as
`move` says; nothing else changes, reservations apart. -/
def MovesAll (j : Instr) (s : State) (c : Issue) (new : Effect) (move : Nat → Slice → Slice → Prop) : Prop :=
  ∃ t g, Machine.exec j s = .next t ∧ GroupBecomes s t c g ∧ restOf { g with resv := c.group.resv } = restOf c.group ∧
    (∀ r ∈ g.resv, r ∈ c.group.resv) ∧ (∀ r, g.full r = new r (c.group.full r)) ∧
    ∀ sl < 8, if (c.group.slice sl).finished then g.slice sl = c.group.slice sl else move sl (c.group.slice sl) (g.slice sl)

/-- A gang-wide instruction that computes register values does so at once for a whole group. -/
def ComputesWide (j : Instr) (new : Issue → Effect) : Prop :=
  ∀ s c, WholeGroup j s c → MovesAll j s c (new (wideOf c)) fun _ x y => resumed x y

/-- The pairs of the member context of a pair, and those of its lane, that are live (R174, R177). -/
def peersOf (c : Issue) (p : Nat × Nat) : List (Nat × Nat) := c.live.filter fun q => decide (q.1 = p.1)
/-- The live pairs of a lane. -/
def laneOf (c : Issue) (p : Nat × Nat) : List (Nat × Nat) := c.live.filter fun q => decide (q.2 = p.2)

/-- The value of the source lane `l`, or the pair's own where there is none live (R174). -/
def exchanged (c : Issue) (a : BitVec 7) (p : Nat × Nat) (l : Option Nat) : Word :=
  match l with
  | some l => if c.live.contains (p.1, l) then c.src a (p.1, l) else c.src a p
  | none => c.src a p

/-- The sibling set of an issue's group has wholly gathered with it: every other sibling waits at the same word, their stacks and
the issuing group's have equal shapes, and none is lost (R141). -/
abbrev Together (j : Instr) (s : State) (c : Issue) (set : List Group) : Prop :=
  WholeGroup j s c ∧ set = siblingsOf c.team c.grid c.group ∧ (set.map fun b => b.gid).Nodup ∧ (∃ b ∈ set, b.gid = c.gid) ∧
    (∀ b ∈ set, b.gid ≠ c.gid → b.slices.length = 8 ∧ b.mac = [] ∧ b.lostAt c.pc = false ∧
      ∀ sl < 8, (b.slice sl).wait = .finished ∨ waitsAt c.pc (b.slice sl)) ∧
    ∀ sl < 8, ∀ b ∈ set, stackShape c.grid c.team b sl = stackShape c.grid c.team c.group sl

/-- The issue of each sibling. -/
def issueFor (c : Issue) (b : Group) : Issue :=
  if b.gid = c.gid then wideOf c else gatheredIssue c.team c.grid b c.pc

/-- The members of lane `l` over a sibling set, in ascending order of context, with their operand bits (R205). -/
def membersAt (c : Issue) (set : List Group) (l : Nat) : List (Issue × (Nat × Nat)) :=
  set.flatMap fun b => ((issueFor c b).live.filter fun p => decide (p.2 = l)).map fun p => (issueFor c b, p)

/-- An ensemble statistic of a sibling set: for each lane one result of its members' values, which every member takes, with its
flags; the siblings go on together (R204, R205). -/
def Ensemble (j : Instr) (f : BitVec 1) (d a : BitVec 7) (n : Nat) (stat : Issue → Nat × Nat → List Nat → Nat × FFlags) : Prop :=
  ∀ s c set, Together j s c set →
    let result (l : Nat) : Nat × FFlags := match membersAt c set l with
      | [] => (0, 0)
      | x :: rest => stat x.1 x.2 ((x :: rest).map fun y => y.1.fsrc (statFmt f) a (statRegs f) y.2)
    ∃ t, Machine.exec j s = .next t ∧ t = { s with teams := t.teams } ∧ (∀ u, u ≠ c.uid → t.team? u = s.team? u) ∧
      SameMemory s t ∧ (∀ k, (∀ b ∈ set, b.gid ≠ k) → groupAt t c.uid k = groupAt s c.uid k) ∧
      ∀ b ∈ set, ∃ g, groupAt t c.uid b.gid = some g ∧
        (∀ r, g.full r = andThenEffect (destNat (issueFor c b) d n fun p => (result p.2).1)
          (flagEffect (issueFor c b) fun p => (result p.2).2) r (b.full r)) ∧
        ∀ sl < 8, if (b.slice sl).finished then g.slice sl = b.slice sl
          else (g.slice sl).pc = c.pc + 4 ∧ (g.slice sl).wait = .ready ∧ (g.slice sl).stack = (b.slice sl).stack ∧
            (g.slice sl).active = ((b.slice sl).park.map fun p => p.mask).getD (b.slice sl).active

/-- The pc of every issuing slice is past the instruction, outside a microprogram. -/
def pastIt (c : Issue) (g : Group) : Prop :=
  c.mac = none → ∀ sl ∈ c.slices, (g.slice sl).pc = (c.group.slice sl).pc + 4 ∧ (g.slice sl).wait = .ready ∧
    (g.slice sl).active = (c.group.slice sl).active ∧ (g.slice sl).stack = (c.group.slice sl).stack

/-- A barrier after one arrival with count `k` by `a` at clock `clk` (R321, R322): its expectation is set, and the phase ends with
the last arrival. -/
def arrivedAt (x : Barrier) (k : Nat) (a : Arriver) (clk : Nat) : Barrier :=
  if k ≤ x.arrived.toNat + 1 then
    { phase := x.phase + 1, expect := 0, arrived := BitVec.ofNat 16 (x.arrived.toNat + 1 - k), last := some (clk, a.rank) }
  else { phase := x.phase, expect := BitVec.ofNat 13 k, arrived := BitVec.ofNat 16 (x.arrived.toNat + 1), last := some (clk, a.rank) }

/-- An arrival by `a` is in its turn: nothing that goes after it has arrived in the same clock (R322). -/
abbrev inTurn (x : Barrier) (a : Arriver) (clk : Nat) : Prop := ∀ r, x.last = some (clk, r) → r ≤ a.rank

/-- An arrival with count `k` at barrier `b` meets no cause and is in its turn: the barrier is one of the record's, the count is
legal and agrees with what the barrier expects (R255, R321, R322). -/
abbrev mayArrive (s : State) (c : Issue) (b k : Nat) : Prop :=
  b < c.grid.ctl 8 5 ∧ 1 ≤ k ∧ k ≤ 4096 ∧ ((c.team.barrier b).expect = 0 ∨ (c.team.barrier b).expect.toNat = k) ∧
    inTurn (c.team.barrier b) (.group c.gid) s.clk

/-- A hint word moves each slice past it, one issue step on, with `f` recorded; a word that binds to the next instruction marks
where its prefix began (R107, R108). -/
def hinted (binds : Bool) (f : Slice → Slice) (x y : Slice) : Prop :=
  y = { f x with pc := x.pc + 4, step := x.step + 1, pfx := if binds then some (x.pfx.getD x.pc) else x.pfx }

/-- The 64-byte record of a Hod command with its VALID field replaced. -/
def hodRecord (bs : List Byte) (n : Word) : BitVec 512 := setRec512 (BitVec.ofNat 512 (natOfBytes bs)) 0x20 n

/-- No slice of a team waits with SNAP at a barrier. -/
abbrev noSnap (t : Team) (b : Nat) : Prop :=
  ∀ g ∈ t.groups, ∀ x ∈ g.slices ++ ((g.saved.map fun v => v.slices).getD []), ∀ target, x.wait ≠ .barrier b target .snap

/-! ### The Trowel -/

/-- The Trowel of `c` issues an instruction of its stream that no check stops. -/
abbrev TrowelIssues (j : Instr) (s : State) (c : TrowelIssue) : Prop :=
  s.issuer = .trowel c.uid ∧ trowelIssue s c.uid = some c ∧ legal j = true ∧ c.w.bindingOk j = true

/-- The Trowel changed by `f` and sent to `pc`, its literals used. -/
def trowelTo (c : TrowelIssue) (pc : VAddr) (f : Trowel → Trowel) (s : State) : State :=
  s.updTeam c.uid fun t => { t with trowel := t.trowel.map fun w => { f w with pc := pc, imm := [], pfx := none } }

/-- A Trowel instruction completes: besides the state `s1` of its other effects it changes its context by `f` and goes on to the
next word. -/
def TrowelDoes (j : Instr) (s : State) (c : TrowelIssue) (s1 : State) (f : Trowel → Trowel) : Prop :=
  Machine.exec j s = .next (trowelTo c (c.w.pc + 4) f s1)

/-- A Trowel trap (R264, R363, R383): the Trowel halts at the first word of its instruction with none of its effect, and the cause
is held for the team's live group of lowest GROUPID, one for each source; with no live group, or that one in privileged state, it
ends the team. -/
def TrowelHalts (j : Instr) (s : State) (c : TrowelIssue) (code : Code) (faddr : DWord) : Prop :=
  let pc := c.w.pfx.getD c.w.pc
  let told := ((c.team.groups.filter fun g => !g.ended).map fun g => g.gid).min?.bind c.team.group?
  let ends : Bool := match told with
    | some g => g.privileged
    | none => true
  ∃ t tm, Machine.exec j s = .next t ∧ t.team? c.uid = some tm ∧ SameMemory s t ∧
    tm.trowel = some { c.w with status := .halted code, haltClk := s.clk, pc := pc, imm := [], pfx := none } ∧
    (tm.ending = if ends then some (c.team.ending.getD code) else c.team.ending) ∧
    ∀ k g, c.team.group? k = some g →
      tm.group? k = some (if ends = false ∧ told = some g ∧ (∀ x ∈ g.held, x.src ≠ 21) then
        { g with held := g.held ++ [{ code := code, src := 21, faddr := faddr, trw := true, tpc := pc }] } else g)

/-- VR, VC and VK of a t register (Table 11.10). -/
def vrOf (v : DWord) : Nat := (v.extractLsb' 0 16).toNat
/-- VC. -/
def vcOf (v : DWord) : Nat := (v.extractLsb' 16 16).toNat
/-- VK. -/
def vkOf (v : DWord) : Nat := (v.extractLsb' 32 16).toNat
/-- The counts are in range (R275, R278). -/
abbrev countsOk (v : DWord) : Prop := v.extractLsb' 48 16 = 0 ∧ vrOf v ≤ 256 ∧ vcOf v ≤ 256

/-- The canonical form of a tile: its elements by rising places, all of the tile. -/
def tileWf (t : Tile) : Bool := mapRising t.cells && t.cells.all fun c => decide (c.1 < 65536)

/-- A Trowel instruction replaces a tile, raises flags, and goes on. -/
def TilePut (j : Instr) (s : State) (c : TrowelIssue) (u : Tile) (fl : TFlags) : Prop :=
  TrowelDoes j s c s fun w => { w with tiles := putTile w.tiles u, tflags := w.tflags ||| fl.setWidth 32 }

/-- A Trowel instruction that computes a tile from the one its slot names: element (i, j) becomes `f i j` with some flags, and
`like` says what else of the tile holds. -/
def TileResult (j : Instr) (s : State) (c : TrowelIssue) (like : Tile → Prop) (f : Nat → Nat → Elem) : Prop :=
  ∃ u fl, TilePut j s c u fl ∧ like u ∧ ∀ i < 256, ∀ k < 256, u.get i k = f i k

/-- The Trowel issues a tile instruction outside a recording, on the tile that a slot names. -/
abbrev TileIssues (j : Instr) (s : State) (c : TrowelIssue) (sl : BitVec 3) (t : Tile) : Prop :=
  TrowelIssues j s c ∧ c.w.tape.mode ≠ .recording ∧ namedTile c.w.tiles sl.toNat = some t ∧ tileWf t = true

/-- The local bytes of the team changed by a list of byte writes, and nothing else but the full bits. -/
def LocalWrites (s s1 : State) (c : TrowelIssue) (ws : List (Nat × Byte)) : Prop :=
  (∀ o, localAt s1 c.uid o = lastWrite ws o (localAt s c.uid o)) ∧ s1 = { s with teams := s1.teams } ∧
    (∀ u, u ≠ c.uid → s1.team? u = s.team? u) ∧
    ∃ tm, s1.team? c.uid = some tm ∧
      tm = { c.team with hawk := tm.hawk, column := tm.column, hawkFull := tm.hawkFull, colFull := tm.colFull }

/-- The full bits of the team: where `fill`, every granule of the ranges is full; every other one is as it was. -/
def Fills (s1 : State) (c : TrowelIssue) (rs : List (Nat × Nat)) (fill : Bool) : Prop :=
  ∀ tm, s1.team? c.uid = some tm → ∀ o,
    tm.full o = (c.team.full o || (fill && rs.any fun r => decide (0 < r.2) && decide (r.1 / 16 ≤ o / 16) &&
      decide (o / 16 ≤ (r.1 + r.2 - 1) / 16)))

/-- Consecutive bytes written from an offset. -/
def writesAt (o : Nat) (bs : List Byte) : List (Nat × Byte) := bs.zipIdx.map fun b => (o + b.2, b.1)

/-- Every byte of a range of the Trowel's tape accesses is mapped by the core's TLB, for a write by an entry with D. -/
def tapeMapped (s : State) (c : TrowelIssue) (write : Bool) (va n : Nat) : Bool :=
  (accessBytes c.grid none va n).all fun b =>
    match (s.core c.team.core).tlb.find? fun e => e.hits c.grid.asid b with
    | some e => !write || e.d
    | none => false

/-- The physical bytes of a tape access. -/
def tapePas (s : State) (c : TrowelIssue) (va n : Nat) : List Nat :=
  (accessBytes c.grid none va n).map fun b =>
    (((s.core c.team.core).tlb.find? fun e => e.hits c.grid.asid b).map fun e => e.pa b).getD 0

/-- A tape access passes its checks (R295). -/
abbrev tapeReady (s : State) (c : TrowelIssue) (perm : Perm) (va n : Nat) : Prop :=
  leaseOk c.grid none perm va n ∧ tapeMapped s c (perm != .r) va n

/-- A range is a segment of the record's tape region (R297). -/
abbrev isSegment (c : TrowelIssue) (base limit : Nat) : Prop :=
  0 < c.grid.tapeLen ∧ base % 256 = 0 ∧ limit % 256 = 0 ∧ base + 512 ≤ limit ∧ c.grid.tapeBase ≤ base ∧
    limit ≤ c.grid.tapeBase + c.grid.tapeLen


/-! ### The tape -/

/-- The state with no recording in progress on the Trowel of `c`. -/
def unrecorded (s : State) (c : TrowelIssue) : State :=
  s.updTeam c.uid fun t => { t with trowel := t.trowel.map fun w => { w with tape := { w.tape with mode := .off } } }

/-- A tile instruction: majors 0x34 to 0x36 (R299). -/
def isTileOp (j : Instr) : Bool := majorOf j == 0x34 || majorOf j == 0x35 || majorOf j == 0x36

/-- VALID of an instruction's record (Table 12.3). -/
def recValid (c : TrowelIssue) (j : Instr) : DWord :=
  let t (r : BitVec 4) : DWord := (mapGet c.w.t r.toNat).getD 0
  match j with
  | .tld r _ _ | .tst _ r _ _ _ _ | .tcpy _ _ _ r | .tldm _ _ _ r | .mma _ r _ _ _ => t r
  | _ => 0

/-- The field of operand 1 or 2 of an MMA. -/
def mmaField (j : Instr) (first : Bool) : Option (BitVec 5) :=
  match j with
  | .mma _ _ _ x y => some (if first then x else y)
  | _ => none

/-- The generator register that operand 1 or 2 is, where it is one. -/
def recGen (c : TrowelIssue) (j : Instr) (first : Bool) : Option (BitVec 256) :=
  (mmaField j first).bind fun o => if o.getLsbD 4 then some ((mapGet c.w.g (o.toNat % 8)).getD 0) else none

/-- The descriptor of operand 1 or 2; zero where there is none or it is a generator (R301). -/
def recDesc (c : TrowelIssue) (j : Instr) (first : Bool) : BitVec 128 :=
  let m (n : Nat) : BitVec 128 := (mapGet c.team.mregs n).getD 0
  match j, first with
  | .tld _ _ k, true | .tst k _ _ _ _ _, true | .tcpy k _ _ _, true | .tldm k _ _ _, true | .tbias _ k _, true => m k.toNat
  | .tcpy _ k _ _, false | .tldm _ k _ _, false => m k.toNat
  | j, first => match mmaField j first with
    | some o => if o.getLsbD 4 then 0 else m o.toNat
    | none => 0

/-- Whether operand 1 or 2 is saved: a memory operand of an MMA, under POLM or where it is remote (R303). -/
def recSaves (c : TrowelIssue) (j : Instr) (first : Bool) : Bool :=
  (mmaField j first).isSome && (recGen c j first).isNone &&
    (c.w.tape.polm || decide ((recDesc c j first).extractLsb' 12 8 ≠ 0))

/-- Whether the instruction has an accumulator input. -/
def hasInput (j : Instr) : Bool :=
  match j with
  | .tact _ _ => true
  | _ => false

/-- The tile that an instruction names (Table 12.3). -/
def recTile (c : TrowelIssue) (j : Instr) : Option Tile := (slotOf j).map fun n => tileAt c.w.tiles n

/-- Whether the accumulator input is saved: under POLX, or where STARTED lacks a slot of the tile (R303). -/
def recSavesInput (c : TrowelIssue) (j : Instr) : Bool :=
  hasInput j && (c.w.tape.polx || ((recTile c j).map fun t => t.covers.any fun s => !c.w.tape.started.getLsbD s).getD false)

/-- The lines of operand 1 or 2 of an MMA. -/
def recLines (c : TrowelIssue) (j : Instr) (first : Bool) : Nat := if first then vrOf (recValid c j) else vcOf (recValid c j)
/-- The format of operand 1 or 2 of an MMA, and its K. -/
def recForm (j : Instr) (first : Bool) : Nat × Nat :=
  match j with
  | .mma f _ _ _ _ => (if first then (mmaForm f.toNat).1 else (mmaForm f.toNat).2.1, (mmaForm f.toNat).2.2)
  | _ => (0, 0)

/-- The 256-byte units of a saved operand's elements, block scales and band scales (R302). -/
def recOperandUnits (c : TrowelIssue) (j : Instr) (first : Bool) : Nat :=
  let n := recLines c j first
  let (f, k) := recForm j first
  let up (b : Nat) : Nat := (b + 255) / 256
  if recSaves c j first then
    up (n * elemBytes f k) + (if (fmtBlk f).isSome then up (n * (k / fmtPerBlock f)) else 0) +
      (if f = 12 then up (2 * ((n + 63) / 64)) else 0)
  else 0

/-- LEN of an instruction's record (R302). -/
def recUnits (c : TrowelIssue) (j : Instr) : Nat :=
  1 + recOperandUnits c j true + recOperandUnits c j false +
    (if recSavesInput c j then (match (recTile c j).map fun t => t.mode with
      | some .f64 => 2048
      | _ => 1024) else 0)

/-- A number in the bytes of memory at some physical addresses. -/
def numAt (s : State) (pas : List Nat) (o n : Nat) : Nat := natOfBytes ((List.range n).map fun i => l2Read s (nth pas (o + i) 0))

/-- The bytes `pas` of memory hold the record of an instruction issued at `s` (Tables 12.3 to 12.5, R302): its header; then the
lines of each saved operand, its elements beyond VK zero; then the accumulator input. -/
def HoldsRecord (s u : State) (c : TrowelIssue) (j : Instr) (pas : List Nat) : Prop :=
  let tp := c.w.tape
  let v := recValid c j
  let field := numAt u pas
  let bit (b : Bool) (k : Nat) : Nat := if b then k else 0
  let mode (t : Tile) : Nat := match t.mode with
    | .f32 => 0
    | .f64 => 1
    | .exact => 2
  let cls (t : Tile) : Nat := match t.cls with
    | .unset => 0
    | .float => 1
    | .intSat => 2
    | .intWrap => 3
  let scal : DWord := match j with
    | .tscl _ x => c.src x
    | _ => 0
  let band (k : Nat) : Nat := match j, recTile c j with
    | .tst _ _ _ _ _ _, some t | .tcvt _ _, some t =>
      if t.mode = .exact then (if k < 4 then t.bandA (64 * k) else t.bandB (64 * (k - 4))).toNat else 0
    | _, _ => 0
  field 0 4 = ((encode j).getD 0).toNat ∧ field 4 2 = recUnits c j ∧
    field 6 1 = bit (recSaves c j true) 1 + bit (recSaves c j false) 2 + bit (recGen c j true).isSome 4 +
      bit (recGen c j false).isSome 8 + bit (recSavesInput c j) 16 + bit (hasInput j && !recSavesInput c j) 32 ∧
    field 7 1 = ((recTile c j).map fun t => mode t + 4 * cls t).getD 0 ∧ field 8 8 = v.toNat ∧ field 0x10 16 = (recDesc c j true).toNat ∧
    field 0x20 16 = (recDesc c j false).toNat ∧ field 0x30 8 = scal.toNat ∧ field 0x38 8 = tp.last.toNat ∧
    field 0x40 32 = ((recGen c j true).map BitVec.toNat).getD 0 ∧ field 0x60 32 = ((recGen c j false).map BitVec.toNat).getD 0 ∧
    (∀ k < 8, field (0x80 + 2 * k) 2 = band k) ∧ field 0x90 8 = tp.seq % 2 ^ 64 ∧ field 0x98 104 = 0 ∧
    (∀ first, recSaves c j first → ∀ x < recLines c j first, ∀ k < (recForm j first).2,
      let (f, n) := recForm j first
      let start := 256 * (1 + (if first then 0 else recOperandUnits c j true))
      let line := (List.range (elemBytes f n)).map fun i => l2Read u (nth pas (start + x * elemBytes f n + i) 0)
      nth (unpackElems f n line) k 0 =
        if k < vkOf v then nth (c.descLine s (descOf (recDesc c j first)) x (vkOf v)) k 0 else 0) ∧
    (recSavesInput c j → ∀ t, recTile c j = some t → ∀ i < 256, ∀ k < 256,
      let n := if t.mode = .f64 then 8 else 4
      field (256 + n * (256 * i + k)) n = (t.get i k).bits % 2 ^ (8 * n))

/-- A tile store in its canonical form: tiles of their own slots, none of which two tiles cover. -/
def storeOk (ts : List Tile) : Bool :=
  (ts.all fun t => tileWf t && decide (t.slot % t.mode.span = 0) && decide (t.slot < 8)) &&
    decide (ts.Pairwise fun t u => ∀ x ∈ t.covers, x ∉ u.covers)

/-- The adjoint slot that the map of a TREV gives a forward slot (R308). -/
def barSlot (tp : TapeCtx) (n : Nat) : Option Nat :=
  let x := tp.map.toNat / 16 ^ n % 16
  if x < 8 then some x else none

/-- Element (i, k) of the adjoint tile of a forward slot; zero where the map gives none (R312). -/
def barAt (tp : TapeCtx) (ts : List Tile) (n i k : Nat) : Machine.Num :=
  match barSlot tp n with
  | some x => fmtF32.value ((tileAt ts x).get i k).bits
  | none => .fin false 0 0

/-- The adjoint tile of a forward slot becomes the elements `f` of it. -/
def BarBecomes (tp : TapeCtx) (ts ts' : List Tile) (n : Nat) (f : Tile → Nat → Nat → Elem) : Prop :=
  ∀ x, barSlot tp n = some x → ∀ i < 256, ∀ k < 256, (tileAt ts' x).get i k = f (tileAt ts x) i k

/-- The elements of a gradient of some lines become `f` of theirs, and the other elements of its tile stay. -/
def GradBecomes (ts ts' : List Tile) (g : Grad) (lines elems : Nat) (f : TileMode → Nat → Nat → Elem → Elem) : Prop :=
  ∀ i < 256, ∀ k < 256,
    let old := (tileAt ts g.slot).get i k
    (tileAt ts' g.slot).get i k =
      if g.row ≤ i ∧ i < g.row + lines ∧ g.col ≤ k ∧ k < g.col + elems
      then f (tileAt ts g.slot).mode (i - g.row) (k - g.col) old else old

/-- Every slot of the store that none of these tiles covers is as it was. -/
def OtherSlots (ts ts' : List Tile) (used : List (Option Nat)) : Prop :=
  ∀ x < 8, (∀ n, some n ∈ used → x ∉ (tileAt ts n).covers) → tileAt ts' x = tileAt ts x

/-- The gradients of a record lie in the store apart from an adjoint tile and from each other (R310). -/
def gradsApart (ts : List Tile) (bar : Option Nat) (gs : List Grad) : Prop :=
  (∀ g ∈ gs, (tileAt ts g.slot).slot = g.slot ∧ g.slot < 8 ∧ ∀ x, bar = some x → x ∉ (tileAt ts g.slot).covers) ∧
    (gs.map fun g => g.slot).Nodup

/-- A step of TREV at a record with the header `h` leaves a tile store of which `p` holds, moves the TREV to the previous record, and
writes no memory (R309). -/
def Reverses (j : Instr) (s : State) (c : TrowelIssue) (h : TapeHdr) (p : List Tile → Prop) : Prop :=
  ∃ t tm w, Machine.exec j s = .next t ∧ SameMemory s t ∧ t.team? c.uid = some tm ∧ tm = { c.team with trowel := some w } ∧
    (∃ fl : TFlags, w = { c.w with
      tiles := w.tiles, tflags := c.w.tflags ||| fl.setWidth 32
      tape := { c.w.tape with expect := some h.seq, revptr := BitVec.ofNat 57 (h.prev / 256 * 256) } }) ∧ p w.tiles

/-- The gradient that a match finds, if any. -/
def Machine.Match.grads (m : Match) : List Grad :=
  match m with
  | .found g => [g]
  | _ => []

/-- An adjoint element times exact factors, rounded once (R314). -/
def timesOnce (x : Elem) (fs : List Machine.Num) : Elem :=
  bitsElem (fmtF32.result .rne (fs.foldl (fun a v => (exactProduct a v).1) (fmtF32.value x.bits))).1

/-- What TREV makes of the tiles at a record of `i` with valid counts `v` (Table 12.9, R311 to R313): the gradients found take their
contributions before T̄ changes, an operand with no gradient takes none, and a fault leaves all as it stands. `replay` tells whether
there is a replay group. -/
def AdjointOf (j : Instr) (replay : Bool) (i : Instr) (s : State) (c : TrowelIssue) (h : TapeHdr) (v : Valid) : Prop :=
  let tp := c.w.tape
  let ts := c.w.tiles
  let found (d : BitVec 128) (n e : Nat) : Match := matchOperand (tp.binds.map bindingOf) d n e
  let bar := barSlot tp
  let become := Reverses j s c h
  let faults : Prop := TrowelHalts j s c 0x0204 0
  let zero : Elem := {}
  let times (t : Tile) (i k : Nat) : Elem := timesOnce (t.get i k) (h.bandFactors i k)
  match i with
  | .tzero _ _ => become fun ts' => (∀ n ∈ h.covers i, BarBecomes tp ts ts' n fun _ _ _ => zero) ∧
      OtherSlots ts ts' ((h.covers i).map bar)
  | .tld _ sl _ =>
    let m := found h.desc1 v.vr v.vc
    let n := sl.toNat
    (m.isFault → faults) ∧ (m.isFault = false → gradsApart ts (bar n) m.grads → become fun ts' =>
      (∀ g ∈ m.grads, GradBecomes ts ts' g v.vr v.vc fun md i k x => if h.isInt then x else (enterOne (barAt tp ts n i k) md x).1) ∧
      BarBecomes tp ts ts' n (fun _ _ _ => zero) ∧ OtherSlots ts ts' (bar n :: m.grads.map fun g => some g.slot))
  | .tst _ _ sl _ _ _ =>
    let m := found h.desc1 v.vr v.vc
    let n := sl.toNat
    (m.isFault → faults) ∧ (m.isFault = false → gradsApart ts (bar n) m.grads → become fun ts' =>
      (m.grads = [] → ts' = ts) ∧
      ∀ g ∈ m.grads, GradBecomes ts ts' g v.vr v.vc (fun _ _ _ _ => zero) ∧
        BarBecomes tp ts ts' n (fun t i k =>
          let read := (gradRead (tileAt ts g.slot).mode ((tileAt ts g.slot).get (g.row + i) (g.col + k))).1
          if h.isInt ∨ ¬ (i < v.vr ∧ k < v.vc) then t.get i k
          else (enterOne ((h.bandFactors i k).foldl (fun a b => (exactProduct a b).1) read) .f32 (t.get i k)).1) ∧
        OtherSlots ts ts' [bar n, some g.slot])
  | .tcpy _ _ _ _ | .tldm _ _ _ _ =>
    let md := found h.desc1 v.vr v.vc
    let ms := found h.desc2 v.vr v.vc
    (md.isFault ∨ ms.isFault → faults) ∧
    (md.isFault = false → ms.isFault = false → gradsApart ts none (md.grads ++ ms.grads) → become fun ts' =>
      (md.grads = [] → ts' = ts) ∧
      ∀ g ∈ md.grads, GradBecomes ts ts' g v.vr v.vc (fun _ _ _ _ => zero) ∧
        (∀ gs ∈ ms.grads, GradBecomes ts ts' gs v.vr v.vc fun m i k x =>
          (enterOne (gradRead (tileAt ts g.slot).mode ((tileAt ts g.slot).get (g.row + i) (g.col + k))).1 m x).1) ∧
        OtherSlots ts ts' (some g.slot :: ms.grads.map fun g => some g.slot))
  | .mma f _ sl _ _ =>
    let fa := (mmaForm f.toNat).1
    let fb := (mmaForm f.toNat).2.1
    let n := sl.toNat
    let ma := if h.flag 2 then Match.discarded else found h.desc1 v.vr v.vk
    let mb := if h.flag 3 then Match.discarded else found h.desc2 v.vc v.vk
    let exact (m : Match) : Prop := ∃ g ∈ m.grads, (tileAt ts g.slot).mode = .exact
    let narrow (gen : Bool) (g : BitVec 256) (fmt : Nat) : Prop := (if gen then genFmt g else fmt) = 4 ∨ (if gen then genFmt g else fmt) = 5
    let wrong : Prop := (exact ma ∧ ¬ narrow (h.flag 3) h.gimg2 fb) ∨ (exact mb ∧ ¬ narrow (h.flag 2) h.gimg1 fa)
    let isInt : Prop := f = 4 ∨ f = 5
    (ma.isFault ∨ mb.isFault → faults) ∧
    (ma.isFault = false → mb.isFault = false →
      (isInt → become fun ts' => ts' = ts) ∧ (¬ isInt → wrong → faults) ∧
      (¬ isInt → ¬ wrong → gradsApart ts (bar n) (ma.grads ++ mb.grads) →
        ∀ a b s1, c.recordSides h mb.isFound ma.isFound false f.toNat v s = .ok ((a, b), s1) → become fun ts' =>
          (∀ g ∈ ma.grads, GradBecomes ts ts' g v.vr v.vk fun m i e x =>
            (enterSum (decide (f = 15)) (unitOf b.fmt) ((List.range v.vc).map fun j => (barAt tp ts n i j, b.value j e)) m x).1) ∧
          (∀ g ∈ mb.grads, GradBecomes ts ts' g v.vc v.vk fun m j e x =>
            (enterSum (decide (f = 15)) (unitOf a.fmt) ((List.range v.vr).map fun i => (barAt tp ts n i j, a.value i e)) m x).1) ∧
          OtherSlots ts ts' ((ma.grads ++ mb.grads).map fun g => some g.slot)))
  | .tscl sl _ => become fun ts' =>
      BarBecomes tp ts ts' sl.toNat (fun t i k => timesOnce (t.get i k)
        [if h.mode = .f64 then fmtF64.value h.scal.toNat else fmtF32.value (h.scal.toNat % 2 ^ 32)]) ∧
      OtherSlots ts ts' [bar sl.toNat]
  | .tbias sl _ q =>
    let m := found h.desc1 1 256
    let n := sl.toNat
    (m.isFault → faults) ∧ (m.isFault = false → gradsApart ts (bar n) m.grads → become fun ts' =>
      (∀ g ∈ m.grads, GradBecomes ts ts' g 1 256 fun md _ e x =>
        (enterSum (decide (h.mode = .f64)) 0
          ((List.range 256).map fun r => (if q = 1 then barAt tp ts n e r else barAt tp ts n r e, .fin false 1 0)) md x).1) ∧
      OtherSlots ts ts' (m.grads.map fun g => some g.slot))
  | .tact sl kind =>
    let w := if h.mode = .f64 then 8 else 4
    let input := h.addr + 256
    (h.flag 5 → replay = false → faults) ∧
    (h.flag 4 → h.flag 5 = false → tapeReady s c .r input (65536 * w) → become fun ts' =>
      BarBecomes tp ts ts' sl.toNat (fun t i k =>
        timesOnce (t.get i k)
          [(derivative kind.toNat h.mode.fmt (numAt s (tapePas s c input (65536 * w)) (w * (256 * i + k)) w)).1]) ∧
      OtherSlots ts ts' [bar sl.toNat])
  | .txpose sl => become fun ts' => BarBecomes tp ts ts' sl.toNat (fun t i k => t.get k i) ∧ OtherSlots ts ts' [bar sl.toNat]
  | .tcvt sl _ => become fun ts' =>
      BarBecomes tp ts ts' sl.toNat times ∧
      (∀ n ∈ spanSlots h.mode sl.toNat, n ≠ sl.toNat → BarBecomes tp ts ts' n fun _ _ _ => zero) ∧
      OtherSlots ts ts' (bar sl.toNat :: (spanSlots h.mode sl.toNat).map bar)
  | .tred sl q => become fun ts' =>
      BarBecomes tp ts ts' sl.toNat (fun t i k => if q = 1 then t.get i 0 else t.get 0 k) ∧ OtherSlots ts ts' [bar sl.toNat]
  | _ => True


/-! ### Events -/

/-- A Lath frame that arrives in order, without an error, and well formed (R430). -/
abbrev frameOk (f : LathIn) (s : State) : Prop :=
  s.firmware.powered = true ∧ f.crcOk = true ∧ f.hdr.seq = s.lath.rxSeq ∧ f.formOk = true

/-- The state once a frame has been received: the next frame number is expected. -/
def received (s : State) : State := { s with lath := { s.lath with rxSeq := s.lath.rxSeq + 1 } }

/-- The state once a frame's ACK has been sent. -/
def acked (f : LathIn) (s : State) : State :=
  { s with lath := { s.lath with sent := s.lath.sent ++ [{ ty := 0x30, seq := f.hdr.seq, addr := 0, status := 0, payload := [] }] } }

/-- A numbered frame sent while fewer than 256 are unacknowledged and none waits. -/
def sends (ty : Byte) (addr : BitVec 64) (status : Byte) (payload : List Byte) (s : State) : State :=
  let f : LathFrame := { ty := ty, seq := s.lath.txSeq, addr := addr, status := status, payload := payload }
  { s with lath := { s.lath with txSeq := s.lath.txSeq + 1, unacked := s.lath.unacked ++ [f], sent := s.lath.sent ++ [f] } }

/-- A frame sent now goes out at once. -/
abbrev linkFree (s : State) : Prop := s.lath.unacked.length < 256 ∧ s.lath.backlog = []

/-- The event is about a register write frame to an offset of the register space, and the frame is accepted. -/
abbrev writesReg (f : LathIn) (s : State) (off : Nat) : Prop :=
  s.arg = .frame f ∧ frameOk f s ∧ f.hdr.ty = 0x02 ∧ f.hdr.addr.toNat = off

/-- An event counter (R432). -/
def counterOf (s : State) (n : Nat) : BitVec 64 := (mapGet s.counters n).getD 0

/-- A link in STATE 1: training, with RETRAINS one more where it has trained before (R445). -/
def trains (k : Link) : Link :=
  { k with state := 1, trained := true, retrains := if k.trained ∧ k.retrains ≠ 0xFFFF then k.retrains + 1 else k.retrains }


/-! ### Steps and invariants -/

/-- What a step makes of what its agent's move comes to: after a next state, time passes. -/
def afterMove (o : Host.Outcome State Fault Refusal) : Host.Outcome State Fault Refusal :=
  match o with
  | .next s => .next (passTime s)
  | .fault f => .fault f
  | .refused r => .refused r

/-- Every tile of a team's Trowel is in its canonical form. -/
def teamTilesWf (t : Team) : Bool := match t.trowel with
  | some w => w.tiles.all tileWf
  | none => true

/-- Every memory is in its canonical form: the physical memory; Hawk, column and tiles of every team, resident or saved; and every
core's L1. -/
def MemoriesOk (s : State) : Prop :=
  memWf s ∧ (∀ t ∈ s.teams, teamMemWf t ∧ teamTilesWf t) ∧
    (∀ g ∈ s.grids, ∀ x ∈ g.suspended ++ g.snapshots, teamMemWf x.team ∧ teamTilesWf x.team) ∧ ∀ k ∈ s.cores, l1Wf k.2

end Sys2Proof
end

