-- ==== Sys2Proof/Certificates/Slice0/Obligations.lean ====
section
/-! DEFINITION. The statements for the provers. Each docstring names the rules of the spec it formalises, and the log entry where a
clause is a choice of the model. The terms they are stated in are those of Safety. -/

open Sys2Proof Sys2Proof.Machine

/-- ADD, SUB, ADDSAT, SUBSAT, MIN, MAX, ABS, NEG and MOV, 32-bit and on pairs, and ADDI write the value of Table 7.1 to their
destination and change nothing else (R165, R166). The logical operations, shifts and rotations of Table 7.2: a shift of the width
or more gives 0, or copies of the sign for SHR.S (R168). -/
def Obligations.IntegerAndLogicResults : Prop :=
  (∀ (d a b : BitVec 7) (i : BitVec 12),
     Computes (.add 0 d a b) (fun _ c => dest32 c d fun p => c.src a p + c.src b p) ∧
     Computes (.add 1 d a b) (fun _ c => dest64 c d fun p => c.src64 a p + c.src64 b p) ∧
     Computes (.sub 0 d a b) (fun _ c => dest32 c d fun p => c.src a p - c.src b p) ∧
     Computes (.sub 1 d a b) (fun _ c => dest64 c d fun p => c.src64 a p - c.src64 b p) ∧
     Computes (.addsat 0 0 d a b) (fun _ c => dest32 c d fun p => nearestS 32 ((c.src a p).toInt + (c.src b p).toInt)) ∧
     Computes (.addsat 1 0 d a b) (fun _ c => dest64 c d fun p => nearestS 64 ((c.src64 a p).toInt + (c.src64 b p).toInt)) ∧
     Computes (.addsat 0 1 d a b) (fun _ c => dest32 c d fun p => nearestU 32 ((c.src a p).toNat + (c.src b p).toNat : Int)) ∧
     Computes (.addsat 1 1 d a b) (fun _ c => dest64 c d fun p => nearestU 64 ((c.src64 a p).toNat + (c.src64 b p).toNat : Int)) ∧
     Computes (.subsat 0 0 d a b) (fun _ c => dest32 c d fun p => nearestS 32 ((c.src a p).toInt - (c.src b p).toInt)) ∧
     Computes (.subsat 1 0 d a b) (fun _ c => dest64 c d fun p => nearestS 64 ((c.src64 a p).toInt - (c.src64 b p).toInt)) ∧
     Computes (.subsat 0 1 d a b) (fun _ c => dest32 c d fun p => nearestU 32 ((c.src a p).toNat - (c.src b p).toNat : Int)) ∧
     Computes (.subsat 1 1 d a b) (fun _ c => dest64 c d fun p => nearestU 64 ((c.src64 a p).toNat - (c.src64 b p).toNat : Int)) ∧
     Computes (.min 0 0 d a b) (fun _ c => dest32 c d fun p => BitVec.ofInt 32 (min (c.src a p).toInt (c.src b p).toInt)) ∧
     Computes (.min 1 0 d a b) (fun _ c => dest64 c d fun p => BitVec.ofInt 64 (min (c.src64 a p).toInt (c.src64 b p).toInt)) ∧
     Computes (.min 0 1 d a b) (fun _ c => dest32 c d fun p => BitVec.ofNat 32 (min (c.src a p).toNat (c.src b p).toNat)) ∧
     Computes (.min 1 1 d a b) (fun _ c => dest64 c d fun p => BitVec.ofNat 64 (min (c.src64 a p).toNat (c.src64 b p).toNat)) ∧
     Computes (.max 0 0 d a b) (fun _ c => dest32 c d fun p => BitVec.ofInt 32 (max (c.src a p).toInt (c.src b p).toInt)) ∧
     Computes (.max 1 0 d a b) (fun _ c => dest64 c d fun p => BitVec.ofInt 64 (max (c.src64 a p).toInt (c.src64 b p).toInt)) ∧
     Computes (.max 0 1 d a b) (fun _ c => dest32 c d fun p => BitVec.ofNat 32 (max (c.src a p).toNat (c.src b p).toNat)) ∧
     Computes (.max 1 1 d a b) (fun _ c => dest64 c d fun p => BitVec.ofNat 64 (max (c.src64 a p).toNat (c.src64 b p).toNat)) ∧
     Computes (.abs 0 d a) (fun _ c => dest32 c d fun p => BitVec.ofInt 32 (c.src a p).toInt.natAbs) ∧
     Computes (.abs 1 d a) (fun _ c => dest64 c d fun p => BitVec.ofInt 64 (c.src64 a p).toInt.natAbs) ∧
     Computes (.neg 0 d a) (fun _ c => dest32 c d fun p => BitVec.ofInt 32 (-(c.src a p).toInt)) ∧
     Computes (.neg 1 d a) (fun _ c => dest64 c d fun p => BitVec.ofInt 64 (-(c.src64 a p).toInt)) ∧
     Computes (.mov 0 d a) (fun _ c => dest32 c d fun p => c.src a p) ∧
     Computes (.mov 1 d a) (fun _ c => dest64 c d fun p => c.src64 a p) ∧
     Computes (.addi d a i) (fun _ c => dest32 c d fun p => BitVec.ofInt 32 ((c.src a p).toInt + i.toInt))) ∧
  (∀ d a b : BitVec 7,
     Computes (.and d a b) (fun _ c => dest32 c d fun p => c.src a p &&& c.src b p) ∧
     Computes (.or d a b) (fun _ c => dest32 c d fun p => c.src a p ||| c.src b p) ∧
     Computes (.xor d a b) (fun _ c => dest32 c d fun p => c.src a p ^^^ c.src b p) ∧
     Computes (.andn d a b) (fun _ c => dest32 c d fun p => c.src a p &&& ~~~(c.src b p)) ∧
     Computes (.orn d a b) (fun _ c => dest32 c d fun p => c.src a p ||| ~~~(c.src b p)) ∧
     Computes (.not d a) (fun _ c => dest32 c d fun p => ~~~(c.src a p)) ∧
     Computes (.shl d a b) (fun _ c => dest32 c d fun p => shiftUp 32 (c.src a p).toNat (c.src b p).toNat) ∧
     Computes (.shrU d a b) (fun _ c => dest32 c d fun p => shiftDown 32 (c.src a p).toNat (c.src b p).toNat) ∧
     Computes (.shrS d a b) (fun _ c => dest32 c d fun p => shiftDown 32 (c.src a p).toInt (c.src b p).toNat) ∧
     Computes (.rol d a b) (fun _ c => dest32 c d fun p => (c.src a p).rotateLeft ((c.src b p).toNat % 32)) ∧
     Computes (.ror d a b) (fun _ c => dest32 c d fun p => (c.src a p).rotateRight ((c.src b p).toNat % 32)) ∧
     Computes (.shl64 d a b) (fun _ c => dest64 c d fun p => shiftUp 64 (c.src64 a p).toNat (c.src b p).toNat) ∧
     Computes (.shr64U d a b) (fun _ c => dest64 c d fun p => shiftDown 64 (c.src64 a p).toNat (c.src b p).toNat) ∧
     Computes (.shr64S d a b) (fun _ c => dest64 c d fun p => shiftDown 64 (c.src64 a p).toInt (c.src b p).toNat))

/-- The bit counts and bit reversal of Table 7.2 (R168), and FLDX, FLDI and BYSEL, bit by bit (R169). The multiplies of Table 7.3,
which wrap (R170), and the divides, with the cases of a divisor of 0 and of the quotient that overflows (R171, Table 7.4). -/
def Obligations.FieldMultiplyDivideResults : Prop :=
  (∀ d a b : BitVec 7,
     Computes (.popc d a) (fun _ c => dest32 c d fun p =>
       BitVec.ofNat 32 ((List.range 32).filter fun i => (c.src a p).getLsbD i).length) ∧
     Computes (.clz d a) (fun _ c => dest32 c d fun p =>
       BitVec.ofNat 32 ((List.range 32).takeWhile fun i => !(c.src a p).getLsbD (31 - i)).length) ∧
     Computes (.ctz d a) (fun _ c => dest32 c d fun p =>
       BitVec.ofNat 32 ((List.range 32).takeWhile fun i => !(c.src a p).getLsbD i).length) ∧
     Computes (.brev d a) (fun _ c => dest32 c d fun p => BitVec.ofFnLE fun i : Fin 32 => (c.src a p).getLsbD (31 - i.val)) ∧
     Computes (.fldxU d a b) (fun _ c => dest32 c d fun p =>
       BitVec.ofFnLE fun i : Fin 32 => decide (i.val < lenOf (c.src b p)) && (c.src a p).getLsbD (posOf (c.src b p) + i.val)) ∧
     Computes (.fldxS d a b) (fun _ c => dest32 c d fun p =>
       BitVec.ofFnLE fun i : Fin 32 => decide (0 < lenOf (c.src b p)) &&
         (c.src a p).getLsbD (posOf (c.src b p) + min i.val (lenOf (c.src b p) - 1))) ∧
     Computes (.fldi d a b) (fun _ c => dest32 c d fun p =>
       BitVec.ofFnLE fun i : Fin 32 =>
         if posOf (c.src b p) ≤ i.val ∧ i.val < posOf (c.src b p) + lenOf (c.src b p)
         then (c.src a p).getLsbD (i.val - posOf (c.src b p)) else (c.src (c.thirdOr d p) p).getLsbD i.val) ∧
     Computes (.bysel d a b) (fun _ c => dest32 c d fun p =>
       BitVec.ofFnLE fun i : Fin 32 =>
         let sel := (c.src b p).extractLsb' (4 * (i.val / 8)) 4
         let byte := 8 * (sel.toNat % 4)
         !sel.getLsbD 3 && (c.src a p).getLsbD (if sel.getLsbD 2 then byte + 7 else byte + i.val % 8))) ∧
  (∀ d a b : BitVec 7,
     Computes (.mul d a b) (fun _ c => dest32 c d fun p => BitVec.ofNat 32 ((c.src a p).toNat * (c.src b p).toNat)) ∧
     Computes (.mulhiS d a b) (fun _ c => dest32 c d fun p => BitVec.ofInt 32 ((c.src a p).toInt * (c.src b p).toInt / 2 ^ 32)) ∧
     Computes (.mulhiU d a b) (fun _ c => dest32 c d fun p => BitVec.ofNat 32 ((c.src a p).toNat * (c.src b p).toNat / 2 ^ 32)) ∧
     Computes (.mulwS d a b) (fun _ c => dest64 c d fun p => BitVec.ofInt 64 ((c.src a p).toInt * (c.src b p).toInt)) ∧
     Computes (.mulwU d a b) (fun _ c => dest64 c d fun p => BitVec.ofNat 64 ((c.src a p).toNat * (c.src b p).toNat)) ∧
     Computes (.mad d a b) (fun _ c => dest32 c d fun p =>
       BitVec.ofNat 32 ((c.src a p).toNat * (c.src b p).toNat + (c.src (c.thirdOr d p) p).toNat)) ∧
     Computes (.mul64 d a b) (fun _ c => dest64 c d fun p => BitVec.ofNat 64 ((c.src64 a p).toNat * (c.src64 b p).toNat)) ∧
     Computes (.mulhi64S d a b) (fun _ c => dest64 c d fun p => BitVec.ofInt 64 ((c.src64 a p).toInt * (c.src64 b p).toInt / 2 ^ 64)) ∧
     Computes (.mulhi64U d a b) (fun _ c => dest64 c d fun p => BitVec.ofNat 64 ((c.src64 a p).toNat * (c.src64 b p).toNat / 2 ^ 64)) ∧
     Computes (.divS d a b) (fun _ c => dest32 c d fun p =>
       if c.src b p = 0 then BitVec.allOnes 32 else BitVec.ofInt 32 ((c.src a p).toInt.tdiv (c.src b p).toInt)) ∧
     Computes (.divU d a b) (fun _ c => dest32 c d fun p =>
       if c.src b p = 0 then BitVec.allOnes 32 else BitVec.ofNat 32 ((c.src a p).toNat / (c.src b p).toNat)) ∧
     Computes (.remS d a b) (fun _ c => dest32 c d fun p =>
       if c.src b p = 0 then c.src a p else BitVec.ofInt 32 ((c.src a p).toInt.tmod (c.src b p).toInt)) ∧
     Computes (.remU d a b) (fun _ c => dest32 c d fun p =>
       if c.src b p = 0 then c.src a p else BitVec.ofNat 32 ((c.src a p).toNat % (c.src b p).toNat)) ∧
     Computes (.div64S d a b) (fun _ c => dest64 c d fun p =>
       if c.src64 b p = 0 then BitVec.allOnes 64 else BitVec.ofInt 64 ((c.src64 a p).toInt.tdiv (c.src64 b p).toInt)) ∧
     Computes (.div64U d a b) (fun _ c => dest64 c d fun p =>
       if c.src64 b p = 0 then BitVec.allOnes 64 else BitVec.ofNat 64 ((c.src64 a p).toNat / (c.src64 b p).toNat)) ∧
     Computes (.rem64S d a b) (fun _ c => dest64 c d fun p =>
       if c.src64 b p = 0 then c.src64 a p else BitVec.ofInt 64 ((c.src64 a p).toInt.tmod (c.src64 b p).toInt)) ∧
     Computes (.rem64U d a b) (fun _ c => dest64 c d fun p =>
       if c.src64 b p = 0 then c.src64 a p else BitVec.ofNat 64 ((c.src64 a p).toNat % (c.src64 b p).toNat)))

/-- ICMP by type and relation (R172), the predicate instructions (R173), and LEA (R167). -/
def Obligations.CompareAndPredicateResults : Prop :=
  (∀ (r q : BitVec 3) (a b : BitVec 7),
    Computes (.icmp 0 r q a b) (fun _ c => predEffect c q fun p => relates r (c.src a p).toInt (c.src b p).toInt) ∧
    Computes (.icmp 1 r q a b) (fun _ c => predEffect c q fun p => relates r (c.src a p).toNat (c.src b p).toNat) ∧
    Computes (.icmp 2 r q a b) (fun _ c => predEffect c q fun p => relates r (c.src64 a p).toInt (c.src64 b p).toInt) ∧
    Computes (.icmp 3 r q a b) (fun _ c => predEffect c q fun p => relates r (c.src64 a p).toNat (c.src64 b p).toNat)) ∧
  (∀ (q a b : BitVec 3) (n m : BitVec 1) (d v : BitVec 7),
    Computes (.pand q n a m b) (fun _ c => predEffect c q fun p => c.pred n a p && c.pred m b p) ∧
    Computes (.por q n a m b) (fun _ c => predEffect c q fun p => c.pred n a p || c.pred m b p) ∧
    Computes (.pxor q n a m b) (fun _ c => predEffect c q fun p => xor (c.pred n a p) (c.pred m b p)) ∧
    Computes (.pmov q n a) (fun _ c => predEffect c q fun p => c.pred n a p) ∧
    Computes (.ptov d n a) (fun _ c => dest32 c d fun p => if c.pred n a p then 1 else 0) ∧
    Computes (.vtop q v) (fun _ c => predEffect c q fun p => decide (c.src v p ≠ 0))) ∧
  ∀ (k : Fin 5) (d a b : BitVec 7),
    Computes (.lea (BitVec.ofNat 5 k) d a b) (fun _ c => dest64 c d fun p =>
      BitVec.ofInt 64 ((c.src64 a p).toInt + (c.src b p).toInt * 2 ^ k.val)) ∧
    Computes (.lea (BitVec.ofNat 5 (k + 5)) d a b) (fun _ c => dest64 c d fun p =>
      BitVec.ofNat 64 ((c.src64 a p).toNat + (c.src b p).toNat * 2 ^ k.val))

/-- FADD, FSUB, FMUL and FMA of every format write the exact result of the operands' values rounded once, by the mode of their
member context, and OR its flags into FPM; SRC3 supplies FMA's addend where it is bound, else the old d (R187, R110). FMIN,
FMAX, FABS, FNEG, FCPYS, FCLASS and FSCALE of every format (R189), and FCMP by relation (R190). Tininess is judged as log 22
has it. -/
def Obligations.FloatArithmeticResults : Prop :=
  (∀ (t : BitVec 2) (m : BitVec 3) (d a b : BitVec 7),
     let n := regsOfArith t
     let f := typeFmt t
     ComputesFlags (.fadd t m d a b) d n (fun c p => fpArith f .add (c.mode m false p) (c.fsrc f a n p) (c.fsrc f b n p) 0) ∧
     ComputesFlags (.fsub t m d a b) d n (fun c p => fpArith f .sub (c.mode m false p) (c.fsrc f a n p) (c.fsrc f b n p) 0) ∧
     ComputesFlags (.fmul t m d a b) d n (fun c p => fpArith f .mul (c.mode m false p) (c.fsrc f a n p) (c.fsrc f b n p) 0) ∧
     ComputesFlags (.fma t m d a b) d n (fun c p =>
       fpArith f .fma (c.mode m false p) (c.fsrc f a n p) (c.fsrc f b n p) (c.fsrc f (c.thirdOr d p) n p))) ∧
  (∀ (t : BitVec 2) (r q : BitVec 3) (d a b : BitVec 7),
     let n := regsOfType t
     let f := typeFmt t
     ComputesFlags (.fmin t d a b) d n (fun c p => fpExtreme f false (c.fsrc f a n p) (c.fsrc f b n p)) ∧
     ComputesFlags (.fmax t d a b) d n (fun c p => fpExtreme f true (c.fsrc f a n p) (c.fsrc f b n p)) ∧
     Computes (.fabs t d a) (fun _ c => destNat c d n fun p => c.fsrc f a n p % f.signBit) ∧
     Computes (.fneg t d a) (fun _ c => destNat c d n fun p =>
       if c.fsrc f a n p < f.signBit then c.fsrc f a n p + f.signBit else c.fsrc f a n p - f.signBit) ∧
     Computes (.fcpys t d a b) (fun _ c => destNat c d n fun p =>
       c.fsrc f a n p % f.signBit + (if c.fsrc f b n p < f.signBit then 0 else f.signBit)) ∧
     Computes (.fclass t d a) (fun _ c => destNat c d 1 fun p => 2 ^ fpClass f (c.fsrc f a n p)) ∧
     ComputesFlags (.fscale t d a b) d n (fun c p => fpScale f (c.mode 0 false p) (c.fsrc f a n p) (c.src b p).toInt) ∧
     Computes (.fcmp r t q a b) (fun _ c => andThenEffect
       (predEffect c q fun p => (fpCompare f r (c.fsrc f a n p) (c.fsrc f b n p)).1)
       (flagEffect c fun p => (fpCompare f r (c.fsrc f a n p) (c.fsrc f b n p)).2)))

/-- A rounded result of finite, nonzero magnitude m × 2^e that does not overflow lies where its mode puts it: RTZ never above the
exact magnitude and less than one step below it; RUP and RDN on the side of their sign; RNE and RNA at most half a step away, RNE
on an even pattern at a tie and RNA on the larger; and NX is raised exactly when it is not equal (R38 to R43). -/
def Obligations.RoundingChoosesANeighbour : Prop :=
  ∀ (f : Fmt) (mode : RMode) (neg satn : Bool) (m : Nat) (e : Int) (k : Nat),
    f ∈ [fmtF64, fmtF32, fmtF16, fmtBF16, fmtE4M3, fmtE5M2, fmtE2M1] → 0 < m →
    (f.round mode 0 satn neg m e).2 &&& flagOF = 0 →
    (f.round mode 0 satn neg m e).1 = (if neg then f.signBit else 0) + k → k < f.signBit →
    let x : ℚ := m * 2 ^ e
    let v := magnitude f k
    let up := magnitude f (k + 1)
    let down := magnitude f (k - 1)
    ((f.round mode 0 satn neg m e).2 &&& flagNX = 0 ↔ v = x) ∧
    (mode = .rtz ∨ (mode = .rup ∧ neg) ∨ (mode = .rdn ∧ !neg) → v ≤ x ∧ x < up) ∧
    ((mode = .rup ∧ !neg) ∨ (mode = .rdn ∧ neg) → x ≤ v ∧ (0 < k → down < x)) ∧
    (mode = .rne → 2 * x ≤ v + up ∧ (0 < k → v + down ≤ 2 * x) ∧ ((2 * x = v + up ∨ (0 < k ∧ 2 * x = v + down)) → k % 2 = 0)) ∧
    (mode = .rna → 2 * x < v + up ∧ (0 < k → v + down ≤ 2 * x))

/-- `fp_arith` of R187: on finite operands the exact sum, difference, product or fused sum rounded once, with the sign of an exact
zero; a NaN operand gives the canonical NaN, and NV exactly where one of them is signalling; 0 × ∞ and ∞ − ∞ give the canonical
NaN with NV; and every other operation on an infinity gives an infinity. The operations of Table 8.2 on bit patterns: FMIN and
FMAX by the order of R59, the class of Table 8.3, and a × 2^n rounded once; and FCMP by its relation (R189, R190). -/
def Obligations.FloatSpecialCases : Prop :=
  (∀ (t : BitVec 2) (mode : RMode) (a b c : Nat),
    let f := typeFmt t
    let x := f.value a
    let y := f.value b
    let z := f.value c
    let nan (v : Bool) : Nat × FFlags := (f.qnan, if v then flagNV else 0)
    let zeroInf : Prop := (x.isZero ∧ y.isInf) ∨ (x.isInf ∧ y.isZero)
    let zeroSum (m n : Bool) : Bool := if m = n then m else decide (mode = .rdn)
    ((x.isNan ∨ y.isNan) → ∀ op ∈ [FpOp.add, .sub, .mul], fpArith f op mode a b c = nan (x.isSnan || y.isSnan)) ∧
    (¬ zeroInf → (x.isNan ∨ y.isNan ∨ z.isNan) → fpArith f .fma mode a b c = nan (x.isSnan || y.isSnan || z.isSnan)) ∧
    (zeroInf → fpArith f .mul mode a b c = nan true ∧ fpArith f .fma mode a b c = nan true) ∧
    (∀ s, x = .inf s → (y = .inf (!s) → fpArith f .add mode a b c = nan true) ∧ (y = .inf s → fpArith f .sub mode a b c = nan true) ∧
      ((exactValue y).isSome ∨ y = .inf s → fpArith f .add mode a b c = (infOf f s, 0)) ∧
      ((exactValue y).isSome ∨ y = .inf (!s) → fpArith f .sub mode a b c = (infOf f s, 0))) ∧
    (∀ s, y = .inf s → (exactValue x).isSome →
      fpArith f .add mode a b c = (infOf f s, 0) ∧ fpArith f .sub mode a b c = (infOf f (!s), 0)) ∧
    (x.isInf ∨ y.isInf → ¬ zeroInf → x.isNan = false → y.isNan = false →
      let s := x.neg? != y.neg?
      fpArith f .mul mode a b c = (infOf f s, 0) ∧ ((exactValue z).isSome ∨ z = .inf s → fpArith f .fma mode a b c = (infOf f s, 0)) ∧
        (z = .inf (!s) → fpArith f .fma mode a b c = nan true)) ∧
    ∀ p q, exactValue x = some p → exactValue y = some q →
      let rounds (op : FpOp) (v : ℚ) (zero : Bool) : Prop := (v = 0 → fpArith f op mode a b c = (zeroOf f zero, 0)) ∧
        ∀ neg m e, 0 < m → v = ratOf neg m e → fpArith f op mode a b c = f.round mode 0 false neg m e
      rounds .add (p + q) (zeroSum x.neg? y.neg?) ∧ rounds .sub (p - q) (zeroSum x.neg? (!y.neg?)) ∧
        rounds .mul (p * q) (x.neg? != y.neg?) ∧
        (∀ r, exactValue z = some r → rounds .fma (p * q + r) (zeroSum (x.neg? != y.neg?) z.neg?)) ∧
        ∀ s, z = .inf s → fpArith f .fma mode a b c = (infOf f s, 0)) ∧
  (∀ (t : BitVec 2) (r : BitVec 3) (mode : RMode) (a b : Nat) (n : Int),
    let f := typeFmt t
    let x := f.value a
    let y := f.value b
    let nv : FFlags := if x.isSnan ∨ y.isSnan then flagNV else 0
    a < 2 * f.signBit → b < 2 * f.signBit →
    (∀ g, x.isNan → fpExtreme f g a b = (if y.isNan then f.qnan else b, nv)) ∧
    (∀ g, x.isNan = false → y.isNan → fpExtreme f g a b = (a, nv)) ∧
    (x.isNan = false → y.isNan = false →
      (keyBefore f b a → fpExtreme f false a b = (b, 0)) ∧ (¬ keyBefore f b a → fpExtreme f false a b = (a, 0)) ∧
      (keyBefore f a b → fpExtreme f true a b = (b, 0)) ∧ (¬ keyBefore f a b → fpExtreme f true a b = (a, 0)) ∧
      ((fpCompare f r a b).1 = true ↔ fcmpHolds r x y) ∧ (fpCompare f r a b).2 = 0) ∧
    (x.isNan ∨ y.isNan → fpCompare f r a b =
      (decide (r = 1 ∨ r = 6), if (2 ≤ r.toNat ∧ r.toNat ≤ 5) ∨ x.isSnan ∨ y.isSnan then flagNV else 0)) ∧
    fpClass f a = classBit f a ∧
    (x.isNan → fpScale f mode a n = (f.qnan, if x.isSnan then flagNV else 0)) ∧
    (x.isInf ∨ x.isZero → fpScale f mode a n = (a, 0)) ∧
    ∀ neg m e, x = .fin neg m e → 0 < m → fpScale f mode a n = f.round mode 0 false neg m (e + n))

/-- CVT between every two codes of Table 5.13: to a float format the value rounded once, an infinity as Table 2.5 and a NaN as R44
have it, to an integer the value rounded to an integer and then brought into range (R45, R191). The packs of a block into MX8, MX4
and TB4 words, with the scale and the elements of R192 and R193, and the unpacks of each lane's own word, the exact product rounded
once (R194). RCP, RSQ and SQRT rounded once, and the special operands of Table 8.5 (R195); the other operands of the
transcendentals are computed as log 10 has it. -/
def Obligations.ConversionAndUnaryResults : Prop :=
  (∀ (g k : BitVec 4) (m : BitVec 3) (d a : BitVec 7),
     ComputesFlags (.cvt g d a k m) d (regsOfCode g) (fun c p =>
       cvtResult g k (c.mode m (srOk (.cvt g d a k m)) p) (c.random p) (fpmSatn (c.fpm p)) (c.srcNat a (regsOfCode k) p))) ∧
  (∀ (g k : BitVec 4) (mode : RMode) (r24 : Nat) (satn : Bool) (bits : Nat), g ≠ 7 → k ≠ 7 →
     let x := cvtValue k bits
     let f := floatOf g
     let got := cvtResult g k mode r24 satn bits
     let w := intBits g
     let lo : Int := if g.toNat % 2 = 0 then -2 ^ (w - 1) else 0
     let hi : Int := if g.toNat % 2 = 0 then 2 ^ (w - 1) - 1 else 2 ^ w - 1
     let int (v : Int) (fl : FFlags) : Nat × FFlags := ((BitVec.ofInt 64 v).toNat, fl)
     (g.toNat < 7 →
       (x.isNan → got = (f.qnan, if x.isSnan ∨ f = fmtE2M1 then flagNV else 0)) ∧
       (∀ s, x = .inf s → got =
         if f = fmtE4M3 then (if satn then zeroOf f s + f.maxBits else f.qnan, flagNV)
         else if f = fmtE2M1 then (zeroOf f s + f.maxBits, flagNV) else (infOf f s, 0)) ∧
       ∀ neg m e, x = .fin neg m e → got = f.round mode r24 satn neg m e) ∧
     (8 ≤ g.toNat → mode ≠ .sr →
       (x.isNan → got = int 0 flagNV) ∧ (∀ s, x = .inf s → got = int (if s then lo else hi) flagNV) ∧
       ∀ q, exactValue x = some q →
         let v := roundedInt mode q
         got = if v < lo then int lo flagNV else if hi < v then int hi flagNV else int v (if (v : ℚ) = q then 0 else flagNX))) ∧
  (∀ (w : Nat) (mode : RMode) (v : Int), w ∈ [8, 16, 32, 64] →
     toInteger true w mode (Machine.Num.ofInt v) =
       (if v < -2 ^ (w - 1) then (-2 ^ (w - 1), flagNV) else if 2 ^ (w - 1) ≤ v then (2 ^ (w - 1) - 1, flagNV) else (v, 0)) ∧
     toInteger false w mode (Machine.Num.ofInt v) =
       (if v < 0 then (0, flagNV) else if 2 ^ w ≤ v then (2 ^ w - 1, flagNV) else (v, 0))) ∧
  (∀ (e : BitVec 1) (m : BitVec 3) (d a : BitVec 7),
     let pack (j : Instr) (lanes : Nat) (f : RMode → Nat → List Nat → Nat → Nat × FFlags) : Prop :=
       ComputesFlags j d 1 fun c p =>
         f (c.mode m true p) (c.random p) ((c.blockOf lanes p).map fun q => (c.src a q).toNat) (c.src a p).toNat
     let unpk (j : Instr) (f : Fmt) (scale : Nat → Option Machine.Num) : Prop :=
       ComputesFlags j d 1 fun c p =>
         unpack f (scale ((c.src a p).toNat / 256 % 256)) (c.mode m false p) ((c.src a p).toNat % 2 ^ f.width)
     let elem (j : Instr) (fn : ElemFn) : Prop :=
       ComputesFlags j d 1 fun c p => elemResult fn (c.mode m false p) (c.src a p).toNat
     pack (.packMx8 e d a m) 32 (packMx (mx8Fmt e)) ∧ pack (.packMx4 d a m) 32 (packMx fmtE2M1) ∧ pack (.packTb4 d a m) 8 packTb4 ∧
     unpk (.unpkMx8 e d a m) (mx8Fmt e) e8m0 ∧ unpk (.unpkMx4 d a m) fmtE2M1 e8m0 ∧
     unpk (.unpkTb4 d a m) fmtE2M1 (fun k => some (fmtE3M5.value k)) ∧
     elem (.rcp d a m) .rcp ∧ elem (.rsq d a m) .rsq ∧ elem (.sqrt d a m) .sqrt ∧ elem (.exp2 d a m) .exp2 ∧
     elem (.log2 d a m) .log2 ∧ elem (.sinpi d a m) .sinpi ∧ elem (.cospi d a m) .cospi) ∧
  (∀ (f : Fmt) (mode : RMode) (r24 : Nat) (block : List Nat) (v : Nat), v ∈ block →
     let val := fmtF32.value
     let bad := block.any fun a => (val a).isNan || (val a).isInf
     let nv : FFlags := if block.any fun a => (val a).isInf || (val a).isSnan then flagNV else 0
     let amax := blockMax block
     (f ∈ [fmtE4M3, fmtE5M2, fmtE2M1] →
       (bad → packMx f mode r24 block v = (0xFF00, nv)) ∧
       (bad = false → ∀ neg m e x, val v = .fin neg m e → mxScale f mode amax x →
         let r := f.round mode r24 true neg m (e - x)
         packMx f mode r24 block v = ((x + 127).toNat * 256 + r.1, r.2))) ∧
     ∀ k ≤ 255, (amax ≤ 6 * magnitude fmtE3M5 k ∨ k = 255) → (∀ i < k, 6 * magnitude fmtE3M5 i < amax) →
       let got := packTb4 mode r24 block v
       ((val v).isNan → got = (256 * k, nv)) ∧ (∀ s, val v = .inf s → got = (256 * k + zeroOf fmtE2M1 s + 7, nv)) ∧
       (∀ s e, val v = .fin s 0 e → got = (256 * k + zeroOf fmtE2M1 s, nv)) ∧
       ∀ s m e, val v = .fin s m e → 0 < m → mode ≠ .sr →
         ∃ el fl, got = (256 * k + el, fl ||| nv) ∧ (fl &&& flagOF ≠ 0 → el = zeroOf fmtE2M1 s + 7) ∧
           roundsTo fmtE2M1 mode ((ratOf s m e / magnitude fmtE3M5 k : ℚ) : ℝ) (el, fl)) ∧
  (∀ (f : Fmt) (mode : RMode) (k w : Nat), f ∈ [fmtE4M3, fmtE5M2, fmtE2M1] → k < 256 →
     let x := f.value w
     let is (sc : Option Machine.Num) (v : ℚ) : Prop :=
       (x.isNan → unpack f sc mode w = (fmtF32.qnan, if x.isSnan then flagNV else 0)) ∧
       (∀ s, x = .inf s → unpack f sc mode w = (infOf fmtF32 s, 0)) ∧
       ∀ q, exactValue x = some q →
         (q * v = 0 → unpack f sc mode w = (zeroOf fmtF32 x.neg?, 0)) ∧
         ∀ neg m e, 0 < m → q * v = ratOf neg m e → unpack f sc mode w = fmtF32.round mode 0 false neg m e
     unpack f (e8m0 255) mode w = (fmtF32.qnan, 0) ∧ (k < 255 → is (e8m0 k) (2 ^ ((k : Int) - 127))) ∧
       (f = fmtE2M1 → is (some (fmtE3M5.value k)) (magnitude fmtE3M5 k))) ∧
  (∀ (mode : RMode) (a : Nat), mode ≠ .sr →
     let f := fmtF32
     let x := f.value a
     let r (fn : ElemFn) := elemResult fn mode a
     let bad : Nat × FFlags := (f.qnan, flagNV)
     let one (s : Bool) : Nat × FFlags := (zeroOf f s + 0x3F800000, 0)
     (x.isNan → ∀ fn, r fn = (f.qnan, if x.isSnan then flagNV else 0)) ∧
     (∀ s, x = .inf s → r .rcp = (zeroOf f s, 0) ∧ r .rsq = (if s then bad else (0, 0)) ∧ r .sqrt = (if s then bad else (infOf f false, 0)) ∧
       r .exp2 = (if s then 0 else infOf f false, 0) ∧ r .log2 = (if s then bad else (infOf f false, 0)) ∧ r .sinpi = bad ∧ r .cospi = bad) ∧
     (∀ s e, x = .fin s 0 e → r .rcp = (infOf f s, flagDZ) ∧ r .rsq = (infOf f s, flagDZ) ∧ r .sqrt = (zeroOf f s, 0) ∧
       r .log2 = (infOf f true, flagDZ) ∧ r .sinpi = (zeroOf f s, 0) ∧ r .exp2 = one false ∧ r .cospi = one false) ∧
     ∀ q, exactValue x = some q → q ≠ 0 →
       let v : ℝ := (q : ℝ)
       roundsTo f mode (1 / v) (r .rcp) ∧ (0 < q → roundsTo f mode (1 / Real.sqrt v) (r .rsq) ∧ roundsTo f mode (Real.sqrt v) (r .sqrt)) ∧
         (q < 0 → r .rsq = bad ∧ r .sqrt = bad ∧ r .log2 = bad) ∧
         (∀ n : Int, q = n → r .exp2 = f.round mode 0 false false 1 n ∧ r .sinpi = (zeroOf f (decide (q < 0)), 0) ∧
           r .cospi = one (decide (n % 2 = 1))) ∧
         (∀ n : Int, q = 2 ^ n → exactValue (f.value (r .log2).1) = some n ∧ (r .log2).2 = 0 ∧ (n = 0 → (r .log2).1 = 0)) ∧
         ∀ n : Int, q = n + 1 / 2 → r .sinpi = one (decide (n % 2 = 1)) ∧ r .cospi = (0, 0))

/-- BRA and CALL: the pairs whose condition holds go to the word at the branch's own address plus 4 × off22, as R130 divides each
slice; CALL also writes the address of the word after it to s6:s7 of the member contexts of the taking pairs (R154, R155). -/
def Obligations.BranchAndCallMoveSlices : Prop :=
  ∀ (cond : BitVec 4) (o : BitVec 22) (s : State) (c : Issue),
    let target := c.pc + (o.signExtend 57 <<< 2)
    let taken := c.live.filter fun p => c.pred (cond.extractLsb' 3 1) (cond.extractLsb' 0 3) p
    (∀ sl ∈ c.slices, roomFor 1 (c.group.slice sl)) →
    (Issues (.bra cond o) s c → Moves (.bra cond o) s c noEffect (branchMove taken target)) ∧
    (Issues (.call cond o) s c → Moves (.call cond o) s c
      (fun r old => match r with
        | .s n e => if taken.any (fun p => decide (p.1 = e)) ∧ (n = 6 ∨ n = 7)
            then ((c.pc + 4).setWidth 64).extractLsb' (32 * (n - 6)) 32 else old
        | _ => old)
      (branchMove taken target))

/-- BRI and RET branch each pair to the address in its register pair; CALLI also pushes a region that ends at the JOIN after it
and writes the address of that word to d (R157, R158). A branch of major 0x06 to an address outside the group stream, or not
word-aligned, traps BAD_TARGET (R157). -/
def Obligations.IndirectBranchesMoveSlices : Prop :=
  (∀ (d a : BitVec 7) (s : State) (c : Issue),
     (∀ p ∈ c.live, targetOk c.grid (c.src64 a p)) →
     (∀ sl ∈ c.slices, roomFor (c.targets a sl).length (c.group.slice sl)) →
     (Issues (.bri a) s c → Moves (.bri a) s c noEffect (indirectMove c a fun _ => [])) ∧
     (Issues (.ret a) s c → Moves (.ret a) s c noEffect (indirectMove c a fun _ => [])) ∧
     (Issues (.calli d a) s c → (codeWord s c.team.core c.grid (c.pc + 4).toNat).bind decodeRaw = some .join →
       (∀ p ∈ c.live, headerVbud s c.team.core c.grid (c.src64 a p).toNat ≤ c.group.regbud) →
       Moves (.calli d a) s c (dest64 c d fun _ => (c.pc + 4).setWidth 64)
         (indirectMove c a fun sl => [{ mask := (c.group.slice sl).active, deferred := false, addr := c.pc + 4 }]))) ∧
  (∀ (a : BitVec 7) (s : State) (c : Issue), (∃ p ∈ c.live, ¬ targetOk c.grid (c.src64 a p)) →
     (Issues (.bri a) s c → Machine.exec (.bri a) s = .next (c.trapWith { code := cBadTarget } s)) ∧
     (Issues (.ret a) s c → Machine.exec (.ret a) s = .next (c.trapWith { code := cBadTarget } s)))

/-- RPUSH pushes a region of the active pairs that ends at its target (R156); JOIN pops the stack of each of its slices, and goes
on popping while an entry has no pair left (R133); a slice that pops a region goes on after its JOIN, one that pops deferred pairs
goes on where they were deferred. -/
def Obligations.RegionsArePushedAndJoined : Prop :=
  ∀ (o : BitVec 22) (s : State) (c : Issue),
    (Issues (.rpush o) s c → c.mac = none → (∀ sl ∈ c.slices, roomFor 1 (c.group.slice sl)) →
      Moves (.rpush o) s c noEffect fun _ x y =>
        y.pc = x.pc + 4 ∧ y.active = x.active ∧ y.exited = x.exited ∧ y.spilled = 0 ∧ y.wait = .ready ∧
          y.stack = { mask := x.active, deferred := false, addr := c.pc + (o.signExtend 57 <<< 2) } :: x.stack) ∧
    (IssuesHint s c →
      (∀ sl ∈ c.slices, let x := c.group.slice sl
        x.pfx = none ∧ x.park = none ∧ x.spilled = 0 ∧ x.stack.length ≤ 32 ∧ (∀ e ∈ x.stack, !e.bad) ∧
        (∃ e ∈ x.stack, e.mask &&& ~~~x.exited ≠ 0) ∧ ∀ e, x.stack.head? = some e → e.deferred ∨ e.addr = x.pc) →
      Moves .join s c noEffect fun _ x y =>
        y.exited = x.exited ∧ ∀ pre e post, unwinds x y pre e post)

/-- EXIT ends the live pairs (R161): each of its slices goes on with the first entry of its stack that has a pair left, and where
no slice of the group has one the group ends. REGANG joins the group's slices into one gang when the last of them reaches it
(R138, R160); NOP has no effect. -/
def Obligations.ExitAndRegang : Prop :=
  (∀ (s : State) (c : Issue), Issues .exit s c → c.group.privileged = false →
     (∀ sl ∈ c.slices, let x := c.group.slice sl
       x.park = none ∧ x.spilled = 0 ∧ x.stack.length ≤ 32 ∧ ∀ e ∈ x.stack, !e.bad) →
     ((∀ sl ∈ c.slices, let x := c.group.slice sl
         ∃ e ∈ x.stack, e.mask &&& ~~~(x.exited ||| x.active) ≠ 0) →
       Moves .exit s c noEffect fun _ x y =>
         y.exited = x.exited ||| x.active ∧ ∀ pre e post, unwinds x y pre e post) ∧
     ((∀ sl < c.group.slices.length, let x := c.group.slice sl
         x.wait = .finished ∨ (c.slices.contains sl ∧ ∀ e ∈ x.stack, e.mask &&& ~~~(x.exited ||| x.active) = 0)) →
       ∃ t g, Machine.exec .exit s = .next t ∧ groupAt t c.uid c.gid = some g ∧ g.ended ∧
         ∀ sl ∈ c.slices, (g.slice sl).wait = .finished ∧ (g.slice sl).active = 0 ∧ (g.slice sl).stack = [] ∧
           (g.slice sl).exited = (c.group.slice sl).exited ||| (c.group.slice sl).active)) ∧
  (∀ (s : State) (c : Issue),
     (Issues .nop s c → Completes .nop s s c noEffect) ∧
     (Issues .regang s c → c.group.slices.length = 8 →
       (∀ sl < 8, let x := c.group.slice sl
         x.wait = .finished ∨ (x.pc = c.pc ∧ (c.slices.contains sl ∨ x.wait = .regang) ∧
           stackShape c.grid c.team c.group sl = stackShape c.grid c.team c.group (c.slices.headD 0))) →
       ∃ t g, Machine.exec .regang s = .next t ∧ GroupBecomes s t c g ∧
         restOf { g with resv := c.group.resv } = restOf c.group ∧ (∀ r, g.full r = c.group.full r) ∧
         ∀ sl < 8, let x := c.group.slice sl
           if x.wait = .finished then g.slice sl = x
           else (g.slice sl).pc = c.pc + 4 ∧ (g.slice sl).wait = .ready ∧ (g.slice sl).active = x.active ∧ (g.slice sl).stack = x.stack ∧
             ∀ sl' < 8, (c.group.slice sl').wait ≠ .finished → (g.slice sl').gang = (g.slice sl).gang))

/-- TRAP enters the handler with SOFT_TRAP and its operand in INFO, BRK with BREAKPOINT; TRAPCTX holds the word's address and the
masks, nothing else changes, and both resume after the word; with no handler, or inside it, either ends the team (R162, R365);
with no live pair neither raises anything (R153). -/
def Obligations.SoftwareTrapsEnterTheHandler : Prop :=
  (∀ (n : BitVec 12) (s : State) (c : Issue), handles c → c.live ≠ [] → noneHeld c →
    (Issues (.trap n) s c → EntersHandler (.trap n) s c { code := 0x0110, info := n.setWidth 32 } true) ∧
    (Issues .brk s c → EntersHandler .brk s c { code := 0x0111 } true)) ∧
  (∀ (n : BitVec 12) (s : State) (c : Issue), ¬ handles c → c.live ≠ [] → noneHeld c →
    let ends (j : Instr) (code : Code) : Prop :=
      ∃ t tm, Machine.exec j s = .next t ∧ t.team? c.uid = some tm ∧ tm.ending = some (c.team.ending.getD code) ∧
        ∀ k, tm.group? k = c.team.group? k
    (Issues (.trap n) s c → ends (.trap n) 0x0110) ∧ (Issues .brk s c → ends .brk 0x0111)) ∧
  ∀ (n : BitVec 12) (s : State) (c : Issue), c.live = [] →
    (Issues (.trap n) s c → Completes (.trap n) s s c noEffect) ∧ (Issues .brk s c → Completes .brk s s c noEffect)

/-- A cause that the checks before an instruction's effect find enters the handler with nothing of the instruction having taken
effect, and the instruction issues again with its prefix: for every instruction of the group stream that is not a hint word
(R8, R114, R365). With no handler, in privileged state, or with no pair left, a precise cause ends the team with it (R363,
R369). In a microprogram a cause that is held for the group goes first (R366). The order of the checks and the fields that no pair fills are readings of the model (logs 21, 26). -/
def Obligations.PreciseTraps : Prop :=
  (∀ (j : Instr) (s : State) (c : Issue) (x : Trap), groupStream j → s.issuer = .gang c.uid c.gid c.gang →
     issueOf s c.uid c.gid c.gang false = some c → precheckCore j c = some x → noneHeld c → handles c → EntersHandler j s c x false) ∧
  (∀ (j : Instr) (s : State) (c : Issue) (x : Trap), groupStream j → s.issuer = .gang c.uid c.gid c.gang →
     issueOf s c.uid c.gid c.gang false = some c → precheckCore j c = some x → noneHeld c → ¬ handles c →
     ∃ t tm, Machine.exec j s = .next t ∧ t.team? c.uid = some tm ∧
       tm.ending = some (c.team.ending.getD x.code) ∧ ∀ k, tm.group? k = c.team.group? k)

/-- MSTLD, HRET and an MFS of TRAPCTX outside privileged state trap PRIV_INSTR where a pair is live; in privileged state no check
stops them for it, every other instruction never meets it, and with no live pair nothing is raised (R105, R106, R153). That MSTLD
is among them is log 35. -/
def Obligations.PrivilegeIsChecked : Prop :=
  ∀ (j : Instr) (c : Issue), c.mac = none → legal j →
    (∀ sl ∈ c.slices, bindingOk j false (c.group.immOf sl) (c.group.src3Of sl) (c.group.rndOf sl) (c.group.dupOf sl) ∧
      (c.group.slice sl).guardWin = none) →
    let priv := (∃ a, j = .mstld a) ∨ j = .hret ∨ ∃ d n, j = .mfs d n ∧ 0x18 ≤ n.toNat ∧ n.toNat ≤ 0x1B
    (priv ∧ c.group.privileged = false ∧ c.live ≠ [] → precheckCore j c = some { code := 0x0102 }) ∧
    (¬ priv ∨ c.group.privileged = true → ∀ x, precheckCore j c = some x → x.code = 0x0103) ∧
    (c.live = [] → precheckCore j c = none)

/-- HRET in the handler gives every slice that was ready its saved state back, with the stack as the handler left it, ends
privileged state and reservations, and every store the core's L1 holds has been performed; a stack depth that differs from the
saved one ends the team with RSTACK_FAULT (R163, R368). -/
def Obligations.HandlerReturnRestoresSlices : Prop :=
  ∀ (s : State) (c : Issue) (sv : TrapSave), Issues .hret s c → c.live ≠ [] → c.group.saved = some sv → sv.trw = false →
    (c.group.slices.map (fun x => x.stack.length + x.spilled) = sv.depths → sv.slices.length = c.group.slices.length →
      ∃ t g, Machine.exec .hret s = .next t ∧ groupAt t c.uid c.gid = some g ∧ g.privileged = false ∧ g.saved = none ∧ g.resv = [] ∧
        (∀ r, g.full r = c.group.full r) ∧
        (∀ a, l2Read t a = l2Read (writeBackAll s c.team.core) a) ∧
        ∀ sl < c.group.slices.length, let old := nth sv.slices sl {}
          old.wait = .ready → (g.slice sl).pc = old.pc ∧ (g.slice sl).active = old.active ∧ (g.slice sl).gang = old.gang ∧
            (g.slice sl).wait = .ready ∧ (g.slice sl).stack = (c.group.slice sl).stack ∧
            (g.slice sl).exited = (c.group.slice sl).exited) ∧
    (c.group.slices.map (fun x => x.stack.length + x.spilled) ≠ sv.depths →
      ∃ t tm, Machine.exec .hret s = .next t ∧ t.team? c.uid = some tm ∧ tm.ending = some (c.team.ending.getD 0x0108))

/-- LD and LD.acq of every width: with its checks passed, its pages in the TLB, room in the L1, no line to fetch again and a load token,
a load gives each pair the bytes its core sees, and leaves every byte of memory as it was; an acquire beyond the core then forgets the
core's clean bytes (R150, R235 to R238). That accesses are performed at once through the L1 is the choice of the model (log 5).
-/
def Obligations.GlobalLoadResults : Prop :=
  ∀ (f sc : BitVec 3) (d b : BitVec 7) (o : BitVec 9) (o' : BitVec 6) (s : State) (c : Issue), f ≠ 7 → c.live ≠ [] → hasToken s c →
    let w := loadBytesOf f
    let va (off : Int) (p : Nat × Nat) := c.src64 b p + BitVec.ofInt 64 (off * w)
    let ok (off : Int) := accessOk s c c.live .r w w (va off) ∧ fits s c.team.core (c.live.flatMap fun p => physAt s c w (va off p) p) ∧
      steady s c.team.core (c.live.flatMap fun p => physAt s c w (va off p) p)
    (Issues (.ld f d b o) s c → ok o.toInt →
      Loads (.ld f d b o) s c w (va o.toInt) d (loadRegsOf f) (loadedWord f)) ∧
    (Issues (.ldAcq f d b sc o') s c → ok o'.toInt → sc.toNat < 3 →
      Loads (.ldAcq f d b sc o') s c w (va o'.toInt) d (loadRegsOf f) (loadedWord f)) ∧
    (Issues (.ldAcq f d b sc o') s c → ok o'.toInt → 3 ≤ sc.toNat →
      Completed (.ldAcq f d b sc o') s c
        (destEffect c d (loadRegsOf f) fun p k =>
          loadedWord f ((physAt s c w (va o'.toInt p) p).map fun a => coreView s c.team.core a) k)
        fun s1 => OnlyCore s s1 ∧ (∀ a, l2Read s1 a = l2Read s a) ∧
          ∀ e ∈ (s1.core c.team.core).l1, ∀ x ∈ e.bytes, x.2.2 = true)

/-- ST and ST.rel of every width: each pair's bytes reach its core's memory in ascending slot and lane, and no other byte
changes; a release beyond the core first performs every store that the core's L1 holds (R235 to R238). That accesses are
performed at once through the L1 is the choice of the model (log 5). -/
def Obligations.GlobalStoreResults : Prop :=
  ∀ (f sc : BitVec 3) (d b : BitVec 7) (o : BitVec 9) (o' : BitVec 6) (s : State) (c : Issue), f.toNat < 5 → c.live ≠ [] → memWf s →
    let w : Nat := 2 ^ f.toNat
    let va (off : Int) (p : Nat × Nat) := c.src64 b p + BitVec.ofInt 64 (off * w)
    let ok (off : Int) := accessOk s c c.live .w w w (va off) ∧ fits s c.team.core (c.live.flatMap fun p => physAt s c w (va off p) p)
    (Issues (.st f d b o) s c → ok o.toInt → Stores (.st f d b o) s c (storeList s c w (va o.toInt) d)) ∧
    (Issues (.stRel f d b sc o') s c → ok o'.toInt → sc.toNat < 3 →
      Stores (.stRel f d b sc o') s c (storeList s c w (va o'.toInt) d)) ∧
    (Issues (.stRel f d b sc o') s c → accessOk s c c.live .w w w (va o'.toInt) → 3 ≤ sc.toNat →
      Completed (.stRel f d b sc o') s c noEffect fun s1 =>
        s1 = c.live.foldl (fun t p => coreStores t c.team.core (physAt s c w (va o'.toInt p) p) (storedBytes c d w p))
          (dropAll s c.team.core))

/-- A global access that is misaligned traps MISALIGNED with its first such pair, before any pair has performed its access; one
outside every lease ends the team with LEASE_VIOLATION (R235). A .WF access waits, without any other effect, while a granule
that it touches is empty (R212). The order of the checks beyond R235 is log 29. -/
def Obligations.AccessChecksAndWaits : Prop :=
  (∀ (f g : BitVec 3) (d b : BitVec 7) (o : BitVec 9) (s : State) (c : Issue), f ≠ 7 → g.toNat < 5 →
     let va (w : Nat) (p : Nat × Nat) := c.src64 b p + BitVec.ofInt 64 (o.toInt * w)
     let bad (w : Nat) := c.live.find? fun p => decide ((va w p).toNat % w ≠ 0)
     (∀ p, Issues (.ld f d b o) s c → bad (loadBytesOf f) = some p →
       Machine.exec (.ld f d b o) s =
         .next (c.trapWith { code := 0x0112, pair := some p, faddr := va (loadBytesOf f) p } s)) ∧
     (∀ p, Issues (.st g d b o) s c → bad (2 ^ g.toNat) = some p →
       Machine.exec (.st g d b o) s = .next (c.trapWith { code := 0x0112, pair := some p, faddr := va (2 ^ g.toNat) p } s)) ∧
     (Issues (.ld f d b o) s c → bad (loadBytesOf f) = none →
       (∃ p ∈ c.live, ¬ leaseOk c.grid (some (c.group.memberId p.1)) .r (va (loadBytesOf f) p).toNat (loadBytesOf f)) →
       Machine.exec (.ld f d b o) s = .next (endTeamWith s c.uid 0x0301)) ∧
     (Issues (.st g d b o) s c → bad (2 ^ g.toNat) = none →
       (∃ p ∈ c.live, ¬ leaseOk c.grid (some (c.group.memberId p.1)) .w (va (2 ^ g.toNat) p).toNat (2 ^ g.toNat)) →
       Machine.exec (.st g d b o) s = .next (endTeamWith s c.uid 0x0301))) ∧
  (∀ (f : BitVec 3) (d b o : BitVec 7) (s : State) (c : Issue), f ≠ 7 → c.live ≠ [] → hasToken s c →
     let w := loadBytesOf f
     let at_ (p : Nat × Nat) : Int := (c.src b p).toNat + o.toInt * w
     (∀ p ∈ c.live, at_ p % w = 0 ∧ 0 ≤ at_ p ∧ localOk c.grid (at_ p).toNat w) → frozenAt s c.team.core (c.live.map at_) = false →
     (∃ p ∈ c.live, ∃ a ∈ granules (at_ p).toNat w, c.team.full a = false) →
     ∀ j, (j = .ldhWfKeep f d b o ∨ j = .ldhWfClr f d b o) → Issues j s c →
       ∃ t g, Machine.exec j s = .next t ∧ groupAt t c.uid c.gid = some g ∧ SameMemory s t ∧ (∀ r, g.full r = c.group.full r) ∧
         ∀ sl ∈ c.slices, (g.slice sl).pc = (c.group.slice sl).pc ∧ ∃ since order, (g.slice sl).wait = .blocked j since order)

/-- LDH of every width, and its .WF forms once every granule they touch is full: each pair obtains the bytes of its team's Hawk or
column at its offset, no byte changes, and .WF.CLR sets the granules empty (R207, R211, R212, R239). STH and STH.F of every width:
the stored bytes are in the team's Hawk or column, the last one where they overlap; every other byte of it, and of memory, reads
as before; STH.F then sets every granule it touches full (R207, R211, R239). -/
def Obligations.LocalAccessResults : Prop :=
  (∀ (f : BitVec 3) (d b o : BitVec 7) (s : State) (c : Issue), f ≠ 7 → c.live ≠ [] → hasToken s c →
     let w := loadBytesOf f
     let at_ (p : Nat × Nat) : Int := (c.src b p).toNat + o.toInt * w
     let cells := c.live.flatMap fun p => granules (at_ p).toNat w
     (∀ p ∈ c.live, at_ p % w = 0 ∧ 0 ≤ at_ p ∧ localOk c.grid (at_ p).toNat w) → frozenAt s c.team.core (c.live.map at_) = false →
     let value : Effect := destEffect c d (loadRegsOf f) fun p k => loadedWord f (c.team.locals (at_ p).toNat w) k
     (Issues (.ldh f d b o) s c → Completed (.ldh f d b o) s c value fun s1 => OnlyCore s s1 ∧ SameMemory s s1) ∧
     (Issues (.ldhWfKeep f d b o) s c → (∀ a ∈ cells, c.team.full a) →
       Completed (.ldhWfKeep f d b o) s c value fun s1 => OnlyCore s s1 ∧ SameMemory s s1) ∧
     (Issues (.ldhWfClr f d b o) s c → c.wfGo ⟨true, cells⟩ (takeToken s c.team.core c.uid c.gid).1 →
       Completed (.ldhWfClr f d b o) s c value fun s1 => SameMemory s s1 ∧
         s1 = { s with cores := s1.cores, teams := s1.teams } ∧ (∀ u, u ≠ c.uid → s1.team? u = s.team? u) ∧
         ∃ tm, s1.team? c.uid = some tm ∧ tm = { c.team with hawkFull := tm.hawkFull, colFull := tm.colFull } ∧
           ∀ a ∈ cells, tm.full a = false)) ∧
  (∀ (f : BitVec 3) (d b o : BitVec 7) (s : State) (c : Issue), f.toNat < 5 → c.live ≠ [] → teamMemWf c.team →
     let w : Nat := 2 ^ f.toNat
     let at_ (p : Nat × Nat) : Int := (c.src b p).toNat + o.toInt * w
     let ws := c.live.flatMap fun p => ((List.range w).map fun j => (at_ p).toNat + j).zip (storedBytes c d w p)
     (∀ p ∈ c.live, at_ p % w = 0 ∧ 0 ≤ at_ p ∧ localOk c.grid (at_ p).toNat w) → frozenAt s c.team.core (c.live.map at_) = false →
     let stored (s1 : State) : Prop :=
       (∀ a, localAt s1 c.uid a = lastWrite ws a (localAt s c.uid a)) ∧ (∀ u, u ≠ c.uid → s1.team? u = s.team? u) ∧
         s1 = { s with teams := s1.teams } ∧ ∀ tm, s1.team? c.uid = some tm →
           tm = { c.team with hawk := tm.hawk, column := tm.column, hawkFull := tm.hawkFull, colFull := tm.colFull }
     (Issues (.sth f d b o) s c → Completed (.sth f d b o) s c noEffect fun s1 => stored s1 ∧
       ∀ tm, s1.team? c.uid = some tm → tm.hawkFull = c.team.hawkFull ∧ tm.colFull = c.team.colFull) ∧
     (Issues (.sthF f d b o) s c → Completed (.sthF f d b o) s c noEffect fun s1 => stored s1 ∧
       ∀ tm, s1.team? c.uid = some tm → ∀ p ∈ c.live, ∀ a ∈ granules (at_ p).toNat w, tm.full a = true))

/-- ATOM of both widths: d takes the value before and memory the new one, at the home L2, pair after pair (R242); FADD rounds once
by the dynamic mode and raises its flags (R243). -/
def Obligations.AtomicResults : Prop :=
  ∀ (w : BitVec 1) (d a b : BitVec 7),
    let none_ (_ : Issue) (_ : Nat × Nat) (_ : Nat) : FFlags := 0
    let f := if w = 1 then fmtF64 else fmtF32
    let sum (c : Issue) (p : Nat × Nat) (x : Nat) := fpArith f .add (c.mode 0 false p) x (c.srcNat b (regsOf w) p) 0
    Atomic (.atomAdd w d a b) w d a b (fun _ _ _ x y _ => x + y) none_ ∧
    Atomic (.atomMinS w d a b) w d a b (fun _ _ k x y _ => BitVec.ofInt k (min x.toInt y.toInt)) none_ ∧
    Atomic (.atomMinU w d a b) w d a b (fun _ _ k x y _ => BitVec.ofNat k (min x.toNat y.toNat)) none_ ∧
    Atomic (.atomMaxS w d a b) w d a b (fun _ _ k x y _ => BitVec.ofInt k (max x.toInt y.toInt)) none_ ∧
    Atomic (.atomMaxU w d a b) w d a b (fun _ _ k x y _ => BitVec.ofNat k (max x.toNat y.toNat)) none_ ∧
    Atomic (.atomExch w d a b) w d a b (fun _ _ _ _ y _ => y) none_ ∧
    Atomic (.atomCas w d a b) w d a b (fun _ _ _ x y z => if x = y then z else x) none_ ∧
    Atomic (.atomAnd w d a b) w d a b (fun _ _ _ x y _ => x &&& y) none_ ∧
    Atomic (.atomOr w d a b) w d a b (fun _ _ _ x y _ => x ||| y) none_ ∧
    Atomic (.atomXor w d a b) w d a b (fun _ _ _ x y _ => x ^^^ y) none_ ∧
    Atomic (.atomFadd w d a b) w d a b (fun c p k x _ _ => BitVec.ofNat k (sum c p x.toNat).1) (fun c p x => (sum c p x).2)

/-- LR of a pair reads at the home L2 and reserves the line; SC of a pair writes and gives 0 where the pair still holds that line
reserved, else writes nothing and gives 1; either way the reservation is gone (R244). A store to a line, by a core or at the home
L2, ends every reservation of it and no other (R245). -/
def Obligations.ReservationResults : Prop :=
  (∀ (w : BitVec 1) (d a b : BitVec 7) (s : State) (c : Issue) (p : Nat × Nat), c.live = [p] →
     let n := regsOf w
     let pas := physAt s c (4 * n) (c.src64 a p) p
     let key := 32 * p.1 + p.2
     let line := pas.headD 0 / 64
     accessOk s c c.live .rw (4 * n) (4 * n) (fun p => c.src64 a p) → notHeld s c.team.core pas →
     (Issues (.lr w d a) s c → hasToken s c → Completed (.lr w d a) s c (destNat c d n fun _ => natOfBytes (l2Reads s pas)) fun s1 =>
       s1 = c.reserve p (some line) (takeToken s c.team.core c.uid c.gid).1 ∧ reservedLine s1 c.uid c.gid p = some line ∧
         SameMemory s s1) ∧
     (Issues (.sc w d a b) s c → memWf s → mapRising c.group.resv → mapGet c.group.resv key = some line →
       Completed (.sc w d a b) s c (dest32 c d fun _ => 0) fun s1 =>
         s1 = c.reserve p none (l2Writes s pas (bytesOfNat (4 * n) (c.srcNat b n p))) ∧ reservedLine s1 c.uid c.gid p = none ∧
         (∀ x, (∀ q ∈ pas, q ≠ x) → l2Read s1 x = l2Read s x) ∧
         (pas.Nodup → l2Reads s1 pas = bytesOfNat (4 * n) (c.srcNat b n p))) ∧
     (Issues (.sc w d a b) s c → mapRising c.group.resv → mapGet c.group.resv key ≠ some line →
       Completed (.sc w d a b) s c (dest32 c d fun _ => 1) fun s1 =>
         s1 = c.reserve p none s ∧ reservedLine s1 c.uid c.gid p = none ∧ SameMemory s s1)) ∧
  (∀ (s : State) (k a : Nat) (v : Byte) (t : State), t = l2Write s a v ∨ (t = coreStore s k a v ∧ fits s k [a]) →
     t.teams = s.teams.map fun m => { m with groups := m.groups.map fun g =>
       { g with resv := g.resv.filter fun r => decide (r.2 ≠ a / 64) } })

/-- LDB of MX8, MX4 and TB4 gives each live lane the packed word of its element and its block's scale, LDHB the same from Hawk
or column; no byte changes (R240, R241). STB and STHB of MX8, MX4 and TB4 store the element of each live lane and the scale of
each block with one, and change no other byte (R240, R241); for one member context, the bytes after it. A block is one unit: what
a core loads of it comes from one fill of the L1, or from the home L2 (R37). That a store checks the whole of its blocks is log
29. -/
def Obligations.BlockAccessResults : Prop :=
  (∀ (d a b : BitVec 7) (q : BitVec 2) (s : State) (c : Issue), c.live ≠ [] → (∀ p ∈ c.live, p.2 < 32) → hasToken s c →
     let glob (j : Instr) (fm : BlockForm) : Prop := Issues j s c → blockReady s c fm a b .r → blockWhole s c fm a b →
       Completed j s c
         (dest32 c d fun p =>
           let view (pas : List Nat) (k : Nat) := coreView s c.team.core (nth pas k 0)
           packedWord fm (view (physAt s c fm.elems (c.src64 a (c.memberPair p.1)) (c.memberPair p.1)))
             (view (physAt s c fm.scales (c.src64 b (c.memberPair p.1)) (c.memberPair p.1))) p.2)
         fun s1 => OnlyCore s s1 ∧ SameMemory s s1
     let loc (j : Instr) (fm : BlockForm) : Prop := Issues j s c → blockReadyLocal s c fm a →
       (q ≠ 0 → c.wfGo ⟨q == 2, c.blockCells fm a⟩ (takeToken s c.team.core c.uid c.gid).1) →
       Completed j s c
         (dest32 c d fun p => packedWord fm (fun k => c.team.localByte ((c.reg a 0 (c.memberPair p.1)).toNat + k))
           (fun k => c.team.localByte ((c.reg a 1 (c.memberPair p.1)).toNat + k)) p.2)
         fun s1 => SameMemory s s1 ∧ s1 = { s with cores := s1.cores, teams := s1.teams } ∧ (q ≠ 2 → OnlyCore s s1)
     glob (.ldbMx8 d a b) ⟨32, 1⟩ ∧ glob (.ldbMx4 d a b) ⟨16, 1⟩ ∧ glob (.ldbTb4 d a b) ⟨16, 4⟩ ∧
     loc (.ldhbMx8 d a q) ⟨32, 1⟩ ∧ loc (.ldhbMx4 d a q) ⟨16, 1⟩ ∧ loc (.ldhbTb4 d a q) ⟨16, 4⟩) ∧
  (∀ (d a b : BitVec 7) (q : BitVec 2) (s : State) (c : Issue), c.live ≠ [] → (∀ p ∈ c.live, p.2 < 32) → memWf s → teamMemWf c.team →
     let es (fm : BlockForm) (p : Nat × Nat) := physAt s c fm.elems (c.src64 a p) p
     let ss (fm : BlockForm) (p : Nat × Nat) := physAt s c fm.scales (c.src64 b p) p
     let glob (j : Instr) (fm : BlockForm) : Prop := Issues j s c → blockReady s c fm a b .w →
       Completed j s c noEffect fun s1 =>
         (∀ x, (∀ p ∈ blockPairs c, x ∉ es fm p ∧ x ∉ ss fm p) → coreView s1 c.team.core x = coreView s c.team.core x ∧
           ((∀ p ∈ blockPairs c, ∀ y ∈ es fm p ++ ss fm p, homeTower y = coreTower c.team.core) →
             l2Read s1 x = l2Read s x ∧ ∀ k, coreView s1 k x = coreView s k x)) ∧
         (∀ u o, localAt s1 u o = localAt s u o) ∧ SameTeams s s1 ∧
         s1 = { s with mem := s1.mem, l2Dirty := s1.l2Dirty, cores := s1.cores, teams := s1.teams } ∧
         ∀ e, c.slots = [e] → (es fm (c.memberPair e) ++ ss fm (c.memberPair e)).Nodup →
           let v (t : State) (pas : List Nat) (k : Nat) := coreView t c.team.core (nth pas k 0)
           blockStored c fm d e (v s (es fm (c.memberPair e))) (v s (ss fm (c.memberPair e)))
             (v s1 (es fm (c.memberPair e))) (v s1 (ss fm (c.memberPair e)))
     let loc (j : Instr) (fm : BlockForm) : Prop := Issues j s c → blockReadyLocal s c fm a →
       let off (k : Nat) (p : Nat × Nat) := (c.reg a k p).toNat
       Completed j s c noEffect fun s1 =>
         (∀ x, (∀ p ∈ blockPairs c, ¬ (off 0 p ≤ x ∧ x < off 0 p + fm.elems) ∧ ¬ (off 1 p ≤ x ∧ x < off 1 p + fm.scales)) →
           localAt s1 c.uid x = localAt s c.uid x) ∧
         (∀ u, u ≠ c.uid → s1.team? u = s.team? u) ∧ s1 = { s with teams := s1.teams } ∧
         (∀ tm, s1.team? c.uid = some tm →
           tm = { c.team with hawk := tm.hawk, column := tm.column, hawkFull := tm.hawkFull, colFull := tm.colFull } ∧
           (q = 1 → ∀ p ∈ c.live, tm.full (off 0 (c.memberPair p.1) + (if fm.elems = 32 then p.2 else p.2 / 2)) = true) ∧
           (q ≠ 1 → tm.hawkFull = c.team.hawkFull ∧ tm.colFull = c.team.colFull)) ∧
         ∀ e, c.slots = [e] → (off 0 (c.memberPair e) + fm.elems ≤ off 1 (c.memberPair e) ∨
             off 1 (c.memberPair e) + fm.scales ≤ off 0 (c.memberPair e)) →
           let v (t : State) (o k : Nat) := localAt t c.uid (o + k)
           blockStored c fm d e (v s (off 0 (c.memberPair e))) (v s (off 1 (c.memberPair e)))
             (v s1 (off 0 (c.memberPair e))) (v s1 (off 1 (c.memberPair e)))
     glob (.stbMx8 d a b) ⟨32, 1⟩ ∧ glob (.stbMx4 d a b) ⟨16, 1⟩ ∧ glob (.stbTb4 d a b) ⟨16, 4⟩ ∧
     loc (.sthbMx8 d a q) ⟨32, 1⟩ ∧ loc (.sthbMx4 d a q) ⟨16, 1⟩ ∧ loc (.sthbTb4 d a q) ⟨16, 4⟩)

/-- FENCE beyond the core, FENCE.W with every WST arrived, CINV.L1 and CWB.L1 of every line perform the core's stores (R248,
R249, R332, R337); a FENCE of a lane or group scope, FENCE.X between two other paths, CWB.L2, PREF.L1 and PREF.L2 change no
value in memory (R113). FENCE.X waits until what its group has commanded on its first path is done, and FENCE.W until its
reflections have arrived (R248). One line written back: its dirty bytes are at the home L2 and clean, and what every core sees of
it is unchanged for its own core; one line invalidated: its dirty bytes are at the home L2, and the core holds it no more (R249);
lines that hold parts of one block go together (R37). That a fence acts on the whole L1 of its core is the choice of the model
(logs 5, 56). -/
def Obligations.FencesAndLines : Prop :=
  (∀ (sc : BitVec 3) (p q : BitVec 6) (a : BitVec 7) (s : State) (c : Issue), c.live ≠ [] → memWf s → l1Wf (s.core c.team.core) →
     let k := c.team.core
     let dropped (s1 : State) : Prop := Performed s s1 k ∧ (s1.core k).l1 = []
     let kept (s1 : State) : Prop := Performed s s1 k ∧ ∀ x, coreView s1 k x = coreView s k x ∨ homeTower x ≠ coreTower k
     let arrived : Prop := ∀ x ∈ s.undelivered, ¬ (x.1 = c.uid ∧ x.2.1 = c.gid)
     let quiet : Prop := (p = 2 → (∀ h ∈ c.team.hods, h.gid ≠ c.gid) ∧ ¬ (c.team.hodch.busy ∧ c.team.hodch.gid = c.gid)) ∧
       (p = 4 → ∀ b ∈ c.team.beads, b.gid ≠ c.gid) ∧ (p = 32 → arrived)
     let waits (j : Instr) : Prop := ∃ t g, Machine.exec j s = .next t ∧ groupAt t c.uid c.gid = some g ∧ SameMemory s t ∧
       (∀ r, g.full r = c.group.full r) ∧
       ∀ sl ∈ c.slices, (g.slice sl).pc = (c.group.slice sl).pc ∧ ∃ since order, (g.slice sl).wait = .blocked j since order
     (Issues (.fence sc) s c → 3 ≤ sc.toNat → Completed (.fence sc) s c noEffect dropped) ∧
     (Issues (.fence sc) s c → sc.toNat < 3 → Completes (.fence sc) s s c noEffect) ∧
     (Issues (.fenceX sc p q) s c → p = 1 → q ≠ 1 → Completed (.fenceX sc p q) s c noEffect kept) ∧
     (Issues (.fenceX sc p q) s c → quiet → p ≠ 1 → q = 1 → Completed (.fenceX sc p q) s c noEffect dropped) ∧
     (Issues (.fenceX sc p q) s c → p = 1 → q = 1 → 3 ≤ sc.toNat → Completed (.fenceX sc p q) s c noEffect dropped) ∧
     (Issues (.fenceX sc p q) s c → p = 1 → q = 1 → sc.toNat < 3 → Completes (.fenceX sc p q) s s c noEffect) ∧
     (Issues (.fenceX sc p q) s c → quiet → p ≠ 1 → q ≠ 1 → Completes (.fenceX sc p q) s s c noEffect) ∧
     (Issues (.fenceX sc p q) s c → ¬ quiet → waits (.fenceX sc p q)) ∧
     (Issues .fenceW s c → arrived → Completed .fenceW s c noEffect dropped) ∧ (Issues .fenceW s c → ¬ arrived → waits .fenceW) ∧
     (Issues (.cwbL1 0x7E) s c → Completed (.cwbL1 0x7E) s c noEffect kept) ∧
     (Issues (.cinvL1 0x7E) s c → Completed (.cinvL1 0x7E) s c noEffect dropped) ∧
     (∀ g, c.lead = some g → accessOk s c [g] .r 64 1 (fun x => c.src64 a x) →
       let line := (physAt s c 1 (c.src64 a g) g).headD 0 / 64
       (Issues (.cwbL1 a) s c → a ≠ 0x7E → Completed (.cwbL1 a) s c noEffect fun s1 => s1 = writeBackLine s k line) ∧
       (Issues (.cinvL1 a) s c → a ≠ 0x7E → Completed (.cinvL1 a) s c noEffect fun s1 => s1 = dropLine s k line) ∧
       (Issues (.cwbL2 a) s c → Completed (.cwbL2 a) s c noEffect fun s1 =>
         s1 = { s with l2Dirty := s.l2Dirty.filter fun x => decide (x / 4 ≠ line / 4) }) ∧
       (Issues (.prefL1 a) s c → fits s k [64 * line] → steady s k [64 * line] →
         Completed (.prefL1 a) s c noEffect fun s1 => OnlyCore s s1 ∧ SameMemory s s1) ∧
       (Issues (.prefL2 a) s c → Completes (.prefL2 a) s s c noEffect))) ∧
  (∀ (s : State) (k line : Nat), memWf s → l1Wf (s.core k) → (∀ e, (s.core k).line? line = some e → e.bond = []) →
     (∀ a, l2Read (writeBackLine s k line) a = (if a / 64 = line then (dirtyByte s k a).getD (l2Read s a) else l2Read s a)) ∧
     (∀ a, coreView (writeBackLine s k line) k a = coreView s k a ∨ homeTower a ≠ coreTower k) ∧
     (∀ a, a / 64 = line → dirtyByte (writeBackLine s k line) k a = none) ∧
     (∀ a, l2Read (dropLine s k line) a = (if a / 64 = line then (dirtyByte s k a).getD (l2Read s a) else l2Read s a)) ∧
     ((dropLine s k line).core k).line? line = none ∧
     (∀ n, n ≠ line → ((dropLine s k line).core k).line? n = (s.core k).line? n)) ∧
  (∀ (s : State) (k line other : Nat) (e x : L1Line), memWf s → l1Wf (s.core k) → (s.core k).line? line = some e →
     (s.core k).line? other = some x → e.bond = [min line other, max line other] → x.bond = e.bond → line ≠ other →
     ∀ a, l2Read (writeBackLine s k line) a =
       (if a / 64 = line ∨ a / 64 = other then (dirtyByte s k a).getD (l2Read s a) else l2Read s a))

/-- LXG moves register a between the live lanes of a member context; a source out of range or not live gives the pair's own
(R174). LTEST, PGATH, LEQM and LFOLD combine the live lanes of each member context (R175); MTEST and MPICK act across the members
of each lane (R177). -/
def Obligations.LaneAndMemberResults : Prop :=
  (∀ d a b : BitVec 7,
     ComputesWide (.lxgSel d a b) (fun c => dest32 c d fun p => exchanged c a p (some ((c.src b p).toNat % 32))) ∧
     ComputesWide (.lxgBelow d a b) (fun c => dest32 c d fun p =>
       exchanged c a p (if (c.src b p).toNat ≤ p.2 then some (p.2 - (c.src b p).toNat) else none)) ∧
     ComputesWide (.lxgAbove d a b) (fun c => dest32 c d fun p =>
       exchanged c a p (if p.2 + (c.src b p).toNat ≤ 31 then some (p.2 + (c.src b p).toNat) else none)) ∧
     ComputesWide (.lxgFlip d a b) (fun c => dest32 c d fun p => exchanged c a p (some (p.2 ^^^ ((c.src b p).toNat % 32))))) ∧
  (∀ (q : BitVec 3) (n : BitVec 1) (r : BitVec 3) (d a b : BitVec 7),
     ComputesWide (.ltestAll q n r) (fun c => predEffect c q fun p => (peersOf c p).all fun x => c.pred n r x) ∧
     ComputesWide (.ltestAny q n r) (fun c => predEffect c q fun p => (peersOf c p).any fun x => c.pred n r x) ∧
     ComputesWide (.ltestSame q n r) (fun c => predEffect c q fun p =>
       (peersOf c p).all (fun x => c.pred n r x) || !(peersOf c p).any fun x => c.pred n r x) ∧
     ComputesWide (.pgath d n r) (fun c => dest32 c d fun p =>
       BitVec.ofFnLE fun l : Fin 32 => c.live.contains (p.1, l.val) && c.pred n r (p.1, l.val)) ∧
     ComputesWide (.leqm d a) (fun c => dest32 c d fun p =>
       BitVec.ofFnLE fun l : Fin 32 => c.live.contains (p.1, l.val) && decide (c.src a (p.1, l.val) = c.src a p)) ∧
     ComputesWide (.lfoldAdd d a) (fun c => dest32 c d fun p =>
       BitVec.ofNat 32 ((peersOf c p).map fun x => (c.src a x).toNat).sum) ∧
     ComputesWide (.lfoldMin 0 d a) (fun c => dest32 c d fun p =>
       BitVec.ofInt 32 ((peersOf c p).foldl (fun v x => min v (c.src a x).toInt) (c.src a p).toInt)) ∧
     ComputesWide (.lfoldMin 1 d a) (fun c => dest32 c d fun p =>
       BitVec.ofNat 32 ((peersOf c p).foldl (fun v x => min v (c.src a x).toNat) (c.src a p).toNat)) ∧
     ComputesWide (.lfoldMax 0 d a) (fun c => dest32 c d fun p =>
       BitVec.ofInt 32 ((peersOf c p).foldl (fun v x => max v (c.src a x).toInt) (c.src a p).toInt)) ∧
     ComputesWide (.lfoldMax 1 d a) (fun c => dest32 c d fun p =>
       BitVec.ofNat 32 ((peersOf c p).foldl (fun v x => max v (c.src a x).toNat) (c.src a p).toNat)) ∧
     ComputesWide (.mtestAll q n r) (fun c => predEffect c q fun p => (laneOf c p).all fun x => c.pred n r x) ∧
     ComputesWide (.mtestAny q n r) (fun c => predEffect c q fun p => (laneOf c p).any fun x => c.pred n r x) ∧
     ComputesWide (.mpick d a b) (fun c => dest32 c d fun p =>
       let x := ((c.src b p).toNat, p.2)
       if x.1 < c.group.e ∧ c.live.contains x then c.src a x else c.src a p))

/-- A gang-wide instruction on lanes and member contexts that only a part of its group has reached parks that part, and has no
other effect while another slice still runs: a slice with deferred pairs on top of its stack runs them now, where they were
deferred, and its parked pairs wait; every other slice of the gang waits (R136, R137). One that gathers across a sibling set then
waits for the siblings that have not gathered (R141). Siblings that waited for a group that has now stopped elsewhere judge their
gathering again. What fails a gathering is read as log 24 has it. -/
def Obligations.GangWideWaitsForTheGroup : Prop :=
  ∀ (j : Instr) (s : State) (c : Issue), actsGangWide j = true →
    let runsOn (sl : Nat) : Prop := (c.group.slice sl).topDeferred = true
    let parks (move : Nat → Slice → Slice → Prop) : Prop :=
      ∃ t tm g, Machine.exec j s = .next t ∧ t = { s with teams := t.teams } ∧ (∀ u, u ≠ c.uid → t.team? u = s.team? u) ∧
        SameMemory s t ∧ t.team? c.uid = some tm ∧ tm = { c.team with groups := tm.groups } ∧ tm.group? c.gid = some g ∧
        restOf { g with resv := c.group.resv } = restOf c.group ∧ (∀ r ∈ g.resv, r ∈ c.group.resv) ∧
        (∀ r, g.full r = c.group.full r) ∧
        (∀ k, k ≠ c.gid → tm.group? k = c.team.group? k ∨
          ∃ b ∈ siblingsOf c.team c.grid c.group, b.gid = k ∧ b.siblingWait.isSome ∧ tm.group? k = some b.wake) ∧
        ∀ sl, if c.slices.contains sl then move sl (c.group.slice sl) (g.slice sl) else g.slice sl = c.group.slice sl
    let parked (x y : Slice) : Prop := y.exited = x.exited ∧ y.spilled = x.spilled ∧
      ∃ p, y.park = some p ∧ p.addr = c.pc ∧ p.mask = x.active ∧ p.run = none
    let waits (x y : Slice) : Prop :=
      parked x y ∧ y.wait = .parked ∧ y.pc = x.pc ∧ y.active = x.active ∧ y.stack = x.stack ∧ y.gang = x.gang
    (Reaches j s c → c.group.mac = [] → c.group.slices.length = 8 →
      (∀ sl < 8, let x := c.group.slice sl
        if c.slices.contains sl then
          x.park = none ∧ x.pc = c.pc ∧
            if x.topDeferred then x.spilled = 0 ∧ ∀ e, x.stack.head? = some e → e.bad = false ∧ e.mask &&& ~~~x.exited ≠ 0
            else x.active = participants c.grid c.team c.group sl
        else x.wait = .finished ∨ x.wait = .ready ∨ (∃ k since order, x.wait = .blocked k since order) ∨ waitsAt c.pc x) →
      ((∃ sl ∈ c.slices, runsOn sl) ∨ ∃ sl < 8, ¬ c.slices.contains sl ∧ (c.group.slice sl).wait = .ready) →
      parks fun sl x y => if x.topDeferred then
          parked x y ∧ y.wait = .ready ∧ y.gang = sl ∧
            ∃ e rest, x.stack = e :: rest ∧ y.stack = rest ∧ y.pc = e.addr ∧ y.active = e.mask &&& ~~~x.exited
        else waits x y) ∧
    (WholeGroup j s c → gathersSiblings j = true →
      (∀ b ∈ siblingsOf c.team c.grid c.group, b.gid ≠ c.gid → b.lostAt c.pc = false) →
      (∃ b ∈ siblingsOf c.team c.grid c.group, b.gid ≠ c.gid ∧ b.gatheredAt c.pc = false) →
      parks fun _ x y => waits x y)

/-- MFS reads the special register of its number, with the value of Table 5.3, MMASKR the live member slots; MTS writes FPM of each live member
context, its reserved bits 0, and traps ILLEGAL_INSTR for a rounding mode of 000 or 111 (R42, R105, R164, R176). MMASKW defers
the pairs of the member slots whose bit is 0 to the JOIN of each slice's topmost region; the others go on (R176). ROLE sets the
group's role; REGS.GIVE lowers its budget and gives the registers to a role's pool; REGS.CLAIM, where its role's pool covers it,
no earlier claim waits and none of a higher GROUPID has been served in the same clock, takes them, and the new registers are 0 (R144, R179, R180). TEAMGRP and reserved bits are read as
logs 23 and 59 have it. -/
def Obligations.RegisterAndRoleResults : Prop :=
  (∀ (s : State) (c : Issue) (p : Nat × Nat) (x y z : Nat),
     let v (n : Nat) : DWord := c.special s n p
     let is (n k : Nat) : Prop := v n = BitVec.ofNat 64 k
     let gx := c.grid.field 0x18 4
     let gy := c.grid.field 0x1C 4
     is 0x000 p.2 ∧ is 0x001 (p.2 / 4) ∧ is 0x002 c.gid ∧ is 0x003 c.team.teamid ∧
     (x < gx → y < gy → c.team.teamid = x + gx * (y + gy * z) → is 0x004 x ∧ is 0x005 y ∧ is 0x006 z) ∧
     is 0x007 (c.team.groups.filter fun g => !(g.spawned && g.ended)).length ∧ is 0x008 (c.group.memberId p.1) ∧ is 0x009 c.group.e ∧
     is 0x00A c.group.sibling ∧ is 0x00B c.group.role.toNat ∧ is 0x00C c.group.regbud ∧
     (∀ l < 64, (v 0x00D).getLsbD l = (decide (l < 32) && c.live.contains (p.1, l))) ∧
     (∀ e < 64, (v 0x00E).getLsbD e = (decide (e < 16) && c.live.any fun q => decide (q.1 = e))) ∧
     is 0x00F ((c.group.slice (p.2 / 4)).stack.length + (c.group.slice (p.2 / 4)).spilled) ∧
     is 0x010 (c.group.seen (p.2 / 4) c.step (.fpm p.1)).toNat ∧ is 0x011 (c.grid.field 0x34 4) ∧ is 0x012 (c.grid.field 0x14 4) ∧
     is 0x013 (16 - (s.core c.team.core).fifo.length) ∧ is 0x014 s.clk ∧ (∀ k < 4, v (0x018 + k) = nth c.group.trapctx k 0) ∧
     ∀ i < 16,
       (c.grid.leases[i]? = none → is (0x100 + 2 * i) 0 ∧ is (0x101 + 2 * i) 0) ∧
       ∀ l, c.grid.leases[i]? = some l → l.len < 2 ^ 40 → is (0x100 + 2 * i) l.base ∧
         (v (0x101 + 2 * i)).extractLsb' 0 40 = BitVec.ofNat 40 l.len ∧ (v (0x101 + 2 * i)).extractLsb' 43 21 = 0 ∧
         (v (0x101 + 2 * i)).getLsbD 40 = l.r ∧ (v (0x101 + 2 * i)).getLsbD 41 = l.w ∧ (v (0x101 + 2 * i)).getLsbD 42 = l.x) ∧
  (∀ (d a : BitVec 7) (n : BitVec 12) (s : State) (c : Issue),
     (Issues (.mfs d n) s c → Completes (.mfs d n) s s c
       (destEffect c d (specialRegs n) fun p k => (c.special s n.toNat p).extractLsb' (32 * k) 32)) ∧
     (Issues (.mmaskr d) s c → Completes (.mmaskr d) s s c
       (dest32 c d fun _ => BitVec.ofFnLE fun e : Fin 32 => decide (e.val < 16) && c.live.any fun p => decide (p.1 = e.val))) ∧
     (Issues (.mts a n) s c →
       (∀ e ∈ c.slots, (c.memberValue a e).extractLsb' 5 3 ≠ 0 ∧ (c.memberValue a e).extractLsb' 5 3 ≠ 7) →
       Completes (.mts a n) s s c fun r old => match r with
         | .fpm e => if c.slots.contains e then c.memberValue a e &&& 0xFF0001FF else old
         | _ => old) ∧
     (Issues (.mts a n) s c →
       (∃ e ∈ c.slots, (c.memberValue a e).extractLsb' 5 3 = 0 ∨ (c.memberValue a e).extractLsb' 5 3 = 7) →
       Machine.exec (.mts a n) s = .next (c.trapWith { code := 0x0101 } s))) ∧
  (∀ (a : BitVec 7) (s : State) (c : Issue), Issues (.mmaskw a) s c → c.live ≠ [] →
     let removed (sl : Nat) := sliceMask (c.live.filter fun p => !(c.src a p).getLsbD p.1) sl
     (∀ sl ∈ c.slices, roomFor 1 (c.group.slice sl) ∧ (c.group.slice sl).active &&& ~~~removed sl ≠ 0 ∧
       ∃ r, (c.group.slice sl).stack.find? (fun x => !x.deferred) = some r) →
     Moves (.mmaskw a) s c noEffect fun sl x y =>
       y.pc = x.pc + 4 ∧ y.exited = x.exited ∧ y.wait = .ready ∧ y.active = x.active &&& ~~~removed sl ∧
         if removed sl = 0 then y.stack = x.stack
         else ∃ r, x.stack.find? (fun x => !x.deferred) = some r ∧
           y.stack = { mask := removed sl, deferred := true, addr := r.addr } :: x.stack) ∧
  (∀ (a b : BitVec 7) (s : State) (c : Issue), c.live ≠ [] →
     let v := c.groupValue a
     let n := v.toNat
     let r := (c.groupValue b).toNat
     let pools (t : State) : List Nat := ((t.team? c.uid).map fun m => m.pools).getD []
     let after (t : State) (g : Group) : Prop := groupAt t c.uid c.gid = some g ∧ SameMemory s t ∧ t = { s with teams := t.teams } ∧
       (∀ u, u ≠ c.uid → t.team? u = s.team? u) ∧ (∀ k, k ≠ c.gid → groupAt t c.uid k = groupAt s c.uid k) ∧
       (c.mac = none → ∀ sl ∈ c.slices, (g.slice sl).wait = .ready ∧ (g.slice sl).pc = (c.group.slice sl).pc + 4)
     (Issues (.role a) s c → n ≤ 2 → (siblingsOf c.team c.grid c.group).length ≤ 1 → c.grid.ctl 3 1 = 0 →
       ∃ t g, Machine.exec (.role a) s = .next t ∧ after t g ∧ restOf g = restOf { c.group with role := v, reassigned := false } ∧
         (∀ x, g.full x = c.group.full x) ∧ pools t = c.team.pools) ∧
     (Issues (.regsGive a b) s c → r ≤ 2 → n % 8 = 0 → 8 ≤ n → n + 8 ≤ c.group.regbud →
       ∃ t g, Machine.exec (.regsGive a b) s = .next t ∧ after t g ∧ restOf g = restOf { c.group with regbud := c.group.regbud - n } ∧
         (∀ x, g.full x = c.group.full x) ∧
         pools t = c.team.pools.mapIdx fun k x => if k = r then x + n / 8 else x) ∧
     (Issues (.regsClaim a) s c → n % 8 = 0 → 8 ≤ n → c.group.regbud + n ≤ 96 →
       n / 8 ≤ nth c.team.pools c.group.role.toNat 0 → (∀ k ∈ c.team.claims c.group.role, ¬ WaitKey.before k (c.waitKey s)) →
       (∀ clk gid, mapGet c.team.lastClaims c.group.role.toNat = some (clk, gid) → clk = s.clk → gid ≤ c.gid) →
       ∃ t g, Machine.exec (.regsClaim a) s = .next t ∧ after t g ∧ restOf g = restOf { c.group with regbud := c.group.regbud + n } ∧
         (∀ x, g.full x = match x with
           | .v k _ _ => if c.group.regbud ≤ k ∧ k < c.group.regbud + n then 0 else c.group.full x
           | _ => c.group.full x) ∧
         pools t = c.team.pools.mapIdx fun k x => if k = c.group.role.toNat then x - n / 8 else x))

/-- REGROUP moves the member contexts of a sibling set, stably by rank, with their registers, MEMBERIDs and long-accumulator
bindings (R141, R142, R178). -/
def Obligations.RegroupMovesContexts : Prop :=
  ∀ (a : BitVec 7) (s : State) (c : Issue) (set : List Group), Together (.regroup a) s c set →
    (∀ b ∈ set, b.regbud = c.group.regbud ∧ b.e = c.group.e) → 0 < c.group.e →
    let e := c.group.e
    let rank (n : Nat) : Nat :=
      let k := issueFor c (nth set (n / e) c.group)
      if k.slots.contains (n % e) then (k.memberValue a (n % e)).toNat % 4 else 4
    ∀ order : List Nat, order.Perm (List.range (set.length * e)) →
      order.Pairwise (fun x y => rank x < rank y ∨ (rank x = rank y ∧ x < y)) →
      ∃ t, Machine.exec (.regroup a) s = .next t ∧ (∀ u, u ≠ c.uid → t.team? u = s.team? u) ∧
        ∀ i < set.length, ∃ g, groupAt t c.uid (nth set i c.group).gid = some g ∧
          ∀ k < e, let n := nth order (i * e + k) 0
            let old := nth set (n / e) c.group
            g.memberId k = old.memberId (n % e) ∧
            (∀ x < 4, mapGet g.xbind (4 * k + x) = mapGet old.xbind (4 * (n % e) + x)) ∧
            (∀ v l, g.full (.v v k l) = old.full (.v v (n % e) l)) ∧ (∀ v, g.full (.s v k) = old.full (.s v (n % e))) ∧
            (∀ v l, g.full (.p v k l) = old.full (.p v (n % e) l)) ∧ g.full (.fpm k) = old.full (.fpm (n % e))

/-- Long accumulators of each live member context, through its bindings: LAC.ADD adds its lanes' exact values, LAC.CLR clears,
LAC.CLR.BIND binds and clears, LAC.MRG merges y into x, LAC.RND rounds the entry once to d (R46 to R50, R196 to R199). A long
accumulator adds exactly: a finite addend of at least 2^−1074 adds its value in those units, the order of addends does not matter,
and an image stored and loaded gives the same entry (R46, R47, R48). A read-out is by Table 2.8 (R50). -/
def Obligations.LongAccumulators : Prop :=
  (∀ (t x y : BitVec 2) (f : BitVec 4) (m : BitVec 3) (d a : BitVec 7) (s : State) (c : Issue),
     let bound (e : Nat) (z : BitVec 2) (k : Nat) : Prop := mapGet c.group.xbind (4 * e + z.toNat) = some k ∧ k < 4 * c.grid.launched
     let changes (j : Instr) (bind : Nat → Option Nat) (new : Nat → Lacc) : Prop :=
       ∃ u g tm, Machine.exec j s = .next u ∧ SameMemory s u ∧ u = { s with teams := u.teams } ∧ u.team? c.uid = some tm ∧
         tm.group? c.gid = some g ∧ (∀ r, g.full r = c.group.full r) ∧ (∀ k, tm.lacc k = new k) ∧
         (∀ i, mapGet g.xbind i = (bind i).or (mapGet c.group.xbind i)) ∧ Advances s u c
     let value (e l : Nat) := (codeFmt (t.setWidth 4)).value (c.fsrc (codeFmt (t.setWidth 4)) a (if t = 0 then 2 else 1) (e, l))
     ∀ (e k k' : Nat), c.slots = [e] → bound e x k → bound e y k' →
       (Issues (.lacAdd t x a) s c → changes (.lacAdd t x a) (fun _ => none) fun n =>
         if n = k then (c.lanes e).foldl (fun acc l => acc.add (value e l)) (c.team.lacc k) else c.team.lacc n) ∧
       (Issues (.lacClr x) s c → changes (.lacClr x) (fun _ => none) fun n => if n = k then {} else c.team.lacc n) ∧
       (Issues (.lacMrg x y) s c → changes (.lacMrg x y) (fun _ => none) fun n =>
         if n = k then (c.team.lacc k).merge (c.team.lacc k') else c.team.lacc n) ∧
       (Issues (.lacClrBind x a) s c → (c.memberValue a e).toNat < 4 * c.grid.launched →
         changes (.lacClrBind x a) (fun i => if i = 4 * e + x.toNat then some (c.memberValue a e).toNat else none) fun n =>
           if n = (c.memberValue a e).toNat then {} else c.team.lacc n) ∧
       (Issues (.lacRnd d x f m) s c → Completes (.lacRnd d x f m) s s c
         (let r (p : Nat × Nat) := (c.team.lacc k).readOut (codeFmt f) (c.mode m false p)
          andThenEffect (destNat c d (regsOfCode f) fun p => (r p).1) (flagEffect c fun p => (r p).2))) ∧
       (Issues (.lacLd x a) s c → accessOk s c [c.memberPair e] .r 32 288 (fun p => c.src64 a p) →
         fits s c.team.core (physAt s c 288 (c.src64 a (c.memberPair e)) (c.memberPair e)) →
         steady s c.team.core (physAt s c 288 (c.src64 a (c.memberPair e)) (c.memberPair e)) →
         ∃ u tm, Machine.exec (.lacLd x a) s = .next u ∧ SameMemory s u ∧ u.team? c.uid = some tm ∧ Advances s u c ∧
           ∀ n, tm.lacc n = if n = k
             then Lacc.ofImage ((physAt s c 288 (c.src64 a (c.memberPair e)) (c.memberPair e)).map fun z => coreView s c.team.core z)
             else c.team.lacc n) ∧
       (Issues (.lacSt x a) s c → memWf s → accessOk s c [c.memberPair e] .w 32 288 (fun p => c.src64 a p) →
         fits s c.team.core (physAt s c 288 (c.src64 a (c.memberPair e)) (c.memberPair e)) →
         Stores (.lacSt x a) s c
           ((physAt s c 288 (c.src64 a (c.memberPair e)) (c.memberPair e)).zip (c.team.lacc k).image))) ∧
  (∀ (acc : Lacc) (v w : Machine.Num), (∀ neg m e, v = .fin neg m e → -1074 ≤ e) → (∀ neg m e, w = .fin neg m e → -1074 ≤ e) →
     ((acc.add v).add w).n = ((acc.add w).add v).n ∧
     ((acc.add v).add w).pinf = ((acc.add w).add v).pinf ∧ ((acc.add v).add w).ninf = ((acc.add w).add v).ninf ∧
     ((acc.add v).add w).nan = ((acc.add w).add v).nan ∧
     (∀ neg m e, v = .fin neg m e → (acc.add v).n = acc.n + BitVec.ofInt 2176 ((if neg then -1 else 1) * (m * 2 ^ (e + 1074).toNat : Nat))) ∧
     Lacc.ofImage acc.image = acc) ∧
  (∀ (acc : Lacc) (f : Fmt) (mode : RMode),
     (acc.ovf ∨ (acc.nan = false ∧ acc.pinf ∧ acc.ninf) → acc.readOut f mode = (f.qnan, flagNV)) ∧
     (acc.ovf = false → acc.nan → acc.readOut f mode = (f.qnan, 0)) ∧
     (acc.ovf = false → acc.nan = false → acc.pinf = false → acc.ninf = false →
       (acc.n = 0 → acc.readOut f mode = (zeroOf f false, 0)) ∧
       (acc.n ≠ 0 → acc.readOut f mode = f.round mode 0 false (decide (acc.n.toInt < 0)) acc.n.toInt.natAbs (-1074))))

/-- MAXI and MINI replace the held entry of each pair whose candidate is preferred (R200 to R202); TOPK gives lane j the j-th
most preferred live candidate of its member context, TOPKM the list of 64 (R203). ESTAT over a sibling set: the mean and
population spread rounded once from the exact sums, the count of members below a value, and the element of a quantile, one
result for the members of each lane (R204, R205). An entry is preferred by the five rules of R200: an empty one never, a number to
a NaN, the greater or lesser key, the lower index, the one held. The k of TOPK is the lead pair's (log 27). -/
def Obligations.SelectionAndStatistics : Prop :=
  (∀ (t : BitVec 3) (d a b : BitVec 7),
     (∀ (s : State) (c : Issue) (less : Bool) (j : Instr), j = (if less then .mini t d a b else .maxi t d a b) → Issues j s c → Completes j s s c
         (andThenEffect
           (fun r old => match writerOf c d (selRegs t + 1) r with
             | some x => if preferred t less (c.candidate t a b x.1) (c.heldEntry t d x.1)
                 then (c.candidate t a b x.1).reg t x.2 else old
             | none => old)
           (flagEffect c fun p => nvIf (selSnan t (c.selValue t a p))))) ∧
     ComputesWide (.topk t d a b) (fun c => andThenEffect
       (destEffect c d (selRegs t + 1) fun p k =>
         (entryAt (c.topCount 32) (stableSort (preferred t false) (c.rowOf t a b p.1)) p.2).reg t k)
       (flagEffect c (c.rowFlags t a b))) ∧
     ComputesWide (.topkm t d a b) (fun c =>
       let row (e : Nat) := stableSort (preferred t false)
         ((List.range 32).map (fun l => c.heldEntry t d (e, l)) ++
           (List.range 32).map (fun l => c.heldEntry t (secondGroup t d) (e, l)) ++ c.rowOf t a b e)
       andThenEffect
         (andThenEffect (destEffect c d (selRegs t + 1) fun p k => (entryAt (c.topCount 64) (row p.1) p.2).reg t k)
           (destEffect c (secondGroup t d) (selRegs t + 1) fun p k => (entryAt (c.topCount 64) (row p.1) (p.2 + 32)).reg t k))
         (flagEffect c (c.rowFlags t a b)))) ∧
  (∀ (d a : BitVec 7) (f : BitVec 1) (m : BitVec 3),
     let third (k : Issue) (p : Nat × Nat) (n : Nat) : Nat := ((k.third p).map fun code => k.srcNat code n p).getD 0
     Ensemble (.estatMean d a f m) f d a (statRegs f) (fun k p bits => statMean (statFmt f) (k.mode m false p) bits) ∧
     Ensemble (.estatSprd d a f m) f d a (statRegs f) (fun k p bits => statSprd (statFmt f) (k.mode m false p) bits) ∧
     Ensemble (.estatRank d a f) f d a 1 (fun k p bits => statRank (statFmt f) (third k p (statRegs f) % 2 ^ (statFmt f).width) bits) ∧
     Ensemble (.estatQnt d a f) f d a (statRegs f) (fun k p bits => statQnt (statFmt f) (third k p 1) bits))∧
  (∀ (t : BitVec 3) (less : Bool) (x y : SelEntry), t.toNat < 6 →
     let float := decide (t.toNat < 4)
     let f : Fmt := nth [fmtF32, fmtF64, fmtF16, fmtBF16] t.toNat fmtF32
     let bound := if float then 2 * f.signBit else 2 ^ 32
     let isNan (v : Nat) : Bool := float && (f.value v).isNan
     let lower (v w : Nat) : Prop := if float then keyBefore f v w
       else if t = 4 then (BitVec.ofNat 32 v).toInt < (BitVec.ofNat 32 w).toInt else v < w
     let wins := preferred t less x y
     x.value < bound → y.value < bound →
     (x.index = 0xFFFFFFFF → wins = false) ∧
     (x.index ≠ 0xFFFFFFFF → (y.index = 0xFFFFFFFF → wins = true) ∧
       (y.index ≠ 0xFFFFFFFF →
         (isNan x.value = false → isNan y.value = true → wins = true) ∧ (isNan x.value = true → isNan y.value = false → wins = false) ∧
         (isNan x.value = true → isNan y.value = true → wins = decide (x.index.toNat < y.index.toNat)) ∧
         (isNan x.value = false → isNan y.value = false →
           (lower x.value y.value → wins = less) ∧ (lower y.value x.value → wins = !less) ∧
           (¬ lower x.value y.value → ¬ lower y.value x.value → wins = decide (x.index.toNat < y.index.toNat)))))) ∧
  (∀ (f : Fmt) (mode : RMode) (bits : List Nat) (t q : Nat), (f = fmtF32 ∨ f = fmtF64) → bits ≠ [] → (∀ b ∈ bits, b < 2 * f.signBit) →
     let vs := bits.map f.value
     let c := bits.length
     let snan := vs.any Machine.Num.isSnan
     let nv (x : Bool) : FFlags := if x then flagNV else 0
     let finite := vs.filterMap exactValue
     let sum : ℚ := finite.sum
     let spread : ℚ := c * (finite.map fun x => x * x).sum - sum * sum
     (vs.any Machine.Num.isNan = true → statMean f mode bits = (f.qnan, nv snan) ∧
       statSprd f mode bits = (f.qnan, nv (snan || vs.any Machine.Num.isInf))) ∧
     (vs.any Machine.Num.isNan = false → vs.any Machine.Num.isInf = true → statSprd f mode bits = (f.qnan, flagNV) ∧
       (.inf false ∈ vs → .inf true ∈ vs → statMean f mode bits = (f.qnan, flagNV)) ∧
       ∀ s, .inf s ∈ vs → .inf (!s) ∉ vs → statMean f mode bits = (infOf f s, 0)) ∧
     (finite.length = c → mode ≠ .sr →
       (sum = 0 → statMean f mode bits = (0, 0)) ∧ (sum ≠ 0 → roundsTo f mode ((sum / c : ℚ) : ℝ) (statMean f mode bits)) ∧
       (spread = 0 → statSprd f mode bits = (0, 0)) ∧
       (spread ≠ 0 → roundsTo f mode (Real.sqrt ((spread / (c * c) : ℚ) : ℝ)) (statSprd f mode bits))) ∧
     ((f.value t).isNan = true → statRank f t bits = (0xFFFFFFFF, nv (snan || (f.value t).isSnan))) ∧
     ((f.value t).isNan = false → ∀ below : List Bool, below.length = c →
       (∀ i < c, nth below i false = true ↔ (nth vs i (.nan false)).isNan = false ∧ isBelow (nth vs i (.nan false)) (f.value t)) →
       statRank f t bits = ((below.filter id).length, nv snan)) ∧
     ∀ order : List Nat, order.Perm (List.range c) →
       order.Pairwise (fun i k =>
         let x := nth bits i 0
         let y := nth bits k 0
         let nx := (f.value x).isNan
         let ny := (f.value y).isNan
         (nx = false ∧ ny = true) ∨ (nx = true ∧ ny = true ∧ i < k) ∨
           (nx = false ∧ ny = false ∧ (keyBefore f x y ∨ ¬ keyBefore f y x ∧ i < k))) →
       statQnt f q bits = (nth bits (nth order ((min q 65536 * (c - 1) + 32768) / 65536) 0) 0, nv snan))

/-- BAR.ARV records one arrival, ends the phase with the last one, and does not wait (R255, R256, R320, R321). A whole group at
BAR.WT goes on at once where the phase it waits for has ended, and waits otherwise; BAR.SYNC, BAR.SYNCM and SNAP arrive first, and
their group goes on with the last arrival, SNAP's after SNAP_RELEASE (R256 to R258, R323); SNAP's count is the launched groups, with the Trowel. An arrival waits for a
later clock where one that goes after it has been applied in this one (R322). -/
def Obligations.BarrierResults : Prop :=
  (∀ (n : BitVec 4) (a : BitVec 7) (s : State) (c : Issue), Issues (.barArv n a) s c → c.live ≠ [] →
     (c.team.groups.map fun g => g.gid).Nodup →
     let k := (c.groupValue a).toNat
     let b := n.toNat
     (mayArrive s c b k → ∃ t tm g, Machine.exec (.barArv n a) s = .next t ∧ t.team? c.uid = some tm ∧ tm.group? c.gid = some g ∧
       tm.barrier b = arrivedAt (c.team.barrier b) k (.group c.gid) s.clk ∧ (∀ i, i ≠ b → tm.barrier i = c.team.barrier i) ∧
       g.arrival b = { arvd := true, aphase := (c.team.barrier b).phase } ∧ (∀ r, g.full r = c.group.full r) ∧ pastIt c g ∧
       SameMemory s t) ∧
     (c.grid.ctl 8 5 ≤ b → Machine.exec (.barArv n a) s = .next (c.trapWith { code := 0x011A } s)) ∧
     (b < c.grid.ctl 8 5 → ¬ (1 ≤ k ∧ k ≤ 4096) → Machine.exec (.barArv n a) s = .next (c.trapWith { code := 0x011A } s)) ∧
     (b < c.grid.ctl 8 5 → 1 ≤ k → k ≤ 4096 → ¬ inTurn (c.team.barrier b) (.group c.gid) s.clk →
       Machine.exec (.barArv n a) s = .next s) ∧
     (b < c.grid.ctl 8 5 → 1 ≤ k → k ≤ 4096 → inTurn (c.team.barrier b) (.group c.gid) s.clk → (c.team.barrier b).expect ≠ 0 → (c.team.barrier b).expect.toNat ≠ k →
       Machine.exec (.barArv n a) s = .next (c.trapWith { code := 0x011B } s))) ∧
  (∀ (n : BitVec 4) (a m : BitVec 7) (s : State) (c : Issue), c.grid.ctl 8 5 > n.toNat → (wideOf c).live ≠ [] →
     noSnap c.team n.toNat → (c.team.groups.map fun g => g.gid).Nodup →
     let b := n.toNat
     let goesOn (j : Instr) (x : Barrier) : Prop := ∃ t tm g, Machine.exec j s = .next t ∧ t.team? c.uid = some tm ∧
       tm.group? c.gid = some g ∧ tm.barrier b = x ∧ (∀ r, g.full r = c.group.full r) ∧
       ∀ sl < 8, (c.group.slice sl).finished = false → resumed (c.group.slice sl) (g.slice sl)
     let waits (j : Instr) (x : Barrier) (target : BitVec 32) (form : BarForm) : Prop := ∃ t tm g, Machine.exec j s = .next t ∧
       t.team? c.uid = some tm ∧ tm.group? c.gid = some g ∧ tm.barrier b = x ∧ (∀ r, g.full r = c.group.full r) ∧
       ∀ sl < 8, (c.group.slice sl).finished = false →
         (g.slice sl).wait = .barrier b target form ∧ (g.slice sl).pc = c.pc ∧
           (g.slice sl).active = ((c.group.slice sl).park.map fun p => p.mask).getD (c.group.slice sl).active
     let x := c.team.barrier b
     let target := if (c.group.arrival b).arvd then (c.group.arrival b).aphase else x.phase
     let k := ((wideOf c).groupValue a).toNat
     let all := (c.team.groups.filter fun g => !g.spawned).length + (if c.team.trowel.isSome then 1 else 0)
     let last (k : Nat) : Barrier := arrivedAt x k (.group c.gid) s.clk
     (WholeGroup (.barWt n) s c → x.passed target → goesOn (.barWt n) x) ∧
     (WholeGroup (.barWt n) s c → x.passed target = false → waits (.barWt n) x target .wt) ∧
     (WholeGroup (.barSync n a) s c → mayArrive s c b k → k ≤ x.arrived.toNat + 1 → goesOn (.barSync n a) (last k)) ∧
     (WholeGroup (.barSync n a) s c → mayArrive s c b k → x.arrived.toNat + 1 < k →
       waits (.barSync n a) (last k) x.phase .sync) ∧
     (WholeGroup (.barSyncm n m a) s c → c.syncMask m = some (BitVec.allOnes 32) → mayArrive s c b k →
       (wideOf c).syncMask m = some (BitVec.allOnes 32) →
       k ≤ x.arrived.toNat + 1 → goesOn (.barSyncm n m a) (last k)) ∧
     (WholeGroup (.barSyncm n m a) s c → c.syncMask m = some (BitVec.allOnes 32) → mayArrive s c b k →
       (wideOf c).syncMask m = some (BitVec.allOnes 32) →
       x.arrived.toNat + 1 < k → waits (.barSyncm n m a) (last k) x.phase .sync) ∧
     (WholeGroup (.snap n) s c → mayArrive s c b all → waits (.snap n) (last all) x.phase .snap) ∧
     (∀ j ∈ [Instr.barSync n a, .barSyncm n m a, .snap n], Reaches j s c → ¬ inTurn x (.group c.gid) s.clk →
       Machine.exec j s = .next s))

/-- HOD takes the record of a member context, from global memory or from the allocation of its own team or of a team nearby, with its count in VALID, into the lowest free slot (R250, R251); HOD.CHAIN starts
the channel (R252); BEAD takes a descriptor from m4j to m4j + 3, loaded from Hawk where it names an offset, into the lowest
free slot (R253); each first performs the core's stores, and waits while no slot is free. VSEND sends the live lanes' values of
each member context to the partner core, VRECV takes the oldest entries of its grid from the partner's FIFO, one for each
member context (R228, R254). That the stores are performed at issue is the choice of the model (log 56). -/
def Obligations.EngineAndFifoResults : Prop :=
  (∀ (a b : BitVec 7) (m : BitVec 2) (s : State) (c : Issue) (p : Nat × Nat), c.lead = some p →
     let k := c.team.core
     let free (n : Nat) (used : List Nat) : Option Nat := (List.range n).find? fun i => !used.contains i
     let addr := c.src64 a p
     (∀ (e slot va o : Nat) (bs : List Byte), c.slots = [e] → c.memberPair e = p → Issues (.hod a b) s c → addr.toNat % 64 = 0 →
       free 16 (c.team.hods.map fun h => h.slot) = some slot →
       (engAddr addr = .own o ∧ localOk c.grid o 64 ∧ frozenAt s k [(o : Int), (o : Int) + 63] = false ∧ bs = c.team.locals o 64) ∨
         (∃ d t, engAddr addr = .remote d o ∧ localOk c.grid o 64 ∧ o + 64 ≤ 0x400000 ∧
           (s.teams.filter fun t => decide (t.grid = c.team.grid) && decide ((t.teamid : Int) = c.team.teamid + d) &&
             decide (t.core ≠ k) && decide (t.core / 4 = k / 4)) = [t] ∧ bs = t.locals o 64) ∨
         (engAddr addr = .global va ∧ leaseOk c.grid (some (c.group.memberId e)) .r va 64 ∧
           mapped s c false 64 (BitVec.ofNat 64 va) p ∧
           bs = l2Reads (writeBackAll s k) (physAt s c 64 (BitVec.ofNat 64 va) p)) →
       let r := BitVec.ofNat 512 (natOfBytes bs)
       rec512 r 0x30 8 = 0 → rec512 r 0x20 4 = 0 → (c.src b p).toNat ≤ rec512 r 0x18 4 →
       Completed (.hod a b) s c noEffect fun s1 => s1 = (writeBackAll s k).updTeam c.uid fun t =>
         { t with hods := t.hods ++
           [{ slot := slot, record := hodRecord bs (c.src b p), gid := c.gid, member := c.group.memberId e, addr := addr }] }) ∧
     (∀ va, Issues (.hodChain a) s c → addr.toNat % 64 = 0 → engAddr addr = .global va → c.team.hodch.busy = false →
       Completed (.hodChain a) s c noEffect fun s1 => s1 = (writeBackAll s k).updTeam c.uid fun t =>
         { t with hodch := { busy := true, head := BitVec.ofNat 57 va, gid := c.gid, member := c.group.memberId p.1 } }) ∧
     (∀ slot, Issues (.bead m a) s c → free 4 (c.team.beads.map fun x => x.slot) = some slot →
       let o := (c.src a p).toNat
       (a ≠ 0x7E → o % 64 = 0 ∧ o + 64 ≤ c.grid.field 0x28 4) →
       let rs := (List.range 4).map fun i => if a = 0x7E then (mapGet c.team.mregs (4 * m.toNat + i)).getD 0
         else BitVec.ofNat 128 (natOfBytes (c.team.locals (o + 16 * i) 16))
       ∃ s1 tm, Completes (.bead m a) s s1 c noEffect ∧ s1.team? c.uid = some tm ∧
         (∀ x, l2Read s1 x = l2Read (writeBackAll s k) x) ∧
         tm.beads = c.team.beads ++ [{ slot := slot, desc := nth rs 3 0 ++ nth rs 2 0 ++ nth rs 1 0 ++ nth rs 0 0, gid := c.gid,
                                       member := c.group.memberId p.1, off := if a = 0x7E then 0 else BitVec.ofNat 64 o }] ∧
         (∀ i < 4, mapGet tm.mregs (4 * m.toNat + i) = some (nth rs i 0)) ∧
         ∀ i, (i < 4 * m.toNat ∨ 4 * m.toNat + 4 ≤ i) → mapGet tm.mregs i = mapGet c.team.mregs i) ∧
     (∀ j, (j = .hodChain a ∧ c.team.hodch.busy ∧ addr.toNat % 64 = 0) ∨
         (j = .bead m 0x7E ∧ free 4 (c.team.beads.map fun x => x.slot) = none) → Issues j s c →
       ∃ t g, Machine.exec j s = .next t ∧ groupAt t c.uid c.gid = some g ∧ SameMemory s t ∧ (∀ r, g.full r = c.group.full r) ∧
         ∀ sl ∈ c.slices, (g.slice sl).pc = (c.group.slice sl).pc ∧ ∃ since order, (g.slice sl).wait = .blocked j since order)) ∧
  (∀ (d a : BitVec 7) (s : State) (c : Issue), c.live ≠ [] →
     let k := c.team.core
     let pk := partner k
     let mine (x : FifoEntry) : Bool := decide (x.grid = c.grid.uid)
     (Issues (.vsend a) s c → coreOnline s pk → (s.core k).fifo.length + c.slots.length ≤ 16 →
       ∃ s1 new, Completes (.vsend a) s s1 c noEffect ∧ SameMemory s s1 ∧
         s1 = s.updCore k (fun x => { x with fifo := x.fifo ++ new }) ∧ new.length = c.slots.length ∧
         ∀ i < c.slots.length, (nth new i ⟨0, 0⟩).grid = c.grid.uid ∧ ∀ l < 32, (nth new i ⟨0, 0⟩).data.extractLsb' (32 * l) 32 =
           if c.live.contains (nth c.slots i 0, l) then c.src a (nth c.slots i 0, l) else 0) ∧
     (Issues (.vrecv d) s c → c.slots.length ≤ ((s.core pk).fifo.filter mine).length →
       ∃ s1, Completes (.vrecv d) s s1 c (dest32 c d fun p =>
           (nth ((s.core pk).fifo.filter mine) (c.slots.findIdx fun e => decide (e = p.1)) ⟨0, 0⟩).data.extractLsb' (32 * p.2) 32) ∧
         SameMemory s s1 ∧ OnlyCore s s1 ∧
         ((s1.core pk).fifo.filter mine) = ((s.core pk).fifo.filter mine).drop c.slots.length ∧
         ((s1.core pk).fifo.filter fun x => !mine x) = (s.core pk).fifo.filter fun x => !mine x))

/-- SPAWN enters a task for each live pair, in order, in the bin of its team and entry, or in a new bin (R96, R181); LAUNCH
writes each record to its queue's next slot and gives its status (R182); CWSET ORs into a doubleword at its home L2 (R183). WST
stores at the home L2, drops the core's copy, and sends the bytes towards the chip of the window that holds them; an address in
no window traps WINDOW_FAULT (R246, R346). LAUNCH waits while its slot is on a page that an exchange has locked (R92), and WST
while the package that takes its bytes can hold no more (R348), which the model knows of this package alone (log 65). The address of a queue's slot is log 55. -/
def Obligations.WorkAndWindowResults : Prop :=
  (∀ (d a b : BitVec 7) (s : State) (c : Issue) (p : Nat × Nat), memWf s →
     let k := c.team.core
     let waits (j : Instr) : Prop := ∃ t g, Machine.exec j s = .next t ∧ groupAt t c.uid c.gid = some g ∧ SameMemory s t ∧
       (∀ r, g.full r = c.group.full r) ∧ (∀ n, t.queue n = s.queue n) ∧
       ∀ sl ∈ c.slices, (g.slice sl).pc = (c.group.slice sl).pc ∧ ∃ since order, (g.slice sl).wait = .blocked j since order
     (∀ bins, Issues (.spawn a b) s c → (∀ q ∈ c.live, targetOk c.grid (c.src64 a q)) →
       (c.group.slice (c.slices.headD 0)).progress = 0 →
       enterTasks c.uid s.clk (c.live.map fun q => ((c.src64 a q).setWidth 57, c.src64 b q)) (s.core k).bins = (c.live.length, bins) →
       Completed (.spawn a b) s c noEffect fun s1 => s1 = s.updCore k fun x => { x with bins := bins }) ∧
     (∀ (uid clk : Nat) (entry : VAddr) (arg : DWord) (bins : List Bin),
       (∀ x, bins.find? (fun x => decide (x.team = uid) && decide (x.entry = entry)) = some x →
         enterBin uid clk entry arg bins = if x.tasks.length < 32
           then some (bins.map fun x => if x.team = uid ∧ x.entry = entry then { x with tasks := x.tasks ++ [arg] } else x) else none) ∧
       (bins.find? (fun x => decide (x.team = uid) && decide (x.entry = entry)) = none →
         enterBin uid clk entry arg bins = if bins.length < 16
           then some (bins ++ [{ team := uid, entry := entry, tasks := [arg], first := clk }]) else none)) ∧
     (c.live = [p] → Issues (.launch d a b) s c → l1Wf (s.core k) → accessOk s c [p] .r 256 256 (fun q => c.src64 a q) →
       let pas := physAt s c 256 (c.src64 a p) p
       let n := (c.src b p).toNat
       let q := s.queue n
       let bs := l2Reads (dropAll s k) pas
       let slot := q.base.toNat * 256 + 256 * (q.tail.toNat % 2 ^ q.log2n.toNat)
       (rangeLocked s slot 256 → waits (.launch d a b)) ∧
       (rangeLocked s slot 256 = false →
       (1024 ≤ n → Completed (.launch d a b) s c (dest32 c d fun _ => 3) fun s1 => ∀ x, l2Read s1 x = l2Read (dropAll s k) x) ∧
       (n < 1024 → ¬ (q.en ∧ q.prod) →
         Completed (.launch d a b) s c (dest32 c d fun _ => 1) fun s1 => ∀ x, l2Read s1 x = l2Read (dropAll s k) x) ∧
       (n < 1024 → q.en → q.prod → 2 ^ q.log2n.toNat ≤ (q.tail - q.head).toNat →
         Completed (.launch d a b) s c (dest32 c d fun _ => 2) fun s1 => ∀ x, l2Read s1 x = l2Read (dropAll s k) x) ∧
       (n < 1024 → q.en → q.prod → (q.tail - q.head).toNat < 2 ^ q.log2n.toNat →
         Completed (.launch d a b) s c (dest32 c d fun _ => 0) fun s1 =>
           s1.queue n = { q with tail := q.tail + 1 } ∧ (∀ i < 256, l2Read s1 (slot + i) = nth bs i 0) ∧
           ∀ x, (x < slot ∨ slot + 256 ≤ x) → l2Read s1 x = l2Read (dropAll s k) x))) ∧
     (c.live = [p] → Issues (.cwset a b) s c → accessOk s c [p] .w 8 8 (fun q => c.src64 a q) →
       let pas := physAt s c 8 (c.src64 a p) p
       let old : DWord := BitVec.ofNat 64 (natOfBytes (l2Reads (dropAll s k) pas))
       Completed (.cwset a b) s c noEffect fun s1 => s1 = l2Writes (dropAll s k) pas (bytesOfNat 8 (old ||| c.src64 b p).toNat))) ∧
  (∀ (f : BitVec 3) (d b : BitVec 7) (o : BitVec 9) (s : State) (c : Issue) (p : Nat × Nat), Issues (.wst f d b o) s c → f.toNat < 5 →
     c.live = [p] →
     let w : Nat := 2 ^ f.toNat
     let va := c.src64 b p + BitVec.ofInt 64 (o.toInt * w)
     let inWindow (e : Nat × BitVec 256) : Prop :=
       e.2.getLsbD 0 ∧ e.2.getLsbD 1 ∧ (e.2.extractLsb' 32 12) = c.grid.asid ∧ (e.2.extractLsb' 64 57).toNat ≤ va.toNat ∧
         va.toNat + w ≤ (e.2.extractLsb' 64 57).toNat + (e.2.extractLsb' 128 40).toNat
     (va.toNat % w = 0 → (∀ e ∈ s.txw, ¬ inWindow e) →
       Machine.exec (.wst f d b o) s = .next (c.trapWith { code := 0x0116, pair := some p, faddr := va } s)) ∧
     ∀ (i : Nat) (e : BitVec 256), accessOk s c [p] .w w w (fun q => c.src64 b q + BitVec.ofInt 64 (o.toInt * w)) →
       s.txw = [(i, e)] → inWindow (i, e) →
       let bs := storedBytes c d w p
       let pas := physAt s c w va p
       (e.extractLsb' 176 10 = s.lath.chipId → 4096 ≤ s.heldRefl.length →
         ∃ t g, Machine.exec (.wst f d b o) s = .next t ∧ groupAt t c.uid c.gid = some g ∧ SameMemory s t ∧ t.outbox = s.outbox ∧
           ∀ sl ∈ c.slices, (g.slice sl).pc = (c.group.slice sl).pc ∧
             ∃ since order, (g.slice sl).wait = .blocked (.wst f d b o) since order) ∧
       (e.extractLsb' 176 10 ≠ s.lath.chipId ∨ s.heldRefl.length < 4096 → Completed (.wst f d b o) s c noEffect fun s1 =>
         let s0 := l2Writes (dropLines s c.team.core pas) pas bs
         s1 = { s0 with
           outbox := s.outbox ++ [{ serial := s.nextFlit, dchip := e.extractLsb' 176 10, schip := s.lath.chipId, core := c.team.core,
                                    tx := i, rxIdx := (e.extractLsb' 192 9).toNat,
                                    offset := va.toNat - (e.extractLsb' 64 57).toNat, data := bs }]
           undelivered := s.undelivered ++ [(c.uid, c.gid, s.nextFlit)]
           nextFlit := s.nextFlit + 1 }))

/-- MSTLD binds the index in a well-formed image to the address the image was read at (R61, R69, R122); MACRO starts the bound
microprogram with its parameters and the literal of its prefix, at the step a trap left it at or at its first (R118 to R121), or
traps MACRO_UNDEF; and each step of it is one issue step, the last of which moves its slices past the MACRO word; TOPK, TOPKM and
ESTAT gather as steps of it too (R119). The hint words STALL, IMM, SRC3, RND and GUARD of a gang record their payload for the words
that follow, in a microprogram for its later steps; one that leaves its literal, third source or mode pending after the last step
traps ILLEGAL_INSTR; and PREFETCH, once its encoding and base are checked, has no effect but on caches (R107 to R113, R116). That
a microprogram takes several steps, each a step of the machine, is the choice of the model (log 11). -/
def Obligations.MicroprogramAndHintResults : Prop :=
  (∀ (n : BitVec 8) (p q r : BitVec 6) (a d b : BitVec 7) (s : State) (c : Issue),
     (∀ g, c.lead = some g → Issues (.mstld a) s c → accessOk s c [g] .r 4 132 (fun x => c.src64 a x) →
       let pas := physAt s c 132 (c.src64 a g) g
       let bs := pas.map fun x => coreView s c.team.core x
       let word := natOfBytes (bs.take 4)
       let at_ : VAddr := BitVec.ofNat 57 (mapAlias c.grid.segs (c.group.memberId g.1) (c.src64 a g).toNat)
       let count := word / 256 % 64
       fits s c.team.core pas → steady s c.team.core pas →
       (word < 2 ^ 14 → 1 ≤ count → count ≤ 32 → (∀ x ∈ bs.drop (4 + 4 * count), x = 0) →
         Completed (.mstld a) s c noEffect fun s1 => SameMemory s s1 ∧ ∃ tm, s1.team? c.uid = some tm ∧
           tm = { c.team with macros := mapSet c.team.macros (word % 256) at_ }) ∧
       (2 ^ 14 ≤ word ∨ count = 0 ∨ 32 < count → Machine.exec (.mstld a) s = .next (c.trapWith { code := 0x0106 } s))) ∧
     (Issues (.runMacro n p q r) s c → mapGet c.team.macros n.toNat = none →
       Machine.exec (.runMacro n p q r) s = .next (c.trapWith { code := 0x0105 } s)) ∧
     (∀ va, Issues (.runMacro n p q r) s c → mapGet c.team.macros n.toNat = some va →
       (∀ b ∈ accessBytes c.grid none va.toNat 132, (tlbHit s c b).isSome) →
       let bs := (accessBytes c.grid none va.toNat 132).map fun b =>
         coreView s c.team.core (((tlbHit s c b).map fun e => e.pa b).getD 0)
       let lead := c.group.slice (c.slices.headD 0)
       imageOps bs ≠ [] → (∀ o, lead.redo = some o → o.step < (imageOps bs).length) →
       ∃ t g m, Machine.exec (.runMacro n p q r) s = .next t ∧ groupAt t c.uid c.gid = some g ∧ SameMemory s t ∧
         g.mac = m :: c.group.mac ∧ m.slices = maskOf 8 c.slices ∧ m.ops = imageOps bs ∧
         m.p0 = paramCode p ∧ m.p1 = paramCode q ∧ m.p2 = paramCode r ∧ m.lit = lead.imm ∧
         (lead.redo = none → m.step = 0 ∧ m.live = c.live ∧ m.imm = [] ∧ m.src3 = none ∧ m.rnd = none ∧ m.guardWin = none) ∧
         (∀ o, lead.redo = some o → m.step = o.step ∧ m.imm = o.imm ∧ m.src3 = o.src3 ∧ m.rnd = o.rnd ∧ m.guardWin = o.guardWin ∧
           m.live = o.live.filter fun x => c.slices.contains (x.2 / 4)) ∧
         (∀ x, g.full x = c.group.full x) ∧ ∀ sl, g.slice sl = c.group.slice sl) ∧
     (∀ m, Issues (.add 0 d a b) s c → c.mac = some m → c.group.slices.length = 8 →
       ∃ t g, Machine.exec (.add 0 d a b) s = .next t ∧ groupAt t c.uid c.gid = some g ∧
         (m.step + 1 < m.ops.length → (∃ x rest, g.mac = x :: rest ∧ x.step = m.step + 1) ∧ ∀ sl, g.slice sl = c.group.slice sl) ∧
         (m.ops.length ≤ m.step + 1 → g.mac = (c.group.mac.filter fun x => decide (x.slices ≠ m.slices)) ∧
           ∀ sl < 8, m.slices.getLsbD sl → (g.slice sl).pc = (c.group.slice sl).pc + 4))) ∧
  (∀ (j : Instr) (t : BitVec 3) (d a b : BitVec 7) (f : BitVec 1) (k : BitVec 3) (s : State) (c : Issue) (m : MacroRun),
     j ∈ [Instr.topk t d a b, .topkm t d a b, .estatMean d a f k, .estatSprd d a f k, .estatRank d a f, .estatQnt d a f] →
     Reaches j s c → c.mac = some m → c.group.mac = [m] → c.group.slices.length = 8 →
     (∀ sl < 8, if c.slices.contains sl then allHere c sl else (c.group.slice sl).wait = .finished) →
     (siblingsOf c.team c.grid c.group).map (fun g => g.gid) = [c.gid] → (c.team.groups.map fun g => g.gid).Nodup →
     ∃ u g, Machine.exec j s = .next u ∧ groupAt u c.uid c.gid = some g ∧ SameMemory s u ∧ ∀ sl ∈ c.slices,
       let x := c.group.slice sl
       let y := g.slice sl
       y.wait = .ready ∧ y.park = none ∧ y.active = x.active ∧ y.exited = x.exited ∧ y.stack = x.stack ∧
         (m.step + 1 < m.ops.length → y.pc = x.pc ∧
           ∃ o, g.inMacro sl = some o ∧ o.step = m.step + 1 ∧ o.ops = m.ops ∧ o.imm = [] ∧ o.src3 = none ∧ o.rnd = none) ∧
         (m.ops.length ≤ m.step + 1 → y.pc = x.pc + 4 ∧ g.inMacro sl = none)) ∧
  (∀ (v : BitVec 21) (u : BitVec 22) (x3 : BitVec 7) (m k pn : BitVec 3) (ng : BitVec 1) (l : BitVec 2) (b : BitVec 7) (o : BitVec 13)
     (s : State) (c : Issue), IssuesHint s c → c.mac = none →
     (Moves (.stall v) s c noEffect fun _ => hinted false fun x => { x with stall := (List.range 7).map fun i => v.extractLsb' (3 * i) 3 }) ∧
     (Moves (.imm u) s c noEffect fun _ => hinted true fun x => { x with imm := x.imm ++ [u] }) ∧
     (legal (.src3 x3) → Moves (.src3 x3) s c noEffect fun _ => hinted true fun x =>
       { x with src3 := some x3, dup := x.dup || x.src3.isSome }) ∧
     (legal (.rnd m) → Moves (.rnd m) s c noEffect fun _ => hinted true fun x =>
       { x with rnd := some m, dup := x.dup || x.rnd.isSome }) ∧
     (Moves (.guard k ng pn) s c noEffect fun _ => hinted false fun x =>
       { x with guardWin := some { left := k.toNat + 1, neg := decide (ng = 1), pred := pn } }) ∧
     let j : Instr := .prefetch l b o
     let ps := pairsWhere c.group.e c.slices fun sl => (c.group.slice sl).active
     let within := ps = [] ∨ overBudget j none false c.group.regbud = false
     (legal j = false → Machine.exec j s = .next (c.trapWith { code := 0x0101 } s)) ∧
     (legal j → ¬ within → Machine.exec j s = .next (c.trapWith { code := 0x0103 } s)) ∧
     (legal j → within → c.grid.ctl 0 1 = 0 → (l = 1 ∨ l = 3) → Moves j s c noEffect fun _ => hinted false id) ∧
     (legal j → within → c.grid.ctl 0 1 = 0 → (l = 0 ∨ l = 2) →
       let va (p : Nat × Nat) := c.src64 b p + (o.signExtend 64 <<< 6)
       let pas := ps.flatMap fun p => physAt s c 1 (va p) p
       (∀ p ∈ ps, mapped s c false 1 (va p) p) → fits s c.team.core pas → steady s c.team.core pas →
       ∃ t g, Machine.exec j s = .next t ∧ groupAt t c.uid c.gid = some g ∧ SameMemory s t ∧
         t = { s with cores := t.cores, teams := t.teams } ∧ (∀ r, g.full r = c.group.full r) ∧
         ∀ sl ∈ c.slices, hinted false id (c.group.slice sl) (g.slice sl))) ∧
  (∀ (u : BitVec 22) (x3 : BitVec 7) (rm k pn : BitVec 3) (ng : BitVec 1) (s : State) (c : Issue) (m : MacroRun),
     IssuesHint s c → c.mac = some m →
     let others := c.group.mac.filter fun x => decide (x.slices ≠ m.slices)
     let pending := m.imm ≠ [] ∨ m.src3.isSome ∨ m.rnd.isSome
     let goes (j : Instr) (x : MacroRun) : Prop := ∃ t g, Machine.exec j s = .next t ∧ groupAt t c.uid c.gid = some g ∧
       SameMemory s t ∧ (∀ r, g.full r = c.group.full r) ∧ (∀ sl, g.slice sl = c.group.slice sl) ∧
       g.mac = { x with step := m.step + 1 } :: others
     (m.step + 1 < m.ops.length →
       goes (.imm u) { m with imm := m.imm ++ [u] } ∧
       goes (.src3 x3) { m with src3 := some x3, dup := m.dup || m.src3.isSome } ∧
       goes (.rnd rm) { m with rnd := some rm, dup := m.dup || m.rnd.isSome } ∧
       goes (.guard k ng pn) { m with guardWin := some { left := k.toNat + 1, neg := decide (ng = 1), pred := pn } }) ∧
     (m.ops.length ≤ m.step + 1 → ∀ j, j = .imm u ∨ j = .src3 x3 ∨ j = .rnd rm ∨ (j = .guard k ng pn ∧ pending) →
       Machine.exec j s = .next (c.trapWith { code := 0x0101 } s)) ∧
     (m.ops.length ≤ m.step + 1 → ¬ pending → c.group.slices.length = 8 →
       ∃ t g, Machine.exec (.guard k ng pn) s = .next t ∧ groupAt t c.uid c.gid = some g ∧ SameMemory s t ∧ g.mac = others ∧
         ∀ sl < 8, m.slices.getLsbD sl → (g.slice sl).pc = (c.group.slice sl).pc + 4))

/-- The scalar forms of the Trowel compute modulo 2^64 from its t registers, TFLAGS and its team's place (Table 11.2); TFLAGS
takes a value below 64 from TMOV, and none from the other forms (R263); a branch outside the stream traps TROWEL_FAULT, taken or not; TEND finishes the stream (R270,
R271). The descriptor and generator registers: MSET writes 128 bits, MADV advances OFF and SOFF modulo 2^28, MCPY loads
registers from the team's memory; GSET writes the control word of a generator, GSEED its key and GORG its origin (R273, R286).
TBAR.ARV arrives as a group does; TBAR.WT goes on where the phase it waits for has ended, and waits otherwise; their traps are
BAR_RANGE and BAR_COUNT, and TBAR.ARV waits for a later clock where an engine or a group has arrived in this one (R322); IMM
supplies a literal to the Trowel's next instruction (R263, R272, R321, R323). That TADD, TSUB and TMUL run where they name TFLAGS
is log 36. -/
def Obligations.TrowelScalarResults : Prop :=
  (∀ (d a b : BitVec 7) (r : BitVec 4) (o : BitVec 14) (s : State) (c : TrowelIssue),
     let result (j : Instr) (v : DWord) : Prop := TrowelIssues j s c →
       (d.toNat < 16 → TrowelDoes j s c s fun w => { w with t := mapSet w.t d.toNat v }) ∧
       (16 ≤ d.toNat → (d = 0x20 → ∀ a, j ≠ .tmov d a) → TrowelDoes j s c s id)
     let target : VAddr := BitVec.ofInt 57 (c.w.pc.toNat + 4 * o.toInt)
     let inStream : Prop := c.grid.tbase ≤ target.toNat ∧ target.toNat < c.grid.tbase + c.grid.tlen
     (∀ n : BitVec 7, c.src n =
       if n.toNat < 16 then (mapGet c.w.t n.toNat).getD 0
       else if n = 0x20 then c.w.tflags.setWidth 64
       else if n = 0x21 then BitVec.ofNat 64 (c.team.teamid % c.grid.field 0x18 4)
       else if n = 0x22 then BitVec.ofNat 64 (c.team.teamid / c.grid.field 0x18 4 % c.grid.field 0x1C 4)
       else if n = 0x23 then BitVec.ofNat 64 (c.team.teamid / (c.grid.field 0x18 4 * c.grid.field 0x1C 4))
       else if n = 0x24 then BitVec.ofNat 64 c.team.teamid
       else if n = 0x7F then literalOf c.w.imm else 0) ∧
     result (.tmov d a) (c.src a) ∧
     (TrowelIssues (.tmov 0x20 a) s c → (c.src a).toNat < 64 →
       TrowelDoes (.tmov 0x20 a) s c s fun w => { w with tflags := (c.src a).setWidth 32 }) ∧
     (TrowelIssues (.tmov 0x20 a) s c → 64 ≤ (c.src a).toNat → TrowelHalts (.tmov 0x20 a) s c 0x0204 0) ∧
     result (.tadd d a b) (BitVec.ofInt 64 ((c.src a).toInt + (c.src b).toInt)) ∧
     result (.tsub d a b) (BitVec.ofInt 64 ((c.src a).toInt - (c.src b).toInt)) ∧
     result (.tmul d a b) (BitVec.ofInt 64 ((c.src a).toInt * (c.src b).toInt)) ∧
     (TrowelIssues (.tbrnz r o) s c → inStream → (mapGet c.w.t r.toNat).getD 0 ≠ 0 →
       Machine.exec (.tbrnz r o) s = .next (trowelTo c target id s)) ∧
     (TrowelIssues (.tbrnz r o) s c → inStream → (mapGet c.w.t r.toNat).getD 0 = 0 → TrowelDoes (.tbrnz r o) s c s id) ∧
     (TrowelIssues (.tbrnz r o) s c → ¬ inStream → TrowelHalts (.tbrnz r o) s c 0x0204 0) ∧
     (TrowelIssues (.tbra o) s c → inStream → Machine.exec (.tbra o) s = .next (trowelTo c target id s)) ∧
     (TrowelIssues (.tbra o) s c → ¬ inStream → TrowelHalts (.tbra o) s c 0x0204 0) ∧
     (TrowelIssues .tend s c → TrowelDoes .tend s c s fun w => { w with status := .finished })) ∧
  (∀ (m : BitVec 4) (g : BitVec 3) (a b : BitVec 7) (n : BitVec 2) (s : State) (c : TrowelIssue),
     let setM (v : BitVec 128) : State := s.updTeam c.uid fun t => { t with mregs := mapSet t.mregs m.toNat v }
     let old := (mapGet c.team.mregs m.toNat).getD 0
     let gen := (mapGet c.w.g g.toNat).getD 0
     let setG (j : Instr) (p : BitVec 256 → Prop) : Prop :=
       ∃ v, TrowelDoes j s c s (fun w => { w with g := mapSet w.g g.toNat v }) ∧ p v
     let x := c.src a
     let kind := (x.extractLsb' 12 4).toNat
     let fmt := (x.extractLsb' 8 4).toNat
     let admitted : Prop := kind ≤ 7 ∧ fmt ≤ 8 ∧ fmt ≠ 7 ∧ ¬ (fmt = 6 ∧ (kind = 3 ∨ kind = 4)) ∧ x.extractLsb' 0 5 = 0
     let o := (c.src a).toNat
     let k := n.toNat + 1
     (TrowelIssues (.mset m a b) s c → TrowelDoes (.mset m a b) s c (setM (c.src b ++ c.src a)) id) ∧
     (TrowelIssues (.madv m a b) s c → ∃ v, TrowelDoes (.madv m a b) s c (setM v) id ∧
       v.extractLsb' 100 28 = BitVec.ofNat 28 ((old.extractLsb' 100 28).toNat + (c.src a).toNat) ∧
       v.extractLsb' 48 28 = BitVec.ofNat 28 ((old.extractLsb' 48 28).toNat + (c.src b).toNat) ∧
       v.extractLsb' 76 24 = old.extractLsb' 76 24 ∧ v.extractLsb' 0 48 = old.extractLsb' 0 48) ∧
     (TrowelIssues (.mcpy m a n) s c → 16 < m.toNat + k → TrowelHalts (.mcpy m a n) s c 0x0204 0) ∧
     (TrowelIssues (.mcpy m a n) s c → m.toNat + k ≤ 16 → o % 16 ≠ 0 → TrowelHalts (.mcpy m a n) s c 0x0112 0) ∧
     (TrowelIssues (.mcpy m a n) s c → m.toNat + k ≤ 16 → o % 16 = 0 → localOk c.grid o (16 * k) = false →
       TrowelHalts (.mcpy m a n) s c 0x0113 0) ∧
     (TrowelIssues (.mcpy m a n) s c → m.toNat + k ≤ 16 → o % 16 = 0 → localOk c.grid o (16 * k) →
       frozenAt s c.team.core [(o : Int), (o : Int) + 16 * k - 1] = false →
       ∃ s1 tm, TrowelDoes (.mcpy m a n) s c s1 id ∧ s1 = { s with teams := s1.teams } ∧ s1.team? c.uid = some tm ∧
         tm = { c.team with mregs := tm.mregs } ∧
         ∀ i, mapGet tm.mregs i = if m.toNat ≤ i ∧ i < m.toNat + k
           then some (BitVec.ofNat 128 (natOfBytes ((List.range 16).map fun j => localAt s c.uid (o + 16 * (i - m.toNat) + j))))
           else mapGet c.team.mregs i) ∧
     (TrowelIssues (.gset g a) s c → admitted → setG (.gset g a) fun v =>
       v.extractLsb' 0 64 = x ∧ v.extractLsb' 64 192 = gen.extractLsb' 64 192) ∧
     (TrowelIssues (.gset g a) s c → ¬ admitted → TrowelHalts (.gset g a) s c 0x0204 0) ∧
     (TrowelIssues (.gseed g a b) s c → setG (.gseed g a b) fun v =>
       v.extractLsb' 0 128 = gen.extractLsb' 0 128 ∧ v.extractLsb' 128 64 = c.src a ∧ v.extractLsb' 192 64 = c.src b) ∧
     (TrowelIssues (.gorg g a b) s c → setG (.gorg g a b) fun v =>
       v.extractLsb' 0 64 = gen.extractLsb' 0 64 ∧ v.extractLsb' 128 128 = gen.extractLsb' 128 128 ∧
         v.extractLsb' 96 32 = (c.src a).setWidth 32 ∧ v.extractLsb' 64 32 = (c.src b).setWidth 32)) ∧
  (∀ (n : BitVec 4) (a : BitVec 7) (v : BitVec 22) (s : State) (c : TrowelIssue),
     let b := n.toNat
     let k := (c.src a).toNat
     let x := c.team.barrier b
     let inRange : Prop := b < c.grid.ctl 8 5 ∧ 1 ≤ k ∧ k ≤ 4096
     let target := if (c.w.arrival b).arvd then (c.w.arrival b).aphase else x.phase
     (TrowelIssues (.tbarArv n a) s c → inRange → ¬ inTurn x .trowel s.clk → Machine.exec (.tbarArv n a) s = .next s) ∧
     (TrowelIssues (.tbarArv n a) s c → inRange → inTurn x .trowel s.clk → (x.expect = 0 ∨ x.expect.toNat = k) →
       ∃ t tm w, Machine.exec (.tbarArv n a) s = .next t ∧ t.team? c.uid = some tm ∧ tm.trowel = some w ∧
         tm.barrier b = arrivedAt x k .trowel s.clk ∧ (∀ i, i ≠ b → tm.barrier i = c.team.barrier i) ∧
         w.arrival b = { arvd := true, aphase := x.phase } ∧ w.pc = c.w.pc + 4 ∧ w.t = c.w.t ∧ SameMemory s t) ∧
     (TrowelIssues (.tbarArv n a) s c → ¬ inRange → TrowelHalts (.tbarArv n a) s c 0x011A 0) ∧
     (TrowelIssues (.tbarArv n a) s c → inRange → inTurn x .trowel s.clk → x.expect ≠ 0 → x.expect.toNat ≠ k →
       TrowelHalts (.tbarArv n a) s c 0x011B 0) ∧
     (TrowelIssues (.tbarWt n) s c → c.grid.ctl 8 5 ≤ b → TrowelHalts (.tbarWt n) s c 0x011A 0) ∧
     (TrowelIssues (.tbarWt n) s c → b < c.grid.ctl 8 5 → noSnap c.team b → ∃ t tm w, Machine.exec (.tbarWt n) s = .next t ∧
       t.team? c.uid = some tm ∧ tm.trowel = some w ∧ SameMemory s t ∧ w.t = c.w.t ∧
       (x.passed target → w.pc = c.w.pc + 4 ∧ w.status = .running) ∧
       (x.passed target = false → w.pc = c.w.pc ∧ w.status = .waiting b target)) ∧
     (s.issuer = .trowel c.uid → trowelIssue s c.uid = some c → Machine.exec (.imm v) s = .next (s.updTeam c.uid fun t =>
       { t with trowel := t.trowel.map fun w => { w with imm := w.imm ++ [v], pfx := some (w.pfx.getD w.pc), pc := w.pc + 4 } })))

/-- An instruction of the other stream, a Trowel word that is not legal, and a literal that is bound wrongly, trap ILLEGAL_INSTR
before any effect (R108, R123, R260, R261). -/
def Obligations.StreamsAreKeptApart : Prop :=
  ∀ (j : Instr) (s : State),
    (∀ c : Issue, isTrowel j → s.issuer = .gang c.uid c.gid c.gang → issueOf s c.uid c.gid c.gang false = some c →
      Machine.exec j s = .next (c.trapWith { code := 0x0101 } s)) ∧
    ∀ c : TrowelIssue, s.issuer = .trowel c.uid → trowelIssue s c.uid = some c →
      (groupStream j ∨ isHint j ∧ (∀ v, j ≠ .imm v) → TrowelHalts j s c 0x0101 0) ∧
      (isTrowel j → legal j = false ∨ c.w.bindingOk j = false → TrowelHalts j s c 0x0101 0)

/-- TZERO makes a tile of zeros of its mode, TLD loads the valid elements of a tile and zeros the others (R269, R274, R275).
TST rounds the valid elements of a tile out to the own memory, TCPY and TLDM copy rows, block scales and band scales between
tiles of one format, and with F every granule they write is full afterwards (R268, R276, R277). Band scales that none has
captured are the choice of the model (log 17). -/
def Obligations.TileLoadsAndStores : Prop :=
  (∀ (r : BitVec 4) (sl : BitVec 3) (m : BitVec 4) (z : BitVec 2) (s : State) (c : TrowelIssue),
     let v := (mapGet c.w.t r.toNat).getD 0
     let mode : TileMode := if z = 0 then .f32 else if z = 1 then .f64 else .exact
     let span := if z = 0 then 1 else if z = 1 then 2 else 4
     let old := tileAt c.w.tiles sl.toNat
     (TrowelIssues (.tzero sl z) s c → c.w.tape.mode ≠ .recording → sl.toNat % span = 0 → TileResult (.tzero sl z) s c
       (fun u => u.slot = sl.toNat ∧ u.mode = mode ∧ u.first = true ∧ u.cls = .unset ∧ u.bandsA = old.bandsA ∧ u.bandsB = old.bandsB)
       fun _ _ => {}) ∧
     (TrowelIssues (.tzero sl z) s c → sl.toNat % span ≠ 0 → TrowelHalts (.tzero sl z) s c 0x0204 0) ∧
     (∀ t, TileIssues (.tld r sl m) s c sl t → countsOk v →
       let d := descOf ((mapGet c.team.mregs m.toNat).getD 0)
       let accepts (f : Nat) : Bool := match t.mode with
         | .f64 => decide (f = 0)
         | .f32 => decide (f = 1 ∨ f = 2 ∨ f = 3)
         | .exact => decide (f = 7)
       let bits (i k : Nat) : Nat := nth (c.descLine s d i (vcOf v)) k 0
       (c.descFault s ((mapGet c.team.mregs m.toNat).getD 0) accepts (vrOf v) (vcOf v) false = none →
         c.descFrozen s ((mapGet c.team.mregs m.toNat).getD 0) (vrOf v) (vcOf v) = false →
         TileResult (.tld r sl m) s c
           (fun u => u.slot = t.slot ∧ u.mode = t.mode ∧ u.first = true ∧ u.cls = (if d.fmt = 7 then .intWrap else .unset))
           fun i k => if i < vrOf v ∧ k < vcOf v then
               (if d.fmt = 7 then { a := BitVec.ofInt 96 (BitVec.ofNat 32 (bits i k)).toInt }
                else if d.fmt < 2 then { a := BitVec.ofNat 96 (bits i k) }
                else { a := BitVec.ofNat 96 (fmtF32.result .rne (elemValue d.fmt (bits i k))).1 })
             else {}) ∧
       ∀ code, c.descFault s ((mapGet c.team.mregs m.toNat).getD 0) accepts (vrOf v) (vcOf v) false = some code →
         TrowelHalts (.tld r sl m) s c code 0) ∧
     (TrowelIssues (.tld r sl m) s c → (¬ countsOk v ∨ namedTile c.w.tiles sl.toNat = none) → TrowelHalts (.tld r sl m) s c 0x0204 0)) ∧
  (∀ (m x r : BitVec 4) (sl : BitVec 3) (f k : BitVec 1) (rm : BitVec 3) (s : State) (c : TrowelIssue), teamMemWf c.team →
     c.w.tape.mode ≠ .recording →
     let v := (mapGet c.w.t r.toNat).getD 0
     let dm := (mapGet c.team.mregs m.toNat).getD 0
     let d := descOf dm
     let dx := (mapGet c.team.mregs x.toNat).getD 0
     countsOk v →
     (∀ t, TileIssues (.tst m r sl f k rm) s c sl t →
       c.descFault s dm (tstAccepts t) (vrOf v) (vcOf v) true = none → c.descFrozen s dm (vrOf v) (vcOf v) = false →
       let w := fmtNibs d.fmt / 2
       let bytes (i : Nat) := (List.range (vcOf v)).flatMap fun n => bytesOfNat w (tstElem t d.fmt (rmodeOf rm) (k == 1) i n).1
       ∃ s1 fl, TrowelDoes (.tst m r sl f k rm) s c s1 (fun w => { w with tflags := w.tflags ||| fl }) ∧
         LocalWrites s s1 c ((List.range (vrOf v)).flatMap fun i => writesAt (d.off + i * d.stride) (bytes i)) ∧
         Fills s1 c ((List.range (vrOf v)).map fun i => (d.off + i * d.stride, w * vcOf v)) (f == 1)) ∧
     (∀ j, j = .tcpy m x f r ∨ j = .tldm m x f r → TrowelIssues j s c → copyCountOk (descOf dx).fmt (vcOf v) →
       c.descFault s dx (fun _ => true) (vrOf v) (vcOf v) false = none →
       c.descFault s dm (fun n => decide (n = (descOf dx).fmt)) (vrOf v) (vcOf v) true = none →
       c.descFrozen s dx (vrOf v) (vcOf v) = false → c.descFrozen s dm (vrOf v) (vcOf v) = false →
       let rows := (List.range (vrOf v)).flatMap fun i => writesAt (d.line i) (c.descBytes s (descOf dx) ((descOf dx).line i) (elemBytes d.fmt (vcOf v)))
       let scales := if (fmtBlk d.fmt).isSome then (List.range (vrOf v)).flatMap fun i =>
         writesAt (d.scaleLine i) (c.descBytes s (descOf dx) ((descOf dx).scaleLine i) (blocksOf d.fmt (vcOf v))) else []
       let bands := if d.fmt = 12 then writesAt d.boff (c.descBytes s (descOf dx) (descOf dx).boff (2 * bandsOf (vrOf v))) else []
       ∃ s1, TrowelDoes j s c s1 id ∧ LocalWrites s s1 c ((if vcOf v = 0 then [] else rows ++ scales) ++ (if vrOf v = 0 then [] else bands)) ∧
         Fills s1 c (d.touches (vrOf v) (vcOf v)) (f == 1)))

/-- MMA adds the products of its valid lines to each valid element: in an EXACT tile each product exactly, in a float tile the
canonical sum of the chunk; the first MMA of a chain fixes its class and captures the band scales, and an MMA of another class
traps TROWEL_FAULT (R52, R56, R57, R278 to R280). A term that enters an exact element: with no window loss the element's value
changes by exactly that term; a sum that fits 96 bits at the lesser weight loses nothing; and what a window shift discards is
less than two units of the new weight (R51 to R53). Of finite elements, block scales applied, the sum of the products is added
exactly wherever no flag is raised. The order and the grouping of the terms are read as log 37 has it. -/
def Obligations.MatrixProducts : Prop :=
  (∀ (f r : BitVec 4) (sl : BitVec 3) (x y : BitVec 5) (s : State) (c : TrowelIssue) (t : Tile),
     let j : Instr := .mma f r sl x y
     let v := (mapGet c.w.t r.toNat).getD 0
     let form := mmaForm f.toNat
     TileIssues j s c sl t → countsOk v → vkOf v ≤ form.2.2 → t.mode = mmaMode f.toNat →
     (t.mode = .exact → t.first = false → t.cls ≠ mmaClass f.toNat → TrowelHalts j s c 0x0204 0) ∧
     ((t.mode = .exact → t.first = true ∨ t.cls = mmaClass f.toNat) →
       ∀ a da ga b db gb, c.operand s x form.1 true t.first (vrOf v) (vkOf v) form.2.2 = .side a da ga →
         c.operand s y form.2.1 false t.first (vcOf v) (vkOf v) form.2.2 = .side b db gb →
         c.operandFrozen s x t.first (vrOf v) (vkOf v) = false → c.operandFrozen s y t.first (vcOf v) (vkOf v) = false →
         TileResult j s c
           (fun u => u.slot = t.slot ∧ u.mode = t.mode ∧ u.first = false ∧
             (t.first = true → u.cls = mmaClass f.toNat ∧ u.bandsA = a.captured ∧ u.bandsB = b.captured) ∧
             (t.first = false → u.cls = t.cls ∧ u.bandsA = t.bandsA ∧ u.bandsB = t.bandsB))
           fun i n => if i < vrOf v ∧ n < vcOf v then
               (match t.mode with
                | .exact => (enterExact a b (vkOf v) i n (t.get i n)).1
                | md => (addCanonical md.fmt a b form.2.2 (vkOf v) i n (t.get i n)).1)
             else t.get i n)) ∧
  (∀ (x : Elem) (v e : Int),
     let r := x.enter v e
     let value (z : Elem) : ℚ := (z.a.toInt : ℚ) * (2 : ℚ) ^ z.f
     let sum : ℚ := value x + (v : ℚ) * (2 : ℚ) ^ e
     (r.2 = 0 ∨ r.2 = 0x20) ∧ (r.2 = 0 → value r.1 = sum) ∧ value r.1 ≤ sum ∧ sum < value r.1 + 2 * (2 : ℚ) ^ r.1.f ∧
       min x.f e ≤ r.1.f ∧ r.1.pinf = x.pinf ∧ r.1.ninf = x.ninf ∧ r.1.nan = x.nan ∧
       (∀ n : Int, -2 ^ 95 ≤ n → n < 2 ^ 95 → (n : ℚ) * (2 : ℚ) ^ min x.f e = sum → r.2 = 0 ∧ r.1.f = min x.f e ∧ r.1.a.toInt = n)) ∧
  (∀ (fn : Nat) (a b : Side) (vk i n : Nat) (x : Elem) (p q : Nat → ℚ), fn < 16 → a.fmt = (mmaForm fn).1 → b.fmt = (mmaForm fn).2.1 →
     vk ≤ (mmaForm fn).2.2 → (∀ k < vk, exactValue (a.value i k) = some (p k) ∧ exactValue (b.value n k) = some (q k)) →
     let sum : ℚ := ((List.range vk).map fun k => p k * q k).sum
     let value (z : Elem) : ℚ := (z.a.toInt : ℚ) * (2 : ℚ) ^ z.f
     (fn < 12 → (enterExact a b vk i n x).2 = 0 → value (enterExact a b vk i n x).1 = value x + sum) ∧
     (12 ≤ fn → ∀ old, exactValue ((mmaMode fn).fmt.value x.bits) = some old →
       let r := addCanonical (mmaMode fn).fmt a b (mmaForm fn).2.2 vk i n x
       r.2 = 0 → exactValue ((mmaMode fn).fmt.value r.1.bits) = some (old + sum)))

/-- The elementwise operations act on every element of the tile their slot names: TSCL multiplies by a scalar, TBIAS adds a row or
a column vector, TACT applies its function, TXPOSE exchanges rows and columns, TCVT makes an F32 tile, TRED sums lines (R281 to
R284). An exact element is rounded out once with its band scales applied (R54); a line of finite elements is summed exactly
wherever no flag is raised (R51, R56); and SiLU divides once by 1 + exp2 of the scaled operand, each step rounded (R282). -/
def Obligations.ElementwiseResults : Prop :=
  ∀ (sl : BitVec 3) (a : BitVec 7) (m : BitVec 4) (q : BitVec 1) (k : BitVec 2) (rm : BitVec 3) (s : State) (c : TrowelIssue) (t : Tile),
    let same (u : Tile) : Prop := u.slot = t.slot ∧ u.mode = t.mode ∧ u.cls = t.cls ∧ u.bandsA = t.bandsA ∧ u.bandsB = t.bandsB
    let float : Prop := t.mode = .f32 ∨ t.mode = .f64
    let bits (n : Nat) : Elem := { a := BitVec.ofNat 96 n }
    let dm := (mapGet c.team.mregs m.toNat).getD 0
    (TileIssues (.tscl sl a) s c sl t → float → TileResult (.tscl sl a) s c same fun i n =>
      bits (fpArith t.mode.fmt .mul .rne (t.get i n).bits (if t.mode = .f64 then (c.src a).toNat else (c.src a).toNat % 2 ^ 32) 0).1) ∧
    (TileIssues (.tbias sl m q) s c sl t → float →
      c.descFault s dm (fun f => decide (f = if t.mode = .f64 then 0 else 1)) 1 256 false = none → c.descFrozen s dm 1 256 = false →
      TileResult (.tbias sl m q) s c same fun i n =>
        bits (fpArith t.mode.fmt .add .rne (t.get i n).bits (nth (c.descLine s (descOf dm) 0 256) (if q = 1 then i else n) 0) 0).1) ∧
    (TileIssues (.tact sl k) s c sl t → float → (k = 1 → t.mode = .f32) → TileResult (.tact sl k) s c same fun i n =>
      let b := (t.get i n).bits
      let z := t.mode.fmt.value b
      if z.isNan then bits t.mode.fmt.qnan
      else if k = 0 then (if z.neg? || z.isZero then {} else bits b)
      else if k = 2 then bits (fpArith t.mode.fmt .mul .rne b b 0).1
      else bits (activate 1 t.mode.fmt b).1) ∧
    (TileIssues (.txpose sl) s c sl t → TileResult (.txpose sl) s c same fun i n => t.get n i) ∧
    (TileIssues (.tcvt sl rm) s c sl t → (t.mode = .exact ∨ t.mode = .f64) →
      TileResult (.tcvt sl rm) s c (fun u => u.slot = t.slot ∧ u.mode = .f32 ∧ u.first = true ∧ u.cls = .unset) fun i n =>
        bits (if t.mode = .exact then (t.roundOut i n (t.get i n) fmtF32 (rmodeOf rm) false).1
          else (fmtF32.convert (rmodeOf rm) 0 false (fmtF64.value (t.get i n).bits)).1)) ∧
    (TileIssues (.tred sl q) s c sl t → TileResult (.tred sl q) s c same fun i n =>
      if q = 1 then (if n = 0 then (lineSum t.mode ((List.range 256).map fun e => t.get i e)).1 else {})
      else if i = 0 then (lineSum t.mode ((List.range 256).map fun e => t.get e n)).1 else {}) ∧
    (∀ j ∈ [Instr.tscl sl a, .tbias sl m q, .tact sl k, .txpose sl, .tcvt sl rm, .tred sl q], TrowelIssues j s c →
      namedTile c.w.tiles sl.toNat = none → TrowelHalts j s c 0x0204 0) ∧
    (∀ (x : Elem) (ba bb : BitVec 16) (f : Fmt) (mode : RMode) (sat : Bool),
      let r := x.roundOut ba bb f mode sat
      (x.nan → r = (f.qnan, 0)) ∧ (x.nan = false → x.pinf → x.ninf → r = (f.qnan, 0x10)) ∧
      (x.nan = false → x.pinf = false → x.ninf = false → ∀ p q, exactValue (fmtBF16.value ba.toNat) = some p →
        exactValue (fmtBF16.value bb.toNat) = some q →
        let v : ℚ := x.a.toInt * (2 : ℚ) ^ x.f * p * q
        (v = 0 → r = (0, 0)) ∧ ∀ neg m e, 0 < m → v = ratOf neg m e → r = f.round mode 0 sat neg m e)) ∧
    (∀ (l : List Elem), (∀ x ∈ l, x.pinf = false ∧ x.ninf = false ∧ x.nan = false) →
      let value (z : Elem) : ℚ := (z.a.toInt : ℚ) * (2 : ℚ) ^ z.f
      (lineSum .exact l).2 = 0 → value (lineSum .exact l).1 = (l.map value).sum) ∧
    (∀ (md : TileMode) (l : List Elem) (vs : List ℚ), md ≠ .exact → l.length ≤ 256 →
      l.map (fun x => exactValue (md.fmt.value x.bits)) = vs.map some →
      (lineSum md l).2 = 0 → exactValue (md.fmt.value (lineSum md l).1.bits) = some vs.sum) ∧
    ∀ x v d : Nat, x < 2 ^ 32 →
      let scaled := (fpArith fmtF32 .mul .rne x 0x3FB8AA3B 0).1
      v = (elemResult .exp2 .rne (scaled ^^^ 2 ^ 31)).1 → d = (fpArith fmtF32 .add .rne 0x3F800000 v 0).1 →
      ∀ p q, exactValue (fmtF32.value x) = some p → exactValue (fmtF32.value d) = some q → p ≠ 0 →
        ∃ fl, roundsTo fmtF32 .rne ((p / q : ℚ) : ℝ) ((activate 1 fmtF32 x).1, fl)

/-- In a recording every tile instruction of majors 0x34 to 0x36 that completes outside one first writes its record at PTR, all of
its fields and saved parts as Tables 12.3 to 12.5 give them, moves PTR, LAST, SEQ and STARTED, and has the effect it has outside;
where the record does not fit, the trailer decides by Table 12.7: TAPE_FULL with none of its effect, unrecorded, TROWEL_FAULT, or the
next segment (R299 to R303, R306, R444). TREC.ON opens a recording on a checked segment whose trailer it clears, TREC.EXT arms the next segment in the
trailer, TREC.OFF holds or drops the tape; TREV starts on a held tape, and ends with the tape held or dropped when no record is
left (R296 to R298, R308 to R310). Each step of TREV processes one record, with the adjoint of Table 12.9 for each tile instruction:
gradients are matched by R311, contributions and adjoint tiles change as R312 to R316 have it, and a record whose check fails
traps. The derivatives are those of R314. What makes a tape corrupt is read as log 38 has it. -/
def Obligations.TapesAreRecorded : Prop :=
  (∀ (j : Instr) (s v : State) (c : TrowelIssue) (tv : Team) (wv : Trowel), memWf s → isTileOp j → TrowelIssues j s c →
     c.w.tape.mode = .recording → Machine.exec j (unrecorded s c) = .next v → v.team? c.uid = some tv → tv.trowel = some wv →
     wv.status = .running → wv.pc = c.w.pc + 4 →
     let tp := c.w.tape
     let len := recUnits c j
     let trailer := tp.limit.toNat - 256
     let next := numAt s (tapePas s c trailer 16) 0 8
     let lim := numAt s (tapePas s c trailer 16) 8 8
     let runs (new : TapeCtx) (p : State → Prop) : Prop :=
       ∃ u tu wu, Machine.exec j s = .next u ∧ u.team? c.uid = some tu ∧ tu.trowel = some wu ∧
         noResv tu = noResv { tv with trowel := some wu } ∧ wu = { wv with tape := { new with started := wu.tape.started } } ∧
         (∀ k < 8, wu.tape.started.getLsbD k = (new.started.getLsbD k || (match j with
           | .tzero sl _ => ((namedTile wv.tiles sl.toNat).map fun t => t.covers.any fun x => (tileAt c.w.tiles k).covers.contains x || decide (x = k)).getD false
           | .tld _ sl _ => ((namedTile c.w.tiles sl.toNat).map fun t => t.covers.contains k).getD false
           | _ => false))) ∧ p u
     let writes (from_ : TapeCtx) (zeroed : List Nat) : Prop :=
       let pas := tapePas s c from_.ptr.toNat (256 * len)
       runs { from_ with last := from_.ptr, ptr := from_.ptr + BitVec.ofNat 57 (256 * len), seq := from_.seq + 1 } fun u =>
         HoldsRecord s u c j pas ∧ (∀ a ∈ zeroed, a ∉ pas → l2Read u a = 0) ∧
           ∀ a, a ∉ pas → a ∉ zeroed → l2Read u a = l2Read s a
     (tp.ptr.toNat + 256 * len + 256 ≤ tp.limit.toNat → tapeReady s c .w tp.ptr.toNat (256 * len) →
       (tapePas s c tp.ptr.toNat (256 * len)).Nodup → writes tp []) ∧
     (tp.limit.toNat < tp.ptr.toNat + 256 * len + 256 → tapeReady s c .r trailer 16 →
       (next = 0 → lim = 0 → TrowelHalts j s c 0x0205 (BitVec.ofNat 64 trailer)) ∧
       (next % 2 = 1 → runs { tp with broken := true, mode := .off } fun u => ∀ a, l2Read u a = l2Read s a) ∧
       (next % 2 = 0 → ¬ (next = 0 ∧ lim = 0) → (2 ^ 57 ≤ next ∨ ¬ isSegment c next lim ∨ (next < tp.limit.toNat ∧ tp.seg.toNat < lim)) →
         TrowelHalts j s c 0x0204 0) ∧
       (next < 2 ^ 57 → lim < 2 ^ 57 → isSegment c next lim → ¬ (next < tp.limit.toNat ∧ tp.seg.toNat < lim) → next + 256 * len + 256 ≤ lim →
         tapeReady s c .w (lim - 256) 256 → tapeReady s c .w next (256 * len) →
         (tapePas s c (lim - 256) 256 ++ tapePas s c next (256 * len)).Nodup →
         writes { tp with ptr := BitVec.ofNat 57 next, limit := BitVec.ofNat 57 lim, seg := BitVec.ofNat 57 next }
           (tapePas s c (lim - 256) 256)))) ∧
  (∀ (a b : BitVec 7) (x m k r p : BitVec 1) (s : State) (c : TrowelIssue),
     let base := (c.src a).toNat
     let limit := (c.src b).toNat
     let tp := c.w.tape
     let put (j : Instr) (s1 : State) (new : TapeCtx) : Prop := TrowelDoes j s c s1 fun w => { w with tape := new }
     (TrowelIssues (.trecOn a b x m) s c → tp.mode = .recording → TrowelHalts (.trecOn a b x m) s c 0x0204 0) ∧
     (TrowelIssues (.trecOn a b x m) s c → tp.mode ≠ .recording → isSegment c base limit → tapeReady s c .w (limit - 256) 256 →
       put (.trecOn a b x m) (l2Writes s (tapePas s c (limit - 256) 256) (List.replicate 256 0))
         { mode := .recording, polm := decide (m = 1), polx := decide (x = 1), ptr := BitVec.ofNat 57 base, limit := BitVec.ofNat 57 limit,
           seg := BitVec.ofNat 57 base }) ∧
     (∀ j, (j = .trecOn a b x m ∧ tp.mode ≠ .recording) ∨ (j = .trecExt a b ∧ tp.mode = .recording) → TrowelIssues j s c →
       0 < c.grid.tapeLen →
       ((base % 256 ≠ 0 ∨ limit % 256 ≠ 0) → TrowelHalts j s c 0x0112 0) ∧
       (base % 256 = 0 → limit % 256 = 0 → ¬ isSegment c base limit → TrowelHalts j s c 0x0204 0)) ∧
     (TrowelIssues .trecOff s c → tp.mode = .recording → put .trecOff s { tp with mode := if tp.last = 0 then .off else .held }) ∧
     (TrowelIssues .trecOff s c → tp.mode ≠ .recording → TrowelDoes .trecOff s c s id) ∧
     (TrowelIssues (.trecExt a b) s c → tp.mode ≠ .recording → TrowelHalts (.trecExt a b) s c 0x0204 0) ∧
     (TrowelIssues (.trecExt a b) s c → tp.mode = .recording → isSegment c base limit → tapeReady s c .w (tp.limit.toNat - 256) 16 →
       TrowelDoes (.trecExt a b) s c (l2Writes s (tapePas s c (tp.limit.toNat - 256) 16) (bytesOfNat 8 base ++ bytesOfNat 8 limit)) id) ∧
     (TrowelIssues (.trev a b k r p) s c → tp.mode ≠ .reversing → tp.broken = true → TrowelHalts (.trev a b k r p) s c 0x0206 0) ∧
     (TrowelIssues (.trev a b k r p) s c → tp.mode ≠ .reversing → tp.broken = false → tp.mode ≠ .held →
       TrowelHalts (.trev a b k r p) s c 0x0204 0) ∧
     (TrowelIssues (.trev a b k r p) s c → tp.mode = .held → tp.broken = false → c.src a = 0xFFFFFFFF → c.src b = 0 →
       Machine.exec (.trev a b k r p) s = .next (s.updTeam c.uid fun t => { t with trowel := t.trowel.map fun w =>
         { w with tape := { tp with mode := .reversing, revptr := tp.last, expect := none, map := 0xFFFFFFFF, binds := [] } } })) ∧
     (TrowelIssues (.trev a b k r p) s c → tp.mode = .reversing → tp.revptr = 0 →
       put (.trev a b k r p) s (if k = 1 then { tp with mode := .held, expect := none, binds := [], map := 0 }
         else { tp with mode := .off, last := 0, expect := none, binds := [], map := 0 })) ∧
     (∀ (h : TapeHdr) (i : Instr) (v : Valid) (bs : List Byte), TrowelIssues (.trev a b k r p) s c → tp.mode = .reversing →
       tp.revptr ≠ 0 → tapeReady s c .r tp.revptr.toNat 256 → bs = l2Reads s (tapePas s c tp.revptr.toNat 256) →
       h = hdrOf tp.revptr.toNat bs → h.wellFormed = some (i, v) → (∀ n, tp.expect = some n → h.seq + 1 = n) →
       (h.prev = 0 → h.seq = 0) → storeOk c.w.tiles → (∀ n x, barSlot tp n = some x →
         ∃ t, namedTile c.w.tiles x = some t ∧ t.mode = .f32) → (∀ n n' x, n < 8 → n' < 8 → barSlot tp n = some x → barSlot tp n' = some x → n = n') →
       AdjointOf (.trev a b k r p) (p == 1) i s c h v)) ∧
  (∀ (bs : List Binding) (v : BitVec 128) (lines elems : Nat) (b : Binding),
     let d := descOf v
     let w := elemBytes d.fmt elems
     let o := d.off - b.foff
     let row := o / d.stride
     let col := o % d.stride * 2 / fmtNibs d.fmt
     let at_ (x : Nat) : Nat := d.off + x * d.stride
     let inside (x : Nat) : Prop := b.foff ≤ at_ x ∧ at_ x + w ≤ b.foff + b.flen
     let m := matchOperand bs v lines elems
     (d.delta ≠ 0 ∨ lines = 0 ∨ elems = 0 → m = .discarded) ∧
     (d.delta = 0 → 0 < lines → 0 < elems →
       ((∀ x ∈ bs, ¬ (x.fmt = d.fmt ∧ x.stride = d.stride)) → m = .discarded) ∧
       (0 < d.stride → (bs.filter fun x => decide (x.fmt = d.fmt) && decide (x.stride = d.stride)) = [b] →
         ((∀ x < lines, ¬ (at_ x < b.foff + b.flen ∧ b.foff < at_ x + w)) → m = .discarded) ∧
         ((∃ x < lines, at_ x < b.foff + b.flen ∧ b.foff < at_ x + w) → ¬ (∀ x < lines, inside x) → m = .fault) ∧
         ((∀ x < lines, inside x) → (row + lines ≤ 256 ∧ col + elems ≤ 256 → m = .found { slot := b.slot, row := row, col := col }) ∧
           (256 < row + lines ∨ 256 < col + elems → m = .fault))))) ∧
  (∀ (md : TileMode) (f64 : Bool) (unit : Int) (u : Machine.Num) (x : Elem) (ps qs : List ℚ) (terms : List (Machine.Num × Machine.Num)),
     let value (z : Elem) : ℚ := (z.a.toInt : ℚ) * (2 : ℚ) ^ z.f
     let five (y : Machine.Num) : Machine.Num := fmtE5M2.value (fmtE5M2.convert .rne 0 true y).1
     let products : ℚ := ((ps.zip qs).map fun r => r.1 * r.2).sum
     (∀ p q, md ≠ .exact → exactValue u = some p → exactValue (md.fmt.value x.bits) = some q →
       ∀ neg m e, 0 < m → p + q = ratOf neg m e → (enterOne u md x).1.bits = (md.fmt.round .rne 0 false neg m e).1) ∧
     (u.isNan → value (enterOne u .exact x).1 = value x ∧ (enterOne u .exact x).2 = 0x10) ∧
     (∀ p, exactValue (five u) = some p → u.isNan = false → (enterOne u .exact x).2 &&& 0x20 = 0 →
       value (enterOne u .exact x).1 = value x + p) ∧
     (terms.map (fun r => exactValue r.1) = ps.map some → terms.map (fun r => exactValue r.2) = qs.map some →
       (md ≠ .exact → ∀ q, exactValue (md.fmt.value x.bits) = some q → (enterSum f64 unit terms md x).2 = 0 →
         exactValue (md.fmt.value (enterSum f64 unit terms md x).1.bits) = some (q + products))) ∧
     (terms.map (fun r => exactValue (five r.1)) = ps.map some → terms.map (fun r => exactValue r.2) = qs.map some →
       (∀ r ∈ terms, r.1.isNan = false ∧ ∀ neg m e, r.2 = .fin neg m e → unit ≤ e) →
       (enterSum f64 unit terms .exact x).2 &&& 0x20 = 0 → value (enterSum f64 unit terms .exact x).1 = value x + products)) ∧
  ∀ (f : Fmt) (x : Nat),
     let v := f.value x
     let f32 (op : FpOp) (y z : Nat) : Nat := (fpArith fmtF32 op .rne y z 0).1
     let one : Nat := 0x3F800000
     let e := (elemResult .exp2 .rne (f32 .mul x 0x3FB8AA3B ^^^ 2 ^ 31)).1
     let r := (elemResult .rcp .rne (f32 .add one e)).1
     (v = .inf false ∨ (∃ q, exactValue v = some q ∧ 0 < q) → exactValue (derivative 0 f x).1 = some 1) ∧
     (v.isNan ∨ v = .inf true ∨ (∃ q, exactValue v = some q ∧ q ≤ 0) → exactValue (derivative 0 f x).1 = some 0) ∧
     (∀ q, exactValue v = some q → exactValue (derivative 2 f x).1 = some (2 * q)) ∧
     (v = .inf false → exactValue (derivative 1 f x).1 = some 1) ∧ (v = .inf true → exactValue (derivative 1 f x).1 = some 0) ∧
     (v.isNan → (derivative 1 f x).1.isNan) ∧
     ((exactValue v).isSome →
       (derivative 1 f x).1 = fmtF32.value (f32 .mul r (f32 .add one (f32 .mul x (f32 .sub one r)))))

/-- Package reset keeps the flash and nothing else of the machine, removed power leaves it unpowered, a junction
overtemperature asserts ALERT_N (R422, R437). A firmware image is accepted where R426 says so. Bring-up boots an accepted primary
image, else the recovery image, which the strap and the recovery command ask for, with none it stays at L0 (R424, R428); then it
goes on step by step: BIST, which logs, counts and fences the units that fail, and with one of a base die ends at L0; training, to
L1, where the recovery image stays with the Scrim ports untrained; calibration, to L2; and the raised clock, to L3. A firmware
image enters the primary slot only where it is accepted (R427); an attestation report answers with the nonce (R429). The
functions of the signature, the contents of the flash, the cleared memory and the steps of bring-up that are one event each are
the choices of the model (logs 1, 8, 13, 54, 78, 79). -/
def Obligations.PowerAndImageEvents : Prop :=
  (∀ (m : Module) (img : List Byte),
     let fld (o n : Nat) : Nat := natOfBytes ((img.drop o).take n)
     let key := bytesOfNat 57 ((m.keys[fld 0x0C 1]?).getD 0).toNat
     imageAccepted m img = true ↔ 256 + fld 8 4 ≤ img.length ∧ fld 0 4 = 0x4F444E4E ∧ fld 0x0C 1 < 4 ∧
       m.revoked.getLsbD (fld 0x0C 1) = false ∧ Config.shake512 key = (m.keyHash[fld 0x0C 1]?).getD 0 ∧
       (Config.shake512 ((img.drop 0x100).take (fld 8 4))).toNat = fld 0x10 64 ∧
       Config.ed448Verify key (img.take 0x80) ((img.drop 0x80).take 114) = true ∧ m.minSvn.toNat ≤ fld 4 4) ∧
  ∀ (s : State) (b : BringUp) (f : LathIn),
    let fresh : State := { State.reset with flash := s.flash, tick := s.tick, agenda := s.agenda }
    let good := imageAccepted s.flash s.flash.primary
    let spare := imageAccepted s.flash s.flash.recovery
    let boots (img : List Byte) (r : Bool) : State := { fresh with firmware :=
      { recoveryRunning := r, svn := BitVec.ofNat 32 (natOfBytes ((img.drop 4).take 4)),
        digest := BitVec.ofNat 512 (natOfBytes ((img.drop 0x10).take 64)), bring := some b } }
    let nothingRuns : Prop := s.teams = [] ∧ s.grids = [] ∧ s.colls = [] ∧ ∀ k, (s.core k).l1 = []
    let baseDie (u : FaultUnit) : Prop := ∃ n w, u = .baseDie n w
    Machine.exec .packageReset s = .next fresh ∧
    Machine.exec .powerRemoved s = .next { fresh with firmware := { powered := false } } ∧
    (s.firmware.powered = true →
      Machine.exec .junctionOvertemp s = .next { s with firmware := { s.firmware with alert := true } }) ∧
    (s.arg = .boot b → b.recov = false → good = true → Machine.exec .perstNRelease s = .next (boots s.flash.primary false)) ∧
    (s.arg = .boot b → (b.recov = true ∨ good = false) → spare = true →
      Machine.exec .perstNRelease s = .next (boots s.flash.recovery true)) ∧
    (s.arg = .boot b → (b.recov = true ∨ good = false) → spare = false → Machine.exec .perstNRelease s = .next fresh) ∧
    (s.arg = .nothing → s.firmware.bring = none → Machine.exec .perstNRelease s = .next s) ∧
    (s.arg = .nothing → s.firmware.bring = some b →
      (s.level = 0 → s.base = 0 → nothingRuns → ∃ t, Machine.exec .perstNRelease s = .next t ∧ t.level = 0 ∧
        t.base = BitVec.allOnes 64 ∧ counterOf t 2 = counterOf s 2 + BitVec.ofNat 64 b.bistFail.length ∧
        t.errHead = s.errHead + BitVec.ofNat 64 b.bistFail.length ∧
        (∀ k < 64, (t.core k).fenced = true ↔ (s.core k).fenced = true ∨ ∃ u ∈ b.bistFail, (∃ w, u = .coreSram k w) ∨ ∃ l, u = .column k l) ∧
        ((∃ u ∈ b.bistFail, baseDie u) → t.firmware.bring = none) ∧
        ((∀ u ∈ b.bistFail, ¬ baseDie u) → t.firmware.bring = some b)) ∧
      (s.level = 0 → s.base ≠ 0 → ∃ t, Machine.exec .perstNRelease s = .next t ∧ t.level = 1 ∧ t.lath.freq = 650 ∧
        t.hbmUp = b.hbmUp ∧ t.cxlUp = b.cxlUp &&& ~~~s.fencedLinks ∧ t.mem = s.mem ∧ t.cores = s.cores ∧
        (∀ n < 8, (t.cxlLink n).state = if s.fencedLinks.getLsbD n then 0 else if b.cxlUp.getLsbD n then 2 else 3) ∧
        (s.firmware.recoveryRunning = true → t.scrim = s.scrim ∧ t.firmware.bring = none) ∧
        (s.firmware.recoveryRunning = false → t.firmware.bring = some b ∧
          ∀ n < 48, (t.scrimPort n).state = if s.fencedPorts.getLsbD n then 0 else if b.scrimUp.getLsbD n then 2 else 3)) ∧
      (s.level = 1 → nothingRuns → ∃ t, Machine.exec .perstNRelease s = .next t ∧ t.level = 2 ∧ t.lath = s.lath ∧
        t.firmware = s.firmware ∧ ∀ k < 64, (t.core k).fenced = ((s.core k).fenced || b.arrayFail.getLsbD k)) ∧
      (s.level = 2 → Machine.exec .perstNRelease s = .next
        { s with level := 3, lath := { s.lath with freq := 1300 }, firmware := { s.firmware with bring := none } })) ∧
    (s.arg = .recover f b → frameOk f s → f.hdr.ty = 0x40 →
      Machine.exec .recovery s = .next (if spare then boots s.flash.recovery true else fresh)) ∧
    (s.arg = .frame f → frameOk f s → f.hdr.ty = 0x41 →
      Machine.exec .firmwareLoad s = .next (acked f (if imageAccepted s.flash f.payload then
        { received s with flash := { s.flash with primary := f.payload } } else received s))) ∧
    (s.arg = .frame f → frameOk f s → f.hdr.ty = 0x42 → linkFree s → ∃ rep : List Byte,
      let at_ (o n : Nat) : List Byte := (rep.drop o).take n
      Machine.exec .attestationRequest s = .next (acked f (sends 0x10 f.hdr.addr 0 rep (received s))) ∧ rep.length = 384 ∧
        at_ 0 4 = bytesOfNat 4 0x54544141 ∧ at_ 4 4 = bytesOfNat 4 (if s.firmware.recoveryRunning then 1 else 0) ∧
        (32 ≤ f.payload.length → at_ 8 32 = f.payload.take 32) ∧ at_ 0x28 4 = bytesOfNat 4 (regRead s .pkginfo) ∧
        at_ 0x2C 4 = bytesOfNat 4 s.firmware.svn.toNat ∧ at_ 0x30 8 = bytesOfNat 8 (regRead s .coremap) ∧
        at_ 0x78 64 = bytesOfNat 64 s.firmware.digest.toNat ∧ at_ 0xF1 15 = List.replicate 15 0 ∧ at_ 0x172 14 = List.replicate 14 0)

/-- Lath frames (R430, R440 to R442): the header is laid out as Table 22.6 has it, a frame that goes out ends with its CRC-32C, and
one that arrives is sound where its CRC holds, it is the next in order, its TYPE is known, its reserved fields are zero and its
payload has at most 4,096 bytes. A register read answers the register's bytes, a plain write sets it, an offset of no register
draws status 2, a wrong form status 1, an error or a wrong number a NAK; memory reads, writes and compare-and-swaps act at the home
L2, wait for a locked page, and draw status 3 without backing; an ACK retires frames, a NAK and a timeout send them again and count
it (R432). What the payloads hold, and the details of acknowledging, are readings of the model (logs 39, 66, 67). -/
def Obligations.LathFrames : Prop :=
  (∀ h : LathHdr,
     let at_ (o n : Nat) : Nat := natOfBytes ((h.bytes.drop o).take n)
     h.bytes.length = 16 ∧ at_ 0 1 = h.ty.toNat ∧ at_ 1 1 = h.rsv1.toNat ∧ at_ 2 2 = h.seq.toNat ∧ at_ 4 2 = h.len.toNat ∧
     at_ 6 2 = h.rsv2.toNat ∧ at_ 8 8 = h.addr.toNat) ∧
  (∀ f : LathFrame,
     let b := f.bytes
     let at_ (o n : Nat) : Nat := natOfBytes ((b.drop o).take n)
     f.payload.length ≤ 4096 → f.addr.toNat < 2 ^ 56 → b.length = 20 + f.payload.length ∧ at_ 0 1 = f.ty.toNat ∧ at_ 1 1 = 0 ∧
       at_ 2 2 = f.seq.toNat ∧ at_ 4 2 = f.payload.length ∧ at_ 6 2 = 0 ∧ at_ 8 7 = f.addr.toNat ∧ at_ 15 1 = f.status.toNat ∧
       (b.drop 16).take f.payload.length = f.payload ∧
       at_ (16 + f.payload.length) 4 = (crc32c (b.take (16 + f.payload.length))).toNat) ∧
  (∀ f : LathIn,
     (f.crcOk = true ↔ f.payload.length = f.hdr.len.toNat ∧ f.crc = crc32c (f.hdr.bytes ++ f.payload)) ∧
     (f.formOk = true ↔ f.hdr.ty ∈ ([0x01, 0x02, 0x03, 0x04, 0x05, 0x10, 0x20, 0x21, 0x22, 0x30, 0x31, 0x40, 0x41, 0x42] : List Byte) ∧
       f.hdr.rsv1 = 0 ∧ f.hdr.rsv2 = 0 ∧ f.hdr.len.toNat ≤ 4096)) ∧
  crc32c ((List.range 9).map fun k => BitVec.ofNat 8 (0x31 + k)) = 0xE3069283 ∧
  (∀ (s : State) (f : LathIn), s.arg = .frame f → frameOk f s → linkFree s →
     let s' := received s
     let a := f.hdr.addr.toNat
     let ty := f.hdr.ty
     let v : BitVec 256 := BitVec.ofNat 256 (natOfBytes f.payload)
     let count := min 4096 (natOfBytes (f.payload.take 4))
     let old := l2Read64 s a
     let expect := BitVec.ofNat 64 (natOfBytes (f.payload.take 8))
     let new := (f.payload.drop 8).take 8 ++ List.replicate (16 - f.payload.length) 0
     let pa (n : Nat) : Prop := s.lath.swap = none ∧ ∀ j < n, backed s (a + j) = true
     let noBack (n : Nat) : Prop := s.lath.swap = none ∧ ∃ j < n, backed s (a + j) = false
     let answers (j : Instr) (st : Byte) (bs : List Byte) : Prop := Machine.exec j s = .next (acked f (sends 0x10 f.hdr.addr st bs s'))
     (∀ r, lathReg? a = some r → ty = 0x01 → answers .lathRegisterWrite 0 (bytesOfNat (regBytes r) (regRead s r))) ∧
     (a = 0x38 → ty = 0x02 → Machine.exec .lathRegisterWrite s = .next (acked f { s' with lath := { s'.lath with
       colltmo := v.extractLsb' 0 32 } })) ∧
     (a = 0x110 → ty = 0x02 → Machine.exec .lathRegisterWrite s = .next (acked f { s' with lath := { s'.lath with
       rttBase := v.extractLsb' 26 26, rttEn := v.getLsbD 0
       rttSet := v.getLsbD 0 || (s.lath.rttSet && decide (v.extractLsb' 26 26 = s.lath.rttBase)) } })) ∧
     (∀ c < 1024, a = 0x508000 + 8 * c → ty = 0x02 →
       Machine.exec .lathRegisterWrite s = .next (acked f { s' with route := mapSet s.route c (v.extractLsb' 0 48) })) ∧
     ((∃ r, lathReg? a = some r ∧ (r = .pkginfo ∨ r = .coremap ∨ r = .errhead ∨ ∃ n, r = .qfault n ∨ r = .locstat n ∨ r = .errEntry n ∨
         r = .counter n)) → ty = 0x02 → Machine.exec .lathRegisterWrite s = .next (acked f s')) ∧
     (lathReg? a = none → ty = 0x01 ∨ ty = 0x02 → answers .lathRegisterWrite 2 []) ∧
     (ty = 0x10 ∨ ty = 0x20 ∨ ty = 0x21 ∨ ty = 0x22 → Machine.exec .lathRegisterWrite s = .next (acked f s')) ∧
     (pa count → ty = 0x03 → answers .lathMemoryRead 0 ((List.range count).map fun j => l2Read s (a + j))) ∧
     (pa f.payload.length → ty = 0x04 → memWf s → ∃ t, Machine.exec .lathMemoryWrite s = .next t ∧
       (∀ x, l2Read t x = lastWrite (writesAt a f.payload) x (l2Read s x)) ∧ SameTeams s t ∧
       t = acked f { s' with mem := t.mem, l2Dirty := t.l2Dirty, teams := t.teams }) ∧
     (pa 8 → ty = 0x05 → memWf s → ∃ t, Machine.exec .lathMemoryCas s = .next t ∧
       (∀ x, l2Read t x = if old = expect then lastWrite (writesAt a (new.take 8)) x (l2Read s x) else l2Read s x) ∧
       SameTeams s t ∧ t = acked f (sends 0x10 f.hdr.addr 0 (bytesOfNat 8 old.toNat)
         { s' with mem := t.mem, l2Dirty := t.l2Dirty, teams := t.teams })) ∧
     (noBack count → ty = 0x03 → answers .lathMemoryRead 3 []) ∧
     (noBack f.payload.length → ty = 0x04 → answers .lathMemoryWrite 3 []) ∧
     (noBack 8 → ty = 0x05 → answers .lathMemoryCas 3 []) ∧
     (ty = 0x03 → rangeLocked s a count = true → Machine.exec .lathMemoryRead s = .next s) ∧
     (ty = 0x04 → rangeLocked s a f.payload.length = true → Machine.exec .lathMemoryWrite s = .next s) ∧
     (ty = 0x05 → rangeLocked s a 8 = true → Machine.exec .lathMemoryCas s = .next s)) ∧
  (∀ (s : State) (f : LathIn) (j : Instr), s.firmware.powered = true → s.arg = .frame f →
     j ∈ [Instr.lathRegisterWrite, .lathMemoryRead, .lathMemoryWrite, .lathMemoryCas, .firmwareLoad, .attestationRequest] →
     let reply (ty : Byte) (seq : BitVec 16) (s : State) : State :=
       { s with lath := { s.lath with sent := s.lath.sent ++ [{ ty := ty, seq := seq, addr := 0, status := 0, payload := [] }] } }
     let nak := reply 0x31 s.lath.rxSeq s
     let isReply : Prop := f.hdr.ty = 0x30 ∨ f.hdr.ty = 0x31
     (f.crcOk = false → Machine.exec j s = .next nak ∧ Machine.exec .lathAck s = .next nak ∧ Machine.exec .lathNak s = .next nak) ∧
     (f.crcOk = true → ¬ isReply → f.hdr.seq ≠ s.lath.rxSeq → Machine.exec j s = .next nak) ∧
     (f.crcOk = true → ¬ isReply → f.hdr.seq = s.lath.rxSeq → f.formOk = false → linkFree s →
       Machine.exec j s = .next (acked f (sends 0x10 f.hdr.addr 1 [] (received s)))) ∧
     (f.crcOk = true → f.formOk = true → ∀ pre x post, s.lath.unacked = pre ++ x :: post → (∀ y ∈ pre, y.seq ≠ x.seq) →
       s.lath.backlog = [] → f.hdr.seq = x.seq →
       (f.hdr.ty = 0x30 → Machine.exec .lathAck s = .next { s with lath := { s.lath with unacked := post } }) ∧
       (f.hdr.ty = 0x31 → ∃ t, Machine.exec .lathNak s = .next t ∧ t = { s with counters := t.counters, lath := { s.lath with
           unacked := x :: post, sent := s.lath.sent ++ x :: post } } ∧
         counterOf t 6 = counterOf s 6 + BitVec.ofNat 64 (post.length + 1) ∧ ∀ n, n ≠ 6 → counterOf t n = counterOf s n))) ∧
  ∀ (s : State) (x : LathFrame) (rest : List LathFrame), s.lath.unacked = x :: rest → ∃ t, Machine.exec .lathResendTimeout s = .next t ∧
    t = { s with counters := t.counters, lath := { s.lath with sent := s.lath.sent ++ [x] } } ∧
    counterOf t 6 = counterOf s 6 + 1 ∧ ∀ n, n ≠ 6 → counterOf t n = counterOf s n

/-- COLCLK, PWRLIM and the power controller (R20, R231, R29, R436): a ratio change is taken once, ERR is set by a reserved
ratio or while one runs, and it applies to `ratio` when no column is frozen; an interval over the limit is
counted, and at L3 one over or under it moves the clock. SCRIMID, LINKST and VGATE (R341, R434, R435, R445, R229): CHIPID changes with every port
down; EN starts and stops a link that is not fenced; a trained link is up or failed, and an error trains it again; a core without teams is gated
once its FIFOs are empty, and comes back. The interval at L0, a fenced link, and the caches of a gated core, are read as
logs 40, 42 and 78 have it. -/
def Obligations.ClockAndGateRegisters : Prop :=
  (∀ (s : State) (f : LathIn) (mw : Nat),
     let v := f.val
     let l := s.lath
     let s' := received s
     let l' := s'.lath
     (writesReg f s 0x20 → (l.colBusy = true ∨ v.extractLsb' 0 2 = 3) →
       Machine.exec .colclkWrite s = .next (acked f { s' with lath := { l' with colErr := true } })) ∧
     (writesReg f s 0x20 → l.colBusy = false → v.extractLsb' 0 2 ≠ 3 →
       Machine.exec .colclkWrite s = .next (acked f { s' with lath := { l' with
         colErr := l.colErr && !v.getLsbD 31, colBusy := true, colSince := s.clk, ratioNew := v.extractLsb' 0 2 } })) ∧
     (l.colBusy = true → (∀ k ∈ s.cores, k.2.frozen = none) → ∃ t, Machine.exec .colclkRatioApply s = .next t ∧
       t = { s with lath := { l with ratio := l.ratioNew, colBusy := false }, teams := t.teams } ∧
       (∀ u g r, cell t u g r = cell s u g r) ∧ ∀ u o, localAt t u o = localAt s u o) ∧
     (let w := (v.extractLsb' 0 12).toNat
      writesReg f s 0x40 → Machine.exec .pwrlimWrite s = .next (acked f (if 1000 ≤ w ∧ w ≤ 3400 then
        { s' with lath := { l' with pwrErr := l.pwrErr && !v.getLsbD 31, pwrLimit := v.extractLsb' 0 12 } }
       else { s' with lath := { l' with pwrErr := true } }))) ∧
     (let limit := 1000 * l.pwrLimit.toNat
      let above := limit < mw
      let old := l.freq.toNat
      let mhz := if above then max 650 (old - 25) else if 100 * mw < 95 * limit then min 1300 (old + 25) else old
      s.arg = .one mw →
       s.level ≠ 0 → ∃ t, Machine.exec .powerIntervalEnd s = .next t ∧
         t = { s with counters := t.counters, lath := { l with freq := if s.level = 3 then BitVec.ofNat 16 mhz else l.freq } } ∧
         counterOf t 4 = counterOf s 4 + (if above then 1 else 0) ∧ ∀ n, n ≠ 4 → counterOf t n = counterOf s n) ∧
     (∀ a, s.arg = .one a → s.level = 0 → Machine.exec .powerIntervalEnd s = .next s)) ∧
  (∀ (s : State) (f : LathIn) (n : Nat),
     let v := f.val
     let s' := received s
     let l' := s'.lath
     let p := s.scrimPort n
     let x := s.cxlLink n
     let port (k : Link) (t : State) : State := { t with scrim := mapSet s.scrim n k }
     let link (k : Link) (t : State) : State := { t with cxl := mapSet s.cxl n k }
     (writesReg f s 0x30 → (v.extractLsb' 0 10 = s.lath.chipId ∨ ∀ k < 48, (s.scrimPort k).state = 0) →
       Machine.exec .scrimidWrite s = .next (acked f
         { s' with lath := { l' with scrimErr := s.lath.scrimErr && !v.getLsbD 31, chipId := v.extractLsb' 0 10 } })) ∧
     (writesReg f s 0x30 → v.extractLsb' 0 10 ≠ s.lath.chipId → (∃ k < 48, (s.scrimPort k).state ≠ 0) →
       Machine.exec .scrimidWrite s = .next (acked f { s' with lath := { l' with scrimErr := true } })) ∧
     (n < 48 → writesReg f s (0x700000 + 8 * n) → v.getLsbD 3 = false →
       Machine.exec .linkstEnClear s = .next (acked f (port { p with en := false, state := 0 } s'))) ∧
     (n < 8 → writesReg f s (0x700200 + 8 * n) → v.getLsbD 3 = false →
       Machine.exec .linkstEnClear s = .next (acked f (link { x with en := false, state := 0 } s'))) ∧
     (n < 48 → writesReg f s (0x700000 + 8 * n) → v.getLsbD 3 = true → Machine.exec .linkstEnSet s = .next (acked f (
       if s.fencedPorts.getLsbD n then s' else port (if p.state = 0 then { trains p with en := true } else p) s'))) ∧
     (n < 8 → writesReg f s (0x700200 + 8 * n) → v.getLsbD 3 = true → Machine.exec .linkstEnSet s = .next (acked f (
       if s.fencedLinks.getLsbD n then s' else link (if x.state = 0 then { trains x with en := true } else x) s'))) ∧
     (∀ up, s.arg = .link false n up →
       (p.state = 1 → Machine.exec .linkTrainingEnd s = .next (port { p with state := if up then 2 else 3 } s)) ∧
       (p.state = 2 → Machine.exec .linkError s = .next (port (trains p) s))) ∧
     (∀ up, s.arg = .link true n up →
       (x.state = 1 → Machine.exec .linkTrainingEnd s = .next (link { x with state := if up then 2 else 3 } s)) ∧
       (x.state = 2 → Machine.exec .linkError s = .next (link (trains x) s))) ∧
     (n < 64 → writesReg f s (0x400000 + 8 * n) → v.getLsbD 0 = true → Machine.exec .vgateRequest s = .next (acked f (
       if ∃ t ∈ s.teams, t.core = n then s'.updCore n fun k => { k with vgErr := true }
       else s'.updCore n fun k => { k with vgErr := k.vgErr && !v.getLsbD 2, vgReq := true, ungating := false }))) ∧
     (n < 64 → writesReg f s (0x400000 + 8 * n) → v.getLsbD 0 = false → Machine.exec .vgateUngate s = .next (acked f (
       s'.updCore n fun k => { k with vgErr := k.vgErr && !v.getLsbD 2, vgReq := false, ungating := k.gated }))) ∧
     (s.arg = .one n → (s.core n).vgReq = true → (s.core n).gated = false → (s.core n).fifo = [] → (s.core (partner n)).fifo = [] →
       memWf s → l1Wf (s.core n) → ∃ s1, Performed s s1 n ∧ (s1.core n).l1 = [] ∧
         Machine.exec .vgateGated s = .next (s1.updCore n fun k => { k with gated := true, tlb := [] })) ∧
     (s.arg = .one n → (s.core n).ungating = true →
       Machine.exec .vgateUngateDone s = .next (s.updCore n fun k => { k with gated := false, ungating := false })))

/-- A write of a window entry (R343 to R345): an entry whose EN is 0 takes the written fields, ERR and the drop bit cleared
where written 1, or sets ERR alone where its range is bad; EN cleared leaves the rest, and discards the package's own
reflections on their way to a receive entry (R349). Reflections (R340, R342, R347, R348): one for another chip leaves by the
port of its route, once that is up, in the order of its flow; one that arrives is acted on by the first row of Table 14.5: it is
discarded, which sets DROP and counts, waits on LOCK, is written at the home L2, is held for a team that is not resident, or
writes its bytes into the team's Hawk or column and sets their granules full; one that finds no way out for 1 ms is discarded,
which sets TXDROP and counts. What was in flight, and the count of the 1 ms, are read as logs 43 and 44
have it. -/
def Obligations.WindowEntriesAndReflections : Prop :=
  (∀ (s : State) (f : LathIn) (i : Nat), i < 512 →
     let v := f.val
     let s' := received s
     let tx := (v &&& txFields) ||| (s.txEntry i &&& 0x14 &&& ~~~v)
     let rx := (v &&& rxFields) ||| (s.rxEntry i &&& 0x30 &&& ~~~v)
     let put (t : State) : Prop := Machine.exec .windowEntryWrite s = .next (acked f t)
     (writesReg f s (0x500000 + 32 * i) → winEn (s.txEntry i) = false →
       put (if winEn tx = true ∧ txOk s i tx = false then { s' with txw := mapSet s.txw i (s.txEntry i ||| 4) }
         else { s' with txw := mapSet s.txw i tx })) ∧
     (writesReg f s (0x500000 + 32 * i) → winEn (s.txEntry i) = true → winEn v = false →
       put (if (s.txEntry i ^^^ v) &&& txFields = 1 then { s' with txw := mapSet s.txw i tx }
         else { s' with txw := mapSet s.txw i (s.txEntry i ||| 4) })) ∧
     (writesReg f s (0x504000 + 32 * i) → winEn (s.rxEntry i) = false →
       put (if winEn rx = true ∧ rxOk rx = false then { s' with rxw := mapSet s.rxw i (s.rxEntry i ||| 0x10) }
         else { s' with rxw := mapSet s.rxw i rx })) ∧
     (writesReg f s (0x504000 + 32 * i) → winEn (s.rxEntry i) = true → winEn v = false → (s.rxEntry i ^^^ v) &&& rxFields = 1 →
       ∃ t, put t ∧ winEn (t.rxEntry i) = false ∧ ∀ x ∈ t.outbox, ¬ (x.dchip = s.lath.chipId ∧ x.rxIdx = i))) ∧
  (∀ (s : State) (f : Flit), s.arg = .flit f →
     let e := s.rxEntry f.rxIdx
     let fresh : Prop := firstOfFlow s f = true ∨ (f.schip ≠ s.lath.chipId ∧ f ∉ s.outbox)
     let arrives : Prop := f.dchip = s.lath.chipId ∧ (∀ h ∈ s.lockedRefl, ¬ (h.2 = f ∨ sameFlow h.2 f = true)) ∧ s.heldRefl.length < 4096 ∧
       (∀ h ∈ s.heldRefl, h.2.2 ≠ f ∧ sameFlow h.2.2 f = false) ∧ fresh
     let inRange : Prop := f.stale = false ∧ winEn e = true ∧ (rxAny e = true ∨ fld256 e 32 10 = f.schip.toNat) ∧ f.offset + f.data.length ≤ winLen e
     -- the first row of Table 14.5 that discards
     let discards : Prop := ∃ t, Machine.exec .reflectionArrival s = .next t ∧ t.outbox = s.outbox.erase f ∧
       t.rxEntry f.rxIdx = e ||| 0x20 ∧ counterOf t 5 = counterOf s 5 + 1 ∧ SameMemory s t ∧ t.teams = s.teams ∧
       (f.schip = s.lath.chipId → ∀ x ∈ t.undelivered, x.2.2 ≠ f.serial)
     let o := fld256 e 64 32 + f.offset
     let teamOf (g : Grid) : Option Team := s.teams.find? fun t => decide (t.grid = g.uid) && decide (t.teamid = fld256 e 96 32)
     let ports : List Nat := (List.range 48).filter fun n => ((mapGet s.route f.dchip.toNat).getD 0).getLsbD n
     let route : Option Nat := ports[(512 * f.core + f.tx) % ports.length]?
     (∀ n, f.dchip ≠ s.lath.chipId → route = some n → (s.scrimPort n).state = 2 → fresh →
       Machine.exec .flitForward s = .next { s with outbox := s.outbox.erase f, forwarded := s.forwarded ++ [(n, f)] }) ∧
     (f.dchip ≠ s.lath.chipId → (∀ n, route = some n → (s.scrimPort n).state ≠ 2) → Machine.exec .flitForward s = .next s) ∧
     (arrives → ¬ inRange → discards) ∧
     (arrives → inRange → rxKind e = false → (∀ q ∈ s.queues, q.2.en = true → q.2.asid.toNat ≠ fld256 e 168 12) → discards) ∧
     (∀ q, arrives → inRange → rxKind e = false → asidQueue s (fld256 e 168 12) = some q →
       (∃ j < f.data.length, let va := fld256 e 64 64 + f.offset + j
         2 ^ 57 ≤ va ∨ match walk s (q.root.toNat * 2 ^ 22) va with
           | .leaf l => l.word.getLsbD 3 = false ∨ entryTier l.word = true
           | _ => True) → discards) ∧
     (∀ q l, arrives → inRange → rxKind e = false → asidQueue s (fld256 e 168 12) = some q → f.data.length = 1 →
       let va := fld256 e 64 64 + f.offset
       let pa := entryPa l.word + va % 2 ^ l.shift
       va < 2 ^ 57 → walk s (q.root.toNat * 2 ^ 22) va = .leaf l → l.word.getLsbD 3 = true → entryTier l.word = false →
       (entryLock l.word = true → Machine.exec .reflectionArrival s =
         .next { s with outbox := s.outbox.erase f, lockedRefl := s.lockedRefl ++ [(e, f)] }) ∧
       (entryLock l.word = false → memWf s → ¬ (l.entry ≤ pa ∧ pa < l.entry + 8) → ∃ t, Machine.exec .reflectionArrival s = .next t ∧
         t.outbox = s.outbox.erase f ∧ f.data = [l2Read t pa] ∧ l2Read64 t l.entry = l.word ||| 0x60 ∧
         (∀ x, x ≠ pa → ¬ (l.entry ≤ x ∧ x < l.entry + 8) → l2Read t x = l2Read s x) ∧ ∀ u o, localAt t u o = localAt s u o)) ∧
     (arrives → inRange → rxKind e = true → oldestGrid s (fld256 e 180 10) = none → discards) ∧
     (∀ g, arrives → inRange → rxKind e = true → oldestGrid s (fld256 e 180 10) = some g →
       (teamOf g = none → Machine.exec .reflectionArrival s =
         .next { s with outbox := s.outbox.erase f, heldRefl := s.heldRefl ++ [(g.uid, e, f)] }) ∧
       ∀ m, teamOf g = some m → s.team? m.uid = some m →
         (localOk g o f.data.length = false → discards) ∧
         (localOk g o f.data.length = true → f.data ≠ [] → (columnBase ≤ o → (s.core m.core).frozen = none ∧ s.lath.colBusy = false) →
           teamMemWf m = true → ∃ t tm, Machine.exec .reflectionArrival s = .next t ∧ t.outbox = s.outbox.erase f ∧
             t.team? m.uid = some tm ∧ (∀ u, u ≠ m.uid → t.team? u = s.team? u) ∧
             t.mem = s.mem ∧ (∀ x, localAt t m.uid x = lastWrite (writesAt o f.data) x (localAt s m.uid x)) ∧
             (∀ i < f.data.length, tm.full (o + i) = true) ∧ tm.groups = m.groups)) ∧
     (∀ h rest g m, f.dchip = s.lath.chipId → (∀ k ∈ s.lockedRefl, k.2 ≠ f ∧ sameFlow k.2 f = false) → s.heldRefl = h :: rest →
       h.2.2 = f → h.2.1 = e → inRange → rxKind e = true → oldestGrid s (fld256 e 180 10) = some g → teamOf g = some m →
       s.team? m.uid = some m → localOk g o f.data.length = true → (columnBase ≤ o → (s.core m.core).frozen = none ∧ s.lath.colBusy = false) →
       teamMemWf m = true → ∃ t, Machine.exec .reflectionArrival s = .next t ∧ t.heldRefl = rest ∧
         (∀ x, localAt t m.uid x = lastWrite (writesAt o f.data) x (localAt s m.uid x))) ∧
     (f.schip = s.lath.chipId → f ∈ s.outbox → f.dchip ≠ s.lath.chipId → (∀ n, route = some n → (s.scrimPort n).state ≠ 2) →
       1000 * s.lath.freq.toNat ≤ (mapGet s.stuck f.serial).getD 0 →
       ∃ t, Machine.exec .reflectionTimeout s = .next t ∧ t.outbox = s.outbox.erase f ∧ t.txEntry f.tx = s.txEntry f.tx ||| 0x10 ∧
         counterOf t 5 = counterOf s 5 + 1 ∧ (∀ x ∈ t.undelivered, x.2.2 ≠ f.serial) ∧ SameMemory s t))

/-- XLATINV (R89): a write with a SCOPE is taken while BUSY is 0 and sets ERR while it is 1; when it is done no TLB holds a
matching entry and the RTT none, and every other entry stays. The swap engine (R90 to R92): GO checks both leaves, their sizes,
tiers, locks and pins, and sets LOCK on both; the exchange swaps the bytes of the frames and PPN and TIER of the leaves, clears
LOCK, leaves no TLB or RTT entry of the frames, and changes no other byte. The level of the table of a leaf that no walk reaches,
and the RTT while EN is 0, are the model's readings (logs 19 and 71). -/
def Obligations.TranslationUpkeep : Prop :=
  (∀ (s : State) (f : LathIn),
     let v := f.val
     let page := s.lath.xiPage.toNat * 65536
     (∀ j sc, (j = .xlatinvPage ∧ sc = 1 ∨ j = .xlatinvAsid ∧ sc = 2 ∨ j = .xlatinvAll ∧ sc = 3) → writesReg f s 0x120 →
       v.extractLsb' 0 2 = sc →
       (s.lath.xiBusy = true → Machine.exec j s = .next (acked f { received s with lath := { (received s).lath with xiErr := true } })) ∧
       (s.lath.xiBusy = false → ∃ t, Machine.exec j s = .next (acked f t) ∧ t.lath.xiBusy = true ∧ t.lath.xiScope = sc ∧
         t.lath.xiPage = v.extractLsb' 16 41 ∧ t.lath.xiAsid = v.extractLsb' 4 12 ∧ ∀ k, ∀ e ∈ (t.core k).tlb, e ∈ (s.core k).tlb)) ∧
     (s.lath.xiBusy = true → memWf s → ∃ t, Machine.exec .xlatinvDone s = .next t ∧ t.lath.xiBusy = false ∧
       (∀ k e, e ∈ (t.core k).tlb ↔ e ∈ (s.core k).tlb ∧
         ¬ (s.lath.xiScope = 3 ∨ s.lath.xiScope = 2 ∧ e.asid = s.lath.xiAsid ∨
           s.lath.xiScope ≠ 3 ∧ s.lath.xiScope ≠ 2 ∧ e.asid = s.lath.xiAsid ∧ page / 2 ^ e.shift = e.vpn)) ∧
       (s.lath.xiScope = 3 → ∀ va asid, rttProbe t va asid = none) ∧
       (s.lath.xiScope = 2 → ∀ va < 2 ^ 57, rttProbe t va s.lath.xiAsid.toNat = none) ∧
       (s.lath.xiScope ≠ 3 → s.lath.xiScope ≠ 2 → ∀ va, va / 65536 = s.lath.xiPage.toNat → rttProbe t va s.lath.xiAsid.toNat = none) ∧
       (s.lath.xiScope ≠ 3 → ∀ va < 2 ^ 57, ∀ asid < 4096, asid ≠ s.lath.xiAsid.toNat → rttProbe t va asid = rttProbe s va asid) ∧
       ∀ y, ¬ (rttAddr s ≤ y ∧ y < rttAddr s + 2 ^ 26) → l2Read t y = l2Read s y)) ∧
  (∀ (s : State) (f : LathIn),
     let ea := s.lath.swapA.toNat * 16
     let eb := s.lath.swapB.toNat * 16
     let a := l2Read64 s ea
     let b := l2Read64 s eb
     let la := leafLevel s ea
     let lb := leafLevel s eb
     let valid := validLeaf s ea && validLeaf s eb
     let ends (st : BitVec 3) : Prop := Machine.exec .swapGo s =
       .next (acked f { received s with lath := { (received s).lath with swapStatus := st, swap := none } })
     (writesReg f s 0x150 → f.val.getLsbD 3 = true → s.lath.swap = none →
       (valid = false → ends 4) ∧
       (valid = true → (la ≠ lb ∨ la = 2) → ends 2) ∧
       (valid = true → la = lb → la ≠ 2 → entryTier a = entryTier b → ends 3) ∧
       (valid = true → la = lb → la ≠ 2 → entryTier a ≠ entryTier b →
         (entryLock a ∨ entryPin a ≠ 0 ∨ entryLock b ∨ entryPin b ≠ 0) → ends 1) ∧
       (valid = true → la = lb → la ≠ 2 → entryTier a ≠ entryTier b → memWf s →
         entryLock a = false → entryPin a = 0 → entryLock b = false → entryPin b = 0 →
         ∃ t, Machine.exec .swapGo s = .next (acked f t) ∧ t.lath.swap = some ⟨ea, eb, levelShift (la)⟩ ∧
           l2Read64 t ea = a ||| 0x100 ∧ l2Read64 t eb = b ||| 0x100 ∧
           ∀ x, ¬ (ea ≤ x ∧ x < ea + 8) → ¬ (eb ≤ x ∧ x < eb + 8) → l2Read t x = l2Read s x)) ∧
     (∀ q ∈ s.queues, ∀ va l, walk s (q.2.root.toNat * 2 ^ 22) va = .leaf l → l.entry = ea → levelShift la ≤ l.shift) ∧
     ∀ x : SwapRun, s.lath.swap = some x → memWf s → (∀ k, (s.core k).l1 = []) →
       let n := 2 ^ x.shift
       let wa := l2Read64 s x.ea
       let wb := l2Read64 s x.eb
       let pa := entryPa wa
       let pb := entryPa wb
       let apart (p q m : Nat) : Prop := p + m ≤ q ∨ q + n ≤ p
       let rtt (y : Nat) : Prop := rttAddr s ≤ y ∧ y < rttAddr s + 2 ^ 26
       let exchanged (y : Nat) : Prop := (pa ≤ y ∧ y < pa + n) ∨ (pb ≤ y ∧ y < pb + n) ∨ (x.ea ≤ y ∧ y < x.ea + 8) ∨ (x.eb ≤ y ∧ y < x.eb + 8)
       let meets (frame shift : Nat) : Prop := (frame < pa + n ∧ pa < frame + 2 ^ shift) ∨ (frame < pb + n ∧ pb < frame + 2 ^ shift)
       6 ≤ x.shift → pa % n = 0 → pb % n = 0 → pa ≠ pb → apart x.ea pa 8 → apart x.ea pb 8 → apart x.eb pa 8 → apart x.eb pb 8 →
       (x.ea + 8 ≤ x.eb ∨ x.eb + 8 ≤ x.ea) → (∀ y, rtt y → ¬ exchanged y) →
       ∃ t, Machine.exec .swapDone s = .next t ∧ t.lath.swap = none ∧ t.lath.swapStatus = 0 ∧
         (∀ i < n, l2Read t (pa + i) = l2Read s (pb + i) ∧ l2Read t (pb + i) = l2Read s (pa + i)) ∧
         entryPa (l2Read64 t x.ea) = pb ∧ entryPa (l2Read64 t x.eb) = pa ∧ entryTier (l2Read64 t x.ea) = entryTier wb ∧
         entryTier (l2Read64 t x.eb) = entryTier wa ∧ entryLock (l2Read64 t x.ea) = false ∧ entryLock (l2Read64 t x.eb) = false ∧
         (∀ i < 7, (l2Read64 t x.ea).getLsbD i = wa.getLsbD i ∧ (l2Read64 t x.eb).getLsbD i = wb.getLsbD i) ∧
         (∀ y, ¬ exchanged y → ¬ rtt y → l2Read t y = l2Read s y) ∧
         (∀ k, ∀ e ∈ (t.core k).tlb, e ∈ (s.core k).tlb ∧ ¬ meets e.frame e.shift) ∧
         ∀ va < 2 ^ 57, ∀ asid < 4096, ∀ l, rttProbe t va asid = some l → ¬ meets (entryPa l.word) l.shift)

/-- A walk fills the core's TLB and the RTT and sets A, and D for a write, in the leaf (R85 to R87); a lost page of a lease ends its team
(R89); lines leave the L1 with age (R329); the locality detector and the load tokens move at their times (R148 to R150). Repair
and soft errors (R230, R378 to R380, R431, R432): a repair freezes the column's bus until it ends, and is logged; one that
fails, and a second read that fails, are lasting faults, logged and counted, which fence the unit and, of a base die, bring the package to L0;
units are named by the paths of R27; a read that comes good the
second time is a transient error; an error that ECC corrects is counted and logged, and changes nothing else. The times and the
log entries are read as logs 31, 53, 57, 63 and 78 have it. -/
def Obligations.CoreUpkeepAndRepair : Prop :=
  (∀ (s : State) (c : Nat),
     (∀ (uid : Nat) (va : BitVec 57) (write : Bool) (t : Team) (gr : Grid), s.arg = .walk uid va write → s.team? uid = some t →
       s.grid? t.grid = some gr → (∀ e ∈ (s.core t.core).tlb, e.hits gr.asid va.toNat = false) → rttProbe s va.toNat gr.asid.toNat = none →
       (∀ l, walk s gr.root va.toNat = .leaf l → entryLock l.word = true → Machine.exec .translationWalk s = .next s) ∧
       (∀ l, let rtt (x : Nat) : Prop := s.lath.rttEn = true ∧ rttAddr s ≤ x ∧ x < rttAddr s + 2 ^ 26
         let w := l.word ||| 0x20 ||| (if write then 0x40 else 0)
         walk s gr.root va.toNat = .leaf l → entryLock l.word = false → memWf s → (∀ x, rtt x → ¬ (l.entry ≤ x ∧ x < l.entry + 8)) →
         ∃ t', Machine.exec .translationWalk s = .next t' ∧ l2Read64 t' l.entry = w ∧
           (∃ e ∈ (t'.core t.core).tlb, e.hits gr.asid va.toNat = true ∧ e.pa va.toNat = entryPa l.word + va.toNat % 2 ^ l.shift ∧
             e.r = l.word.getLsbD 2 ∧ e.w = l.word.getLsbD 3 ∧ (write → e.d = true)) ∧
           (s.lath.rttEn = true → ∃ r, rttProbe t' va.toNat gr.asid.toNat = some r ∧ r.word = w ∧ r.shift = l.shift) ∧
           ∀ x, ¬ (l.entry ≤ x ∧ x < l.entry + 8) → ¬ rtt x → l2Read t' x = l2Read s x) ∧
       ((walk s gr.root va.toNat = .invalid ∨ walk s gr.root va.toNat = .malformed) →
         (∃ l ∈ gr.leases, l.base ≤ va.toNat ∧ va.toNat < l.base + l.len) → t.ending = none →
         ∃ t' tm, Machine.exec .translationWalk s = .next t' ∧ t'.team? uid = some tm ∧ tm = { t with ending := some 0x0302, endClk := s.clk })) ∧
     (∀ ln e, s.arg = .two c ln → (s.core c).line? ln = some e →
       (e.dirtySince ≠ none → Machine.exec .l1LineAgeExpiry s = .next (writeBackLine s c ln)) ∧
       (e.dirtySince = none → Machine.exec .l1LineAgeExpiry s = .next (dropLine s c ln))) ∧
     (let k := s.core c
      s.arg = .one c → k.windowStart + 2 ^ (k.wlog2.toNat + 8) ≤ s.clk →
       ∃ t, Machine.exec .localityWindowEnd s = .next t ∧ OnlyCore s t ∧ (∀ n, n ≠ c → t.core n = s.core n) ∧
         (t.core c).windowStart = s.clk ∧ (t.core c).events = 0 ∧ (t.core c).lastEvents.toNat = min 65535 k.events ∧
         (k.locEn = false → (t.core c).limit = k.maxld) ∧
         (k.locEn = true → k.thr.toNat < k.events → (t.core c).limit.toNat = max 1 (k.limit.toNat / 2)) ∧
         (k.locEn = true → k.events ≤ k.thr.toNat → k.thr.toNat / 4 < k.events → (t.core c).limit = k.limit) ∧
         (k.locEn = true → k.events ≤ k.thr.toNat → k.events ≤ k.thr.toNat / 4 →
           (t.core c).limit = if k.limit.toNat < k.maxld.toNat then k.maxld else k.limit)) ∧
     (s.arg = .one c → ∃ t, Machine.exec .loadTokenReturn s = .next t ∧ OnlyCore s t ∧ (∀ n, n ≠ c → t.core n = s.core n) ∧
       (∀ h ∈ (s.core c).tokens, (s.clk < h.2.2.1 + 4096 ∧ s.clk < h.2.2.2 + 64 → h ∈ (t.core c).tokens)) ∧
       (∀ h ∈ (t.core c).tokens, (h ∈ (s.core c).tokens ∧ s.clk < h.2.2.1 + 4096 ∧ s.clk < h.2.2.2 + 64) ∨
         (h.2.2 = (s.clk, s.clk) ∧ (h.1, h.2.1) ∈ (s.core c).tokenQ)))) ∧
  (∀ (s : State) (c : Nat) (u : FaultUnit),
     let logged (t : State) (kind n : Nat) (path : String) : Prop := t.errHead = s.errHead + 1 ∧ counterOf t n = counterOf s n + 1 ∧
       ∃ e, mapGet t.errLog (s.errHead.toNat % 256) = some e ∧ e.extractLsb' 0 64 = s.errHead ∧
         e.extractLsb' 64 64 = BitVec.ofNat 64 (if t.level = 0 then 0 else s.clk) ∧ e.extractLsb' 128 64 = BitVec.ofNat 64 kind ∧
         e.extractLsb' 192 320 = BitVec.ofNat 320 (natOfBytes (asciiOf path))
     let lasting (t : State) : Prop := Machine.exec .retryReadResult s = .next t ∧ t.retryReads = s.retryReads.erase u ∧ logged t 3 2 (unitPath u)
     let due := s.lath.colBusy = false ∧ (s.core c).frozen = none ∧ coreOnline s c = true
     (s.arg = .repair c true → due → ∃ t, Machine.exec .verticalRepair s = .next t ∧ (t.core c).frozen = some s.clk ∧
       logged t 5 3 (unitPath (.column c 4)) ∧ SameMemory s t ∧ t.teams = s.teams) ∧
     (s.arg = .repair c false → due → ∃ t, Machine.exec .verticalRepair s = .next t ∧ (t.core c).fenced = true ∧
       (t.core c).l1 = [] ∧ (t.core c).tlb = [] ∧ logged t 3 2 (unitPath (.column c 4))) ∧
     (∀ d, s.arg = .one c → (s.core c).frozen = some d → ∃ t, Machine.exec .repairFreezeEnd s = .next t ∧ (t.core c).frozen = none ∧
       (∀ g k r, cell t g k r = cell s g k r) ∧ ∀ m o, localAt t m o = localAt s m o) ∧
     (s.arg = .unit u false → u ∉ s.retryReads →
       Machine.exec .uncorrectableRead s = .next { s with retryReads := s.retryReads ++ [u] }) ∧
     (s.arg = .unit u true → ∃ t, Machine.exec .uncorrectableRead s = .next t ∧ t.retryReads = s.retryReads ∧
       logged t 1 0 (unitPath u) ∧ SameMemory s t ∧ t.teams = s.teams ∧ t.cores = s.cores) ∧
     (s.arg = .unit u true → u ∈ s.retryReads → ∃ t, Machine.exec .retryReadResult s = .next t ∧
       t.retryReads = s.retryReads.erase u ∧ logged t 2 1 (unitPath u) ∧ SameMemory s t ∧ t.teams = s.teams ∧ t.cores = s.cores) ∧
     (s.arg = .unit u false → u ∈ s.retryReads →
       (∀ k what, u = .coreSram k what → ∃ t, lasting t ∧ (t.core k).fenced = true ∧ (t.core k).l1 = [] ∧ (t.core k).tlb = []) ∧
       (∀ n, u = .scrimPort n → ∃ t, lasting t ∧ (t.scrimPort n).en = false ∧ (t.scrimPort n).state = 0 ∧
         (n < 48 → t.fencedPorts.getLsbD n = true) ∧ SameMemory s t ∧ t.teams = s.teams) ∧
       (∀ n, u = .cxlLink n → ∃ t, lasting t ∧ (t.cxlLink n).en = false ∧ (t.cxlLink n).state = 0 ∧
         (n < 8 → t.fencedLinks.getLsbD n = true ∧ t.cxlUp.getLsbD n = false) ∧ SameMemory s t ∧ t.teams = s.teams) ∧
       (∀ n frames, u = .hbm n frames → (∀ g ∈ s.grids, ∀ x ∈ frames, leasesFrame s x g = false) → ∃ t, lasting t ∧
         (∀ x, x ∈ t.fencedFrames ↔ x ∈ s.fencedFrames ∨ x ∈ frames) ∧ SameMemory s t ∧ t.teams = s.teams) ∧
       (∀ pa, u = .l2Line pa → pa / 64 ∉ s.l2Dirty → ∃ t, lasting t ∧ pa / 64 ∈ t.fencedWays ∧ SameMemory s t ∧ t.teams = s.teams) ∧
       (∀ n, u = .reducer n → n < 12 → s.colls = [] → ∃ t, lasting t ∧ t.fencedReducers = s.fencedReducers ||| BitVec.twoPow 12 n ∧
         SameMemory s t ∧ t.teams = s.teams) ∧
       (∀ n what, u = .baseDie n what → (∀ g ∈ s.grids, g.suspended = [] ∧ g.restartQ = []) → ∃ t, lasting t ∧ t.level = 0 ∧
         t.lath.freq = 0 ∧ t.mem = s.mem ∧ ∀ m ∈ t.teams, m.ending ≠ none))) ∧
  unitPath (.coreSram 35 0) = "tower1.lower.core03.hawk" ∧ unitPath (.column 55 2) = "tower1.upper.core07.column.layer2" ∧
  unitPath (.column 12 4) = "tower0.lower.core12.column.vbus" ∧ unitPath (.reducer 9) = "tower1.base.hbm09.reducer" ∧
  unitPath (.scrimPort 13) = "tower0.base.scrim13" ∧ unitPath (.cxlLink 5) = "tower1.base.cxl5" ∧
  unitPath (.baseDie 1 2) = "tower1.base.bridge" ∧ unitPath (.baseDie 1 3) = "tower0.base.dispatcher"

/-- Queue registers (R76, R80, R389): TAIL is taken where PROD is 0 and the ring has room, QBASE and QROOT while EN is 0, QCTL
where its change is allowed, else ERR is set; QSTAT takes GRIDS and FAILED; RETRY lets leasing go on
at the faulting page; CANCEL gives the record up with LEASE_FAULT, a completion notice, and QSTAT. The completion of a record
that is given up is read as log 49 has it. -/
def Obligations.QueueRegisterWrites : Prop :=
  ∀ (s : State) (f : LathIn) (q : Nat), q < 1024 →
    let v := f.val
    let x := s.queue q
    let tail : BitVec 16 := v.extractLsb' 0 16
    let en := v.getLsbD 31
    let kept := { x with
      asid := v.extractLsb' 32 12, en := en, prod := v.getLsbD 30, serial := v.getLsbD 29, err := x.err && !v.getLsbD 28, prio := v.extractLsb' 20 4 }
    let refused : Prop := (x.en = true ∧ (v.extractLsb' 32 12 ≠ x.asid ∨ v.getLsbD 30 ≠ x.prod)) ∨
      (en = true ∧ (¬ (1 ≤ x.log2n.toNat ∧ x.log2n.toNat ≤ 12) ∨ s.level = 0))
    let set (y : Queue) : State := { received s with queues := mapSet s.queues q y }
    (writesReg f s (0x100010 + 32 * q) → (x.prod = true ∨ 2 ^ x.log2n.toNat < (tail - x.head).toNat) →
      Machine.exec .qptrTailWrite s = .next (acked f (set { x with err := true }))) ∧
    (writesReg f s (0x100010 + 32 * q) → x.prod = false → (tail - x.head).toNat ≤ 2 ^ x.log2n.toNat →
      Machine.exec .qptrTailWrite s = .next (acked f (set { x with tail := tail }))) ∧
    (∀ j, j = .qctlRetry ∧ v.extractLsb' 0 2 = 1 ∨ j = .qctlCancel ∧ v.extractLsb' 0 2 = 2 → writesReg f s (0x100008 + 32 * q) → refused →
      Machine.exec j s = .next (acked f (set { x with err := true }))) ∧
    (writesReg f s (0x100000 + 32 * q) → Machine.exec .lathRegisterWrite s = .next (acked f (set (if x.en then { x with err := true }
      else { x with base := v.extractLsb' 8 44, log2n := v.extractLsb' 0 4 })))) ∧
    (writesReg f s (0x100018 + 32 * q) → Machine.exec .lathRegisterWrite s = .next (acked f (set (if x.en then { x with err := true }
      else { x with root := v.extractLsb' 22 30 })))) ∧
    (writesReg f s (0x100008 + 32 * q) → v.extractLsb' 0 2 ≠ 1 → v.extractLsb' 0 2 ≠ 2 →
      (refused → Machine.exec .lathRegisterWrite s = .next (acked f (set { x with err := true }))) ∧
      (¬ refused → Machine.exec .lathRegisterWrite s = .next (acked f (set kept)))) ∧
    (writesReg f s (0x600000 + 8 * q) → x.updClk ≠ s.clk → Machine.exec .lathRegisterWrite s = .next (acked f (set
      { x with grids := v.extractLsb' 32 32, failed := v.extractLsb' 16 16 }))) ∧
    ∀ u rest g l p, x.pending = u :: rest → s.grid? u = some g → g.stage = .lwait l p → ¬ refused → writesReg f s (0x100008 + 32 * q) →
      (v.extractLsb' 0 2 = 1 → ∃ t, Machine.exec .qctlRetry s = .next (acked f t) ∧ t.queue q = kept ∧
        t.grid? u = some { g with stage := .leasing l p }) ∧
      (v.extractLsb' 0 2 = 2 → g.queue = q → g.node = none → g.field 0x90 8 = 0 → linkFree s →
        ∃ t, Machine.exec .qctlCancel s = .next (acked f t) ∧ t.grid? u = none ∧ (t.queue q).pending = rest ∧
          (t.queue q).lastcode = 0x0402 ∧ (t.queue q).grids = x.grids ∧ (t.queue q).failed.toNat = min 65535 (x.failed.toNat + 1) ∧
          (g.pins = [] → t.mem = s.mem) ∧
          t.lath.sent = s.lath.sent ++ [⟨0x21, s.lath.txSeq, 0, 0, bytesOfNat 2 q ++ bytesOfNat 8 0 ++ [0]⟩])

/-- The Dispatcher (R66, R71 to R74, R76, R77, R79, R80, R92): a free queue with a record takes it, where no exchange has locked its
slot, HEAD moves on, and the record leases, starts a graph, whose while nodes have COUNT 0, or is refused with LREC_INVALID;
leasing pins one page after another, or faults with QFAULT and a notice. PLACE_TEAM puts a team that a fence has stopped, else the
next team of the selected record, on the chosen core with its groups at their start and its own part of the column (R67, R78, R94,
R129, R208, R350, R380); a due spawn bin becomes a group whose lanes hold their arguments (R97); a group changes role by Table 6.2
(R145). Refusals, the budget of a spawned group and the place in the column are read as logs 34, 46, 48 and 73 have it. -/
def Obligations.LaunchAndPlacement : Prop :=
  (∀ (s : State) (n : Nat), s.arg = .one n →
     (let q := s.queue n
      let s1 : State := { s.updQueue n (fun x => { x with head := x.head + 1 }) with nextUid := s.nextUid + 1 }
      let g := newGrid s n (l2ReadBytes s (q.slotAddr q.head.toNat) 256) none
      let slot := q.slotAddr q.head.toNat
      let gives (t : State) (code : Code) : Prop := (t.queue n).head = q.head + 1 ∧ (t.queue n).lastcode = code ∧
        (t.queue n).grids = q.grids + 1 ∧ (t.queue n).pending = q.pending ∧ t.grids = s.grids ∧ t.mem = s.mem ∧
        t.lath.sent = s.lath.sent ++ [⟨0x21, s.lath.txSeq, 0, 0, bytesOfNat 2 n ++ bytesOfNat 8 0 ++ [0]⟩]
      let quiet : Prop := g.field 0x90 8 = 0 ∧ linkFree s ∧ s.nextUid ∉ q.pending ∧ ∀ x ∈ s.grids, x.uid ≠ s.nextUid
      n < 1024 → Queue.free s n = true → q.tail ≠ q.head → rangeLocked s slot 256 = false →
       (g.ctl 13 1 = 1 → g.graphOk = false → quiet → ∃ t, Machine.exec .dispatcherTakeRecord s = .next t ∧ gives t 0x0401) ∧
       (∀ bs, let node : BitVec 64 := BitVec.ofNat 64 (g.field 0x00 8)
         g.ctl 13 1 = 1 → g.graphOk = true → nodeBytes s g.root node = some bs → bytesFld bs 8 8 = 0 → bytesFld bs 0x10 8 = 0 →
         (bytesFld bs 0 1 ≠ 5 → ∃ t, Machine.exec .dispatcherTakeRecord s = .next t ∧ t.mem = s.mem ∧ (t.queue n).head = q.head + 1 ∧ ∃ w, t.graphs = s.graphs ++ [w] ∧ w.uid = s.nextUid ∧
           w.queue = n ∧ w.root = g.root ∧ w.reached = [node] ∧ w.code = 0) ∧
         (∀ s2, bytesFld bs 0 1 = 5 → agentWrite s1 g.root (node.toNat + 0x34) (bytesOfNat 4 0) true = .ok [] s2 →
           ∃ t, Machine.exec .dispatcherTakeRecord s = .next t ∧ t.mem = s2.mem ∧ t.graphs.length = s.graphs.length + 1)) ∧
       (g.ctl 13 1 = 0 →
       (∀ g', checkRecord s1 g = .ok g' → ∃ t, Machine.exec .dispatcherTakeRecord s = .next t ∧
         t.queue n = { q with head := q.head + 1, pending := q.pending ++ [s.nextUid] } ∧ t.nextUid = s.nextUid + 1 ∧ t.mem = s.mem ∧
         t.grids = s.grids ++ [{ g' with stage := .leasing 0 ((g'.leases.map fun l => l.base).headD 0) }]) ∧
       (checkRecord s1 g = .refused → quiet → ∃ t, Machine.exec .dispatcherTakeRecord s = .next t ∧ gives t 0x0401) ∧
       (checkRecord s1 g = .locked → Machine.exec .dispatcherTakeRecord s = .next s))) ∧
     (rangeLocked s ((s.queue n).slotAddr (s.queue n).head.toNat) 256 = true → Machine.exec .dispatcherTakeRecord s = .next s) ∧
     ∀ g k page l, s.grid? n = some g → g.stage = .leasing k page → g.leases[k]? = some l → page < 2 ^ 57 →
       (∀ kind, (walk s g.root page = .invalid ∧ kind = 1 ∨ walk s g.root page = .malformed ∧ kind = 4 ∨
           ∃ x, walk s g.root page = .leaf x ∧ entryLock x.word = false ∧
             (entryTier x.word = true ∧ kind = 2 ∨ entryTier x.word = false ∧ leafGrants x.word l = false ∧ kind = 3)) → linkFree s →
         ∃ t, Machine.exec .leasePinAttempt s = .next t ∧ t.grid? n = some { g with stage := .lwait k page } ∧ t.mem = s.mem ∧
           (t.queue g.queue).qfault.toNat = page / 65536 * 65536 + kind ∧
           t.lath.sent = s.lath.sent ++ [⟨0x20, s.lath.txSeq, 0, 0, bytesOfNat 2 g.queue ++ bytesOfNat 8 (page / 65536 * 65536 + kind)⟩]) ∧
       ∀ x, walk s g.root page = .leaf x → entryLock x.word = false → entryTier x.word = false → leafGrants x.word l = true →
         entryPin x.word < 4095 → memWf s → ∃ t g', Machine.exec .leasePinAttempt s = .next t ∧ t.grid? n = some g' ∧
           entryPin (l2Read64 t x.entry) = entryPin x.word + 1 ∧ g'.pins = g.pins ++ [x.entry] ∧
           (∀ y, ¬ (x.entry ≤ y ∧ y < x.entry + 8) → l2Read t y = l2Read s y) ∧
           (let next := (page / 2 ^ x.shift + 1) * 2 ^ x.shift
            g'.stage = if next < l.base + l.len then .leasing k next else match g.leases[k + 1]? with
              | some m => .leasing (k + 1) m.base
              | none => .placing)) ∧
  (∀ (s : State),
     (∀ n c, chooseCore s n = some c →
       let cands := (((List.range 64).map fun k => (s.placeP + k) % 64).filter (hasRoom s n)).take (s.lath.placeD.toNat + 1)
       c ∈ cands ∧ ∀ d ∈ cands, penalty s c ≤ penalty s d) ∧
     (∀ q g c, arbiter s = some (q, g, c) → ∀ k ∈ s.queues, (arbiterEntry s k.1).isSome → (s.queue k.1).prio ≤ (s.queue q).prio) ∧
     (∀ g rest id ids c, s.grids = g :: rest → g.held = false → g.restartQ = id :: ids → g.cls ≠ 2 → chooseCore s g.need = some c →
       s.heldRefl = [] → s.team? s.nextUid = none → ∃ (t : State) (tm : Team), Machine.exec .placeTeam s = .next t ∧
         t.team? s.nextUid = some tm ∧ tm.teamid = id ∧ tm.grid = g.uid ∧ tm.core = c ∧ tm.hawk = [] ∧ tm.column = [] ∧
         t.grid? g.uid = some { g with restartQ := ids, restarts := g.restarts + 1 }) ∧
     (∀ (q : Nat) (g : Grid) (c : Nat), firstAgain s = none → arbiter s = some (q, g, c) → s.heldRefl = [] →
       ∃ (t : State) (tm : Team), Machine.exec .placeTeam s = .next t ∧ t.placeP = (c + 1) % 64 ∧ tm ∈ t.teams ∧
         t.teams.map (fun x => { x with colBase := 0 }) = (s.teams ++ [tm]).map (fun x => { x with colBase := 0 }) ∧
         ((s.teams.map fun x => x.uid).Nodup → (∀ x ∈ s.teams, x.uid ≠ s.nextUid) → tm.colBase + g.columnLen ≤ 0x8000000 ∧
           ∀ x ∈ t.teams, x.uid ≠ tm.uid → x.core = c → overlap tm.colBase g.columnLen x.colBase (columnOf s x) = false) ∧
         t.colls = s.colls ++ (if g.collEn ∧ g.nextTeam = 0 then
           [{ collId := g.field 0xAC 2, inst := (mapGet s.collCount (g.field 0xAC 2)).getD 0 + 1, grid := g.uid }] else []) ∧
         mapGet t.prioPtr (s.queue q).prio.toNat = some q ∧ tm.uid = s.nextUid ∧ tm.grid = g.uid ∧ tm.teamid = g.nextTeam ∧
         tm.core = c ∧ tm.hawk = [] ∧ tm.column = [] ∧ tm.groups.length = g.launched ∧ tm.trowel.isSome = g.hasTrowel ∧
         ∀ gid < g.launched, ∃ r : Group, tm.group? gid = some r ∧ r.role = BitVec.ofNat 32 (g.roleOf gid) ∧ r.regbud = g.roleVbud (g.roleOf gid) ∧
           r.full (.q 0) = BitVec.ofNat 32 (g.field 0xB8 4) ∧ r.full (.q 1) = BitVec.ofNat 32 (g.field 0xBC 4) ∧ r.slices.length = 8 ∧
           ∀ sl < 8, (r.slice sl).pc = BitVec.ofNat 57 (g.gbase + g.field 0x08 4) ∧ (r.slice sl).active = allPairs g.contexts ∧
             (r.slice sl).wait = .ready) ∧
     (∀ (c k : Nat) (b : Bin) (t : Team) (gr : Grid), s.arg = .two c k → (s.core c).bins[k]? = some b → (32 ≤ b.tasks.length ∨ b.first + spawnWait s ≤ s.clk) →
       s.team? b.team = some t → t.core = c → s.grid? t.grid = some gr → spawnRoom s t (headerVbud s c gr b.entry.toNat) = true →
       ∃ (t' : State) (tm : Team) (r : Group), Machine.exec .spawnBinLaunch s = .next t' ∧ t'.team? b.team = some tm ∧ tm.groups = t.groups ++ [r] ∧
         (∀ x ∈ t.groups, x.gid < r.gid) ∧ r.spawned = true ∧ r.e = 1 ∧ r.role = 1 ∧ b ∉ (t'.core c).bins ∧
         (∀ l < b.tasks.length, r.full (.v 0 0 l) = (nth b.tasks l 0).extractLsb' 0 32 ∧ r.full (.v 1 0 l) = (nth b.tasks l 0).extractLsb' 32 32) ∧
         ∀ sl < 8, (r.slice sl).pc = b.entry ∧ ∀ i < 4, (r.slice sl).active.getLsbD i = decide (4 * sl + i < b.tasks.length)) ∧
     (∀ (uid : Nat) (t : Team) (gr : Grid) (gid : Nat) (role : Word) (mark : Bool), s.arg = .one uid → s.team? uid = some t → s.grid? t.grid = some gr → gr.ctl 3 1 = 1 → t.ending = none →
       roleChange s gr t = some (gid, role, mark) →
       (∃ g ∈ t.groups, g.gid = gid ∧ g.waitsWt (gr.ctl 4 4) = true ∧
         (role = 0 ∧ mark = true ∧ g.role = 1 ∧ g.startRole = 1 ∧ (∃ d, t.ringLow = some d ∧ d + gr.field 0x4C 4 ≤ s.clk) ∨
          role = 1 ∧ mark = false ∧ g.reassigned = true ∧ ∃ d, t.ringHigh = some d ∧ d + gr.field 0x4C 4 ≤ s.clk)) ∧
       ∃ (t' : State) (tm : Team), Machine.exec .roleReassignment s = .next t' ∧ t'.team? uid = some tm ∧ SameMemory s t' ∧
         (tm.group? gid).map (fun g => (g.role, g.reassigned)) = (t.group? gid).map (fun _ => (role, mark)) ∧
         ∀ k, k ≠ gid → tm.group? k = t.group? k))

/-- A wait ends when what it waits for is there, and the instruction completes as when its gang issues it: a .WF load at
WF_RELEASE, one that empties its granules where no other waits for one of them, REGS.CLAIM at REGS_CLAIM_GRANT, VSEND and VRECV at VFIFO_WAIT_END (R180, R212, R254). A wait that has lasted FEWAIT
clocks, of the gangs of a group the one of lowest SLICEID first, enters the handler with its cause, with nothing of its
instruction done: .WF and the vertical FIFOs FE_TIMEOUT, VSEND to
a gated partner VFIFO_GATED, SPAWN SPAWN_STALL, HOD and HOD.CHAIN HOD_BUSY, BEAD BEAD_BUSY, and REGS.CLAIM, after more than
FEWAIT clocks, REGS_TIMEOUT (R96, R180, R213, R229, R251 to R254). The clock at which a wait is over, and places among waits,
are read as logs 31 and 32 have it. -/
def Obligations.WaitsEndOrTimeOut : Prop :=
  (∀ (s : State) (uid gid k : Nat) (j : Instr) (c : Issue) (key : WaitKey) (n : WfNeed), s.arg = .gang uid gid k →
     blockedGang s uid gid k = some (j, c, key) → c.wfWaits j = true → c.wfNeed j = some n → (c.mac ≠ none ∨ c.team.ending = none) →
     (∀ o ∈ n.cells, c.team.full o) → frozenAt s c.team.core (n.cells.map Int.ofNat) = false →
     (n.clear = true → ∀ w ∈ c.team.blockedGangs s, w.2.1.wfPlace w.2.2 ≠ c.wfPlace (c.wfKey s) → ∀ m, w.2.1.wfNeed w.1 = some m →
       ∀ o ∈ m.cells, o ∉ n.cells) →
     Machine.exec .wfRelease s = Machine.exec j { s with issuer := .gang uid gid k } ∧
     ∀ f d b o, j = .ldhWfKeep f d b o → f ≠ 7 → c.live ≠ [] → precheck j c = none →
       let w := loadBytesOf f
       let at_ (p : Nat × Nat) : Int := (c.src b p).toNat + o.toInt * w
       (∀ p ∈ c.live, at_ p % w = 0 ∧ 0 ≤ at_ p ∧ localOk c.grid (at_ p).toNat w) →
       Completed .wfRelease s c (destEffect c d (loadRegsOf f) fun p i => loadedWord f (c.team.locals (at_ p).toNat w) i)
         fun s1 => OnlyCore { s with issuer := .gang uid gid k } s1 ∧ SameMemory s s1) ∧
  (∀ (s : State) (uid gid k : Nat) (j : Instr) (c : Issue) (key : WaitKey) (n : WfNeed), s.arg = .gang uid gid k →
     blockedGang s uid gid k = some (j, c, key) → c.wfNeed j = some n → ((∃ o ∈ n.cells, ¬ c.team.full o) ∨ c.wfWaits j = false) →
     Machine.exec .wfRelease s = .next s) ∧
  (∀ (s : State) (j : Instr) (c : Issue) (since : Nat), waitOf s = some (j, c, since) → c.live ≠ [] → precheck j c = none →
     let s0 : State := { s with issuer := .gang c.uid c.gid c.gang }
     let k := c.team.core
     let pk := partner k
     (∀ a, j = .regsClaim a →
       let n := (c.groupValue a).toNat
       n % 8 = 0 → 8 ≤ n → c.group.regbud + n ≤ 96 → n / 8 ≤ nth c.team.pools c.group.role.toNat 0 →
       (∀ w ∈ c.team.claims c.group.role, ¬ WaitKey.before w (c.waitKey s)) →
       ∃ t g tm, Machine.exec .regsClaimGrant s = .next t ∧ t.team? c.uid = some tm ∧ tm.group? c.gid = some g ∧
         g.regbud = c.group.regbud + n ∧ (∀ i e l, c.group.regbud ≤ i → i < c.group.regbud + n → g.full (.v i e l) = 0) ∧
         tm.pools = c.team.pools.mapIdx fun i x => if i = c.group.role.toNat then x - n / 8 else x) ∧
     (∀ a, j = .vsend a → coreOnline s pk → (s.core k).fifo.length + c.slots.length ≤ 16 →
       ∃ s1, Completes .vfifoWaitEnd s s1 c noEffect ∧ SameMemory s s1 ∧
         (s1.core k).fifo.take (s.core k).fifo.length = (s.core k).fifo ∧
         (s1.core k).fifo.length = (s.core k).fifo.length + c.slots.length) ∧
     (∀ d, j = .vrecv d →
       let mine := (s.core pk).fifo.filter fun x => decide (x.grid = c.grid.uid)
       c.slots.length ≤ mine.length →
       ∃ s1, Completes .vfifoWaitEnd s s1 c (dest32 c d fun p =>
           (nth mine (c.slots.findIdx fun e => decide (e = p.1)) ⟨0, 0⟩).data.extractLsb' (32 * p.2) 32) ∧
         SameMemory s s1 ∧ OnlyCore s0 s1)) ∧
  (∀ (s : State) (j : Instr) (c : Issue) (since : Nat), waitOf s = some (j, c, since) → handles c → noneHeld c →
     (∀ i < c.gang, overdue s c.uid c.gid i = none) →
     let fewait := c.grid.field 0x14 4
     let late := fewait ≠ 0 ∧ since + fewait ≤ s.clk
     let on := coreOnline s (partner c.team.core)
     let traps (ev : Instr) (code : Code) : Prop := EntersHandler ev s c { code := code } false
     (late → (∃ a, j = .vsend a) → on = true → traps .feTimeout 0x0114) ∧
     (late → (∃ d, j = .vrecv d) → traps .feTimeout 0x0114) ∧
     (late → (∀ n, c.wfNeed j = some n → c.wfWaits j = true → frozenAt s c.team.core (n.cells.map Int.ofNat) = false → traps .feTimeout 0x0114)) ∧
     (late → (∃ a, j = .vsend a) → on = false → traps .vfifoGated 0x0119) ∧
     (late → (∃ a b, j = .spawn a b) → traps .spawnStall 0x010F) ∧
     (late → ((∃ a b, j = .hod a b) ∨ ∃ a, j = .hodChain a) → traps .hodBusy 0x0117) ∧
     (late → (∃ m a, j = .bead m a) → traps .beadBusy 0x0118) ∧
     (fewait ≠ 0 → since + fewait < s.clk → (∃ a, j = .regsClaim a) → traps .regsTimeout 0x010E) ∧
     (fewait = 0 → ∀ ev, (ev = .feTimeout ∨ ev = .vfifoGated ∨ ev = .spawnStall ∨ ev = .hodBusy ∨ ev = .beadBusy ∨ ev = .regsTimeout) →
       Machine.exec ev s = .next s))

/-- A group takes the oldest deferred cause held for it, with TRW and the address that failed, and enters the handler, or its
team ends (R363, R365 to R367, R369); SNAP_RELEASE lets the waiters of a barrier go on once the team is quiet, those
that a handler has taken away too, and of a snapshot grid writes the team's image first (R258, R381). The fields that no pair
fills are log 26, and the image is laid out as log 51 has it. -/
def Obligations.HeldCausesAndSnaps : Prop :=
  ∀ (s : State) (uid n : Nat) (t : Team) (gr : Grid), s.arg = .two uid n → s.team? uid = some t → s.grid? t.grid = some gr →
    (∀ g h rest, t.group? n = some g → t.ending = none → g.ended = false → g.privileged = false → g.mac = [] → g.held = h :: rest →
      (gr.handler ≠ 0xFFFFFFFF → g.hasPair = true →
        ∃ t' x, Machine.exec .trapEntry s = .next t' ∧ groupAt t' uid n = some x ∧ SameMemory s t' ∧ x.privileged = true ∧ x.held = rest ∧
          x.resv = [] ∧ (∀ r, x.full r = g.full r) ∧ (∃ sv, x.saved = some sv ∧ sv.cause = h.code ∧ sv.trw = h.trw ∧ sv.left = g.slices) ∧ (nth x.trapctx 0 0).extractLsb' 0 16 = h.code ∧
          (nth x.trapctx 0 0).getLsbD 21 = h.trw ∧ nth x.trapctx 2 0 = h.faddr ∧
          (h.trw = true → (nth x.trapctx 1 0).extractLsb' 0 57 = h.tpc) ∧
          ∀ sl < g.slices.length, let old := g.slice sl
            let new := x.slice sl
            if old.finished then new = old
            else new.pc = BitVec.ofNat 57 (gr.gbase + gr.handler) ∧ new.active = allPairs g.e &&& ~~~old.exited ∧ new.wait = .ready ∧
              new.stack = old.stack) ∧
      (gr.handler = 0xFFFFFFFF ∨ g.hasPair = false →
        ∃ t' tm, Machine.exec .trapEntry s = .next t' ∧ t'.team? uid = some tm ∧ tm.ending = some h.code)) ∧
    (snapDue s t n = true → gr.cls ≠ 2 → (t.groups.map fun g => g.gid).Nodup →
      ∃ t' tm, Machine.exec .snapRelease s = .next t' ∧ t'.team? uid = some tm ∧ SameMemory s t' ∧ tm.barrier n = t.barrier n ∧
        ∀ g ∈ t.groups, ∃ x, tm.group? g.gid = some x ∧ (∀ r, x.full r = g.full r) ∧
          (∀ v, x.saved = some v → ∀ y ∈ v.slices, y.snapWaits tm n = false) ∧
          ∀ sl < g.slices.length, ∀ target form, (g.slice sl).wait = .barrier n target form → (t.barrier n).passed target = true →
            (x.slice sl).wait = .ready ∧ (x.slice sl).pc = (g.slice sl).pc + 4 ∧ (x.slice sl).active = (g.slice sl).active ∧
              (x.slice sl).stack = (g.slice sl).stack) ∧
    (snapDue s t n = true → gr.cls = 2 →
      let k := t.snaps + 1
      let va := gr.snapSlot t.teamid (k % 2)
      let rest : Team := { (t.settle gr (some n)).atRest with snaps := k }
      (columnBusy s gr t.core = true → Machine.exec .snapRelease s = .next s) ∧
      (columnBusy s gr t.core = false → agentWrite s gr.root va (imageOf s.tick gr rest 1 k) true = .lost →
        ∃ t' tm, Machine.exec .snapRelease s = .next t' ∧ t'.team? uid = some tm ∧ tm.ending = some 0x0302 ∧ t'.mem = s.mem) ∧
      ∀ s1, columnBusy s gr t.core = false → agentWrite s gr.root va (imageOf s.tick gr rest 1 k) true = .ok [] s1 →
        ∃ t' tm g' x, Machine.exec .snapRelease s = .next t' ∧ t'.team? uid = some tm ∧ tm.snaps = k ∧ t'.mem = s1.mem ∧
          t'.grid? gr.uid = some g' ∧ x ∈ g'.snapshots ∧ x.base = BitVec.ofNat 57 va ∧ x.seq = k ∧ x.team = rest)

/-- A Hod command runs: a record whose check fails delivers its cause or ends the team, and frees its slot; one that passes
moves its rows, sets its granules full, arrives, and frees its slot; a record of one row inside the team's Hawk or column
copies exactly that row (R220 to R222). A Hod chain takes one record after another: it ends at address 0 and at a record whose
OWN is clear, a bad record delivers its cause, and a record that runs has OWN cleared and gives the next head (R223). A Bead
operation runs: one whose check fails delivers its cause or ends the team; one that passes fills its strips in order, arrives,
and frees its slot; a strip with FILL beyond the grid's edge takes FILL in each of its elements (R225 to R227). The order of
the checks is read as log 47 has it. -/
def Obligations.EngineEvents : Prop :=
  (∀ (s : State) (uid slot : Nat) (t : Team) (gr : Grid) (h : HodCmd), s.arg = .two uid slot → s.team? uid = some t →
     s.grid? t.grid = some gr → t.hods.head? = some h → h.slot = slot →
     let k : EngCtx := ⟨uid, t.core, gr, h.member⟩
     let r := h.record
     let free (s : State) : State := s.updTeam uid fun t => { t with hods := t.hods.filter fun x => decide (x.slot ≠ slot) }
     let runs (t' : State) : Prop := Machine.exec .hodCommandRun s = .next (free t')
     (k.hodFieldsOk false r = false → runs (engineFault uid h.gid slot 0x0201 h.addr s)) ∧
     (∀ code, k.hodCheck s false r = some (.fault code) → runs (engineFault uid h.gid slot code h.addr s)) ∧
     (∀ code, k.hodCheck s false r = some (.ends code) → runs (endTeamWith s uid code)) ∧
     (k.hodCheck s false r = none → k.hodLate s r slot = true → Machine.exec .hodCommandRun s = .next s) ∧
     (k.hodCheck s false r = none → k.hodFrozen s r = true → Machine.exec .hodCommandRun s = .next s) ∧
     (∀ s1, k.hodCheck s false r = none → k.hodLate s r slot = false → (k.hodMove r s).1 = .ok s1 →
       runs (k.hodArrive r h.gid slot h.addr s1)) ∧
     (∀ code s1, k.hodCheck s false r = none → k.hodLate s r slot = false → k.hodMove r s = (.ends code, s1) →
       runs (endTeamWith s1 uid code)) ∧
     ∀ a b, k.hodFieldsOk false r = true → rec512 r 0x20 4 = 1 → hodCtl r 4 2 = 0 → hodCtl r 7 1 = 0 → teamMemWf t = true →
       engAddr (BitVec.ofNat 64 (rec512 r 0x00 8)) = .own a → engAddr (BitVec.ofNat 64 (rec512 r 0x08 8)) = .own b →
       let n := rec512 r 0x1C 4
       localOk gr a n = true → localOk gr b n = true → (s.core t.core).frozen = none → s.lath.colBusy = false →
       ∃ t', Machine.exec .hodCommandRun s = .next t' ∧ t' = { s with teams := t'.teams } ∧ (∀ u, u ≠ uid → t'.team? u = s.team? u) ∧
         (∀ x, localAt t' uid x = if b ≤ x ∧ x < b + n then localAt s uid (a + (x - b)) else localAt s uid x) ∧
         ∃ tm, t'.team? uid = some tm ∧ tm.hods = t.hods.filter (fun x => decide (x.slot ≠ slot)) ∧
           (hodCtl r 6 1 = 1 → ∀ i < n, tm.full (b + i) = true) ∧
           (hodCtl r 6 1 = 0 → tm.hawkFull = t.hawkFull ∧ tm.colFull = t.colFull)) ∧
  (∀ (s : State) (uid slot : Nat) (t : Team) (h : HodCmd), s.arg = .two uid slot → s.team? uid = some t → t.hods.head? = some h →
     h.slot ≠ slot → Machine.exec .hodCommandRun s = .next s) ∧
  (∀ (s : State) (uid : Nat) (t : Team) (gr : Grid), s.arg = .one uid → s.team? uid = some t → s.grid? t.grid = some gr →
     t.hodch.busy = true → t.ending = none →
     let c := t.hodch
     let k : EngCtx := ⟨uid, t.core, gr, c.member⟩
     let head := c.head.toNat
     let stop (s : State) : State := s.updTeam uid fun t => { t with hodch := { t.hodch with busy := false } }
     let runs (t' : State) : Prop := Machine.exec .hodChainRecord s = .next t'
     (c.head = 0 → runs (stop s)) ∧
     (c.head ≠ 0 → leaseOk gr (some c.member) .r head 64 = false → runs (stop (endTeamWith s uid 0x0301))) ∧
     ∀ bs s1, c.head ≠ 0 → leaseOk gr (some c.member) .r head 64 = true → k.readGlobal s head 64 = .ok bs s1 →
       let r : BitVec 512 := BitVec.ofNat 512 (natOfBytes bs)
       (r.getLsbD 384 = false → runs (stop s1)) ∧
       (r.getLsbD 384 = true → ∀ code, k.hodCheck s1 true r = some (.fault code) →
         runs (stop (engineFault uid c.gid 16 code (c.head.setWidth 64) s1))) ∧
       (r.getLsbD 384 = true → k.hodCheck s1 true r = none → leaseOk gr (some c.member) .w (head + 0x30) 8 = true →
         k.hodLate s1 r 16 = false →
         ∀ s2 old s3 s4, (k.hodMove r s1).1 = .ok s2 → k.readGlobal s2 (head + 0x30) 8 = .ok old s3 →
           k.writeGlobal s3 (head + 0x30) (bytesOfNat 8 ((BitVec.ofNat 64 (natOfBytes old)) &&& ~~~1#64).toNat) = .ok [] s4 →
           let next : VAddr := (BitVec.ofNat 64 (natOfBytes old)).extractLsb' 0 57 &&& ~~~63#57
           ∃ t', runs t' ∧ ∀ tm, t'.team? uid = some tm → tm.hodch.head = next ∧
             (next = 0 → tm.hodch.busy = false))) ∧
  (∀ (s : State) (uid slot : Nat) (t : Team) (gr : Grid) (b : BeadCmd), s.arg = .two uid slot → s.team? uid = some t →
     s.grid? t.grid = some gr → t.beads.find? (fun x => decide (x.slot = slot)) = some b →
     let k : EngCtx := ⟨uid, t.core, gr, b.member⟩
     let ctl := b.field 0x0F 1
     let n : Nat := 2 ^ b.field 0x0C 1
     let free (s : State) : State := s.updTeam uid fun t => { t with beads := t.beads.filter fun x => decide (x.slot ≠ slot) }
     let runs (t' : State) : Prop := Machine.exec .beadOperationRun s = .next (free t')
     (b.fieldsOk gr = false → runs (engineFault uid b.gid (17 + slot) 0x0203 b.off s)) ∧
     (∀ code, b.check s k t.teamid = some (.ends code) → runs (endTeamWith s uid code)) ∧
     let late := ctl.testBit 7 && engineLate uid (ctl % 16) (17 + slot) s
     (b.check s k t.teamid = none → b.frozen s k t.teamid = true ∨ late = true → Machine.exec .beadOperationRun s = .next s) ∧
     (∀ s1, b.check s k t.teamid = none → b.frozen s k t.teamid = false → late = false →
       (b.fillStrips k (ctl.testBit 6) (b.work gr t.teamid) s).1 = .ok s1 →
       runs (if ctl.testBit 7 then engineBar uid (ctl % 16) uid b.gid (17 + slot) b.off s1 else s1)) ∧
     ∀ d, b.check s k t.teamid = none → b.frozen s k t.teamid = false → b.work gr t.teamid = [(d, .fill)] → ctl.testBit 7 = false →
       teamMemWf t = true → ((b.elems d).map fun e => e.1 / (n : Int)).Nodup → (∀ e ∈ b.elems d, e.1 % (n : Int) = 0) →
       ∃ t', runs t' ∧ (∀ e ∈ b.elems d, ∀ i < n, localAt t' uid (e.1.toNat + i) =
           BitVec.ofNat 8 (b.field 0x18 8 / 2 ^ (8 * i))) ∧
         ∀ x, (∀ e ∈ b.elems d, ¬ (e.1.toNat ≤ x ∧ x < e.1.toNat + n)) → localAt t' uid x = localAt s uid x)

/-- The end of a team without a collective (R369, R370, R383, R384): with every group ended and no work left it ends with code 0,
with the cause a handler left, or with that of a Trowel which has halted or waits in TBAR.WT; a cause already raised ends it once
what it has issued is done. Its end is recorded with the clock of the cause, its core's stores are performed, and it is resident
no more. The end of a grid (R385 to R387, R389): once every team has ended its pins are released, the completion record, laid out
as Table 16.1 has it, is written where it has an address, QSTAT counts it with the earliest cause, the notice goes out, and its
entries and held reflections are gone. The record's fields at the edges, and teams that a fault keeps from being placed, are read
as log 49 has it. -/
def Obligations.TeamsAndGridsEnd : Prop :=
  (∀ (s : State) (uid : Nat) (t : Team) (gr : Grid) (code : Code) (clk : Nat), s.arg = .one uid → s.team? uid = some t →
     s.grid? t.grid = some gr → (∀ x ∈ s.colls, x.grid ≠ gr.uid) →
     let normally : Prop := (∀ b ∈ (s.core t.core).bins, b.team ≠ uid) ∧ ∀ w, t.trowel = some w → w.status = .finished
     let uncaused : Prop := ∃ g ∈ t.groups, g.endCause = none
     (t.ending = some code ∧ clk = t.endClk ∧ (∀ g ∈ t.groups, g.ended = true ∨ g.mac = []) ∧
         (∀ w, t.trowel = some w → ¬ (w.status = .running ∧ w.tape.mode = .reversing)) ∨
       t.ending = none ∧ (∀ g ∈ t.groups, g.ended = true) ∧ t.hodch.busy = false ∧
         (uncaused ∧ normally ∧ code = 0 ∧ clk = s.clk ∨
          (∃ g, t.groups = [g] ∧ g.endCause = some code ∧ clk = g.endClk) ∧ normally ∨
          uncaused ∧ ∃ w, t.trowel = some w ∧
            (w.status = .halted code ∧ clk = w.haltClk ∨ (∃ b p, w.status = .waiting b p) ∧ code = 0x0204 ∧ clk = s.clk))) →
     t.hods = [] → t.beads = [] → memWf s → l1Wf (s.core t.core) →
     ∃ t', Machine.exec .teamEnd s = .next t' ∧ t'.team? uid = none ∧ (∀ u, u ≠ uid → (t'.team? u).map noResv = (s.team? u).map noResv) ∧
       (t'.core t.core).l1 = [] ∧ (∀ a, l2Read t' a = (dirtyByte s t.core a).getD (l2Read s a)) ∧
       (∀ b ∈ (t'.core t.core).bins, b ∈ (s.core t.core).bins ∧ b.team ≠ uid) ∧
       (t'.grid? t.grid).map (fun g => g.ends) = some (gr.ends ++ [{ teamid := t.teamid, code := code, clk := clk }]) ∧
       (t'.grid? t.grid).map (fun g => g.tflags) = some (gr.tflags ||| t.tflags)) ∧
  (∀ (s : State) (uid : Nat) (t : Team), s.arg = .one uid → s.team? uid = some t →
     (t.hods ≠ [] ∨ t.beads ≠ [] ∨ ∃ g ∈ t.groups, g.ended = false ∧ (t.ending = none ∨ g.mac ≠ [])) →
     Machine.exec .teamEnd s = .next s) ∧
  (∀ (c : Completion) (clk : Nat),
     let at_ (o n : Nat) : Nat := natOfBytes (((c.bytes clk).drop o).take n)
     (c.bytes clk).length = 64 ∧ at_ 0 2 = c.code.toNat ∧ at_ 2 1 = c.flags % 256 ∧ at_ 3 1 = c.tflags.toNat ∧ at_ 4 4 = c.failTeam % 2 ^ 32 ∧
       at_ 8 8 = c.nok % 2 ^ 64 ∧ at_ 16 8 = c.nerr % 2 ^ 64 ∧ at_ 24 8 = c.start % 2 ^ 64 ∧ at_ 32 8 = clk % 2 ^ 64 ∧
       at_ 40 2 = c.collCode.toNat ∧ at_ 42 1 = c.collFlags.toNat ∧ at_ 43 1 = 0 ∧ at_ 44 4 = c.restarts % 2 ^ 32 ∧
       at_ 48 2 = c.queue % 2 ^ 16 ∧ at_ 50 2 = c.headSeq.toNat ∧ at_ 52 12 = 0) ∧
  (∀ (s : State) (g : Grid), s.arg = .one g.uid → s.grid? g.uid = some g → gridOver s g = true → g.node = none →
     g.queue < 1024 → linkFree s →
     let q := s.queue g.queue
     let code := (gridCode g (s.gridColl? g)).1
     let a := g.field 0x90 8
     let alone : Prop := ∀ c ∈ s.colls, c.grid ≠ g.uid
     let ends (norec : Byte) (t : State) : Prop := Machine.exec .gridEnd s = .next t ∧ t.grid? g.uid = none ∧
       (∀ u, u ≠ g.uid → t.grid? u = s.grid? u) ∧
       (t.queue g.queue).grids = q.grids + 1 ∧ (t.queue g.queue).lastcode = code ∧
       (t.queue g.queue).failed = (if code ≠ 0 ∧ q.failed ≠ 0xFFFF then q.failed + 1 else q.failed) ∧
       (∀ k, ∀ x ∈ (t.core k).fifo, x.grid ≠ g.uid) ∧ (∀ h ∈ t.heldRefl, h.1 ≠ g.uid) ∧ (∀ x ∈ t.colls, x.grid ≠ g.uid) ∧
       t.lath.sent = s.lath.sent ++ [⟨0x21, s.lath.txSeq, 0, 0, bytesOfNat 2 g.queue ++ bytesOfNat 8 a ++ [norec]⟩]
     (a = 0 → ∃ t, ends 0 t ∧ ∀ e, g.pins = [e] → memWf s → entryPin (l2Read64 s e) ≠ 0 →
       entryPin (l2Read64 t e) + 1 = entryPin (l2Read64 s e)) ∧
     (a % 64 ≠ 0 → ∃ t, ends 1 t ∧ (g.pins = [] → t.mem = s.mem)) ∧
     (∀ s2, g.pins = [] → s.heldRefl = [] → a ≠ 0 → a % 64 = 0 →
       agentWrite (dropFifo g.uid s) g.root a ((gridCompletion g (s.gridColl? g)).bytes s.clk) true = .ok [] s2 →
       ∃ t, ends 0 t ∧ t.mem = s2.mem) ∧
     (g.cutClk = none → (∀ e ∈ g.ends, e.code = 0) → (∀ c ∈ s.colls, c.grid = g.uid → c.code = 0) → code = 0) ∧
     (g.cutClk ≠ none → (∀ e ∈ g.ends, e.code = 0) → alone → code = 0x0304) ∧
     (g.cutClk = none → alone → ∀ e ∈ g.ends, e.code ≠ 0 → (∀ x ∈ g.ends, x.code ≠ 0 → x ≠ e → e.clk < x.clk) → code = e.code))

/-- Task graphs (R71 to R74, R387): a reached node starts; a condition node retires to the successor its condition picks, a while
node counts its turns up to its limit, a join waits for its last arrival, a copy node is performed by GRAPH_COPY_RETIRE, a kernel
node waits for its queue and enters its record; a node that is no node stops the graph with GRAPH_FAULT. Of two causes the graph
keeps the one raised first, and with nothing left it completes with its code. Malformed nodes are read as logs 50 and 77 have
it. -/
def Obligations.GraphEvents : Prop :=
  ∀ (s : State) (uid : Nat) (w : GraphRun), s.graph? uid = some w →
    let word (n : List Byte) (o len : Nat) : Nat := natOfBytes ((n.drop o).take len)
    let addr (n : List Byte) (o : Nat) : BitVec 64 := BitVec.ofNat 64 (word n o 8)
    let reaches (node : BitVec 64) (a : BitVec 64) (x : GraphRun) : Prop := x.nok = w.nok + 1 ∧ x.nerr = w.nerr ∧ x.running = w.running ∧
      x.code = w.code ∧ x.reached = w.reached.erase node ++ (if a = 0 then [] else [a])
    let first (code : Code) : Code := if w.code = 0 ∨ s.clk < w.codeClk then code else w.code
    let stops (code : Code) (x : GraphRun) : Prop := x.stop = true ∧ x.reached = [] ∧ x.nerr = w.nerr + 1 ∧ x.code = first code
    (∀ node, s.arg = .node uid node → w.stop = false → node ∈ w.reached → (∀ r ∈ w.running, r.1 ≠ node) →
      let comes (p : State → GraphRun → Prop) : Prop := ∃ t x, Machine.exec .graphNodeStart s = .next t ∧ t.graph? uid = some x ∧ p t x
      (node.toNat % 64 ≠ 0 → comes fun _ x => stops 0x0403 x) ∧
      (node.toNat % 64 = 0 → agentRead s w.root node.toNat 64 true = .lost → comes fun _ x => stops 0x0403 x) ∧
      (node.toNat % 64 = 0 → agentRead s w.root node.toNat 64 true = .locked → Machine.exec .graphNodeStart s = .next s) ∧
      ∀ n s1, node.toNat % 64 = 0 → agentRead s w.root node.toNat 64 true = .ok n s1 → s1.graphs = s.graphs → s1.clk = s.clk →
      let kind := word n 0 1
      let ok : Prop := word n 2 6 = 0
      let holds (v : Nat) : Prop := v &&& word n 0x20 8 = word n 0x28 8
      (¬ ok ∨ kind = 0 ∨ 6 < kind → comes fun _ x => stops 0x0403 x) ∧
      (kind = 1 → 1024 ≤ word n 0x20 2 ∨ word n 0x18 8 % 256 ≠ 0 → comes fun _ x => stops 0x0403 x) ∧
      (ok → kind = 1 → word n 0x20 2 < 1024 → word n 0x18 8 % 256 = 0 →
        (nodeQueueFree s1 (word n 0x20 2) = false → Machine.exec .graphNodeStart s = .next s) ∧
        ∀ bs s2, nodeQueueFree s1 (word n 0x20 2) = true → agentRead s1 w.root (word n 0x18 8) 256 true = .ok bs s2 →
          ∀ t, enterRecord (newGrid s2 (word n 0x20 2) bs (some (uid, node)))
            (s2.updGraph uid fun w => { w with reached := w.reached.erase node, running := w.running ++ [(node, addr n 8, addr n 0x10)] }) =
              some t → Machine.exec .graphNodeStart s = .next t) ∧
      (ok → kind = 2 → comes fun _ x => x.reached = w.reached.erase node ∧
        x.copies = w.copies ++ [(node, word n 0x18 8, word n 0x20 8, word n 0x28 8)] ∧
        x.running = w.running ++ [(node, addr n 8, addr n 0x10)]) ∧
      (kind = 3 → 1024 ≤ word n 0x2E 2 ∨ word n 0x32 6 ≠ 0 → comes fun _ x => stops 0x0403 x) ∧
      (ok → kind = 4 → ∀ bs s2, agentRead s1 w.root (word n 0x18 8) 8 true = .ok bs s2 → s2.graphs = s.graphs →
        comes fun t x => t.mem = s2.mem ∧ (holds (natOfBytes bs) → reaches node (addr n 0x10) x) ∧
          (¬ holds (natOfBytes bs) → reaches node (addr n 8) x)) ∧
      (ok → kind = 5 → ∀ bs s2 s3, agentRead s1 w.root (word n 0x18 8) 8 true = .ok bs s2 → s2.clk = s.clk →
        let count := if node ∈ w.zeroed then word n 0x34 4 else 0
        let puts (v : Nat) : Prop := agentWrite s2 w.root (node.toNat + 0x34) (bytesOfNat 4 v) true = .ok [] s3 ∧
          s3.graphs = s.graphs ∧ s3.clk = s.clk
        (holds (natOfBytes bs) → word n 0x30 4 ≤ count → puts count → comes fun t x => t.mem = s3.mem ∧ stops 0x0404 x) ∧
        (holds (natOfBytes bs) → count < word n 0x30 4 → puts (count + 1) → comes fun t x => t.mem = s3.mem ∧ reaches node (addr n 0x10) x) ∧
        (¬ holds (natOfBytes bs) → puts count → comes fun t x => t.mem = s3.mem ∧ reaches node (addr n 8) x)) ∧
      (ok → kind = 6 → word n 1 1 ≠ 0 → ∀ s2,
        let arrived := word n 0x18 1 + 1
        let puts (v : Nat) : Prop := agentWrite s1 w.root (node.toNat + 0x18) (bytesOfNat 1 v) true = .ok [] s2 ∧ s2.graphs = s.graphs
        (word n 1 1 ≤ arrived → puts 0 → comes fun t x => t.mem = s2.mem ∧ reaches node (addr n 8) x) ∧
        (arrived < word n 1 1 → puts arrived → comes fun t x => t.mem = s2.mem ∧ x = { w with reached := w.reached.erase node }))) ∧
    (∀ node src dst len, s.arg = .node uid node → w.copies.find? (fun c => decide (c.1 = node)) = some (node, src, dst, len) →
      (agentRead s w.root src len false = .lost → ∃ t x, Machine.exec .graphCopyRetire s = .next t ∧ t.graph? uid = some x ∧
        stops 0x0403 x ∧ t.mem = s.mem) ∧
      ∀ bs s1 s2, agentRead s w.root src len false = .ok bs s1 → agentWrite s1 w.root dst bs false = .ok [] s2 → s2.graphs = s.graphs →
      ∃ t x, Machine.exec .graphCopyRetire s = .next t ∧ t.mem = s2.mem ∧ t.graph? uid = some x ∧ x.nok = w.nok + 1 ∧
        (∀ c ∈ x.copies, c.1 ≠ node) ∧ (∀ r ∈ x.running, r ∈ w.running ∧ r.1 ≠ node) ∧
        (w.stop = false → ∀ r ∈ w.running, r.1 = node → ∀ a, a = r.2.1 ∨ a = r.2.2 → a ≠ 0 → a ∈ x.reached)) ∧
    (s.arg = .one uid → w.reached = [] → w.running = [] → w.complva = 0 → w.node = none → linkFree s →
      ∃ t, Machine.exec .graphEnd s = .next t ∧ t.graph? uid = none ∧ (t.queue w.queue).lastcode = w.code ∧
        (t.queue w.queue).grids = (s.queue w.queue).grids ∧ t.mem = s.mem ∧
        t.lath.sent = s.lath.sent ++ [⟨0x21, s.lath.txSeq, 0, 0, bytesOfNat 2 w.queue ++ bytesOfNat 8 0 ++ [0]⟩])

/-- XCTL (R371 to R377): an OP is taken while BUSY is 0, with STATUS 1 where the queue has no grid, and 5 where RESTORE finds none
suspended; PREEMPT saves the grid's teams one at a time at their boundaries, with the header of Table 15.5, and ends with STATUS
0, or with 2 where the area is too small; RESTORE puts a verified image back on a core, refuses a corrupt one with STATUS 4 and
one that no core has the capacity for with 3; ABORT makes every team end with TEAM_ABORTED, a suspended one whose image is
corrupt with IMAGE_CORRUPT. The bytes of an image behind its header and the orders are the choices of the model (logs 7, 51). -/
def Obligations.PreemptionEvents : Prop :=
  ∀ (s : State) (f : LathIn),
    let v := f.val
    let q : BitVec 10 := v.extractLsb' 16 10
    let l := s.lath
    let mine (g : Grid) : List Team := s.teams.filter fun t => decide (t.grid = g.uid)
    (∀ j op, (j = .xctlPreempt ∧ op = 1 ∨ j = .xctlRestore ∧ op = 2 ∨ j = .xctlAbort ∧ op = 3) → writesReg f s 0x200 →
      v.extractLsb' 0 3 = op →
      (l.xcBusy = true → Machine.exec j s = .next (acked f { received s with lath := { (received s).lath with xcErr := true } })) ∧
      (l.xcBusy = false → oldestGrid s q.toNat = none → ∃ t, Machine.exec j s = .next (acked f t) ∧ t.lath.xcBusy = false ∧
        t.lath.xcStatus = 1 ∧ t.teams = s.teams ∧ t.mem = s.mem) ∧
      (∀ g, l.xcBusy = false → oldestGrid s q.toNat = some g → op = 2 → g.suspended = [] → g.held = false →
        ∃ t, Machine.exec j s = .next (acked f t) ∧ t.lath.xcBusy = false ∧ t.lath.xcStatus = 5 ∧ t.teams = s.teams ∧ t.mem = s.mem) ∧
      (∀ g, l.xcBusy = false → oldestGrid s q.toNat = some g → (op = 2 → g.suspended ≠ [] ∨ g.held = true) →
        ∃ t, Machine.exec j s = .next (acked f t) ∧ t.lath.xcBusy = true ∧ t.lath.xcOp = op ∧ t.lath.xcGrid = g.uid ∧
          t.teams = s.teams ∧ t.mem = s.mem)) ∧
    (∀ (gr : Grid) (t : Team) kind seq (digest : BitVec 256),
      let h := imageHeader gr t kind seq digest
      let sizes := sectionSizes gr t
      h.length = 256 ∧ bytesFld h 0 4 = 0x54584943 ∧ bytesFld h 4 2 = 1 ∧ bytesFld h 6 1 = kind % 256 ∧
        bytesFld h 7 1 = (t.groups.filter fun g => g.privileged).length % 256 ∧ bytesFld h 8 8 = t.imageLen gr % 2 ^ 64 ∧
        bytesFld h 0x10 8 = seq % 2 ^ 64 ∧ bytesFld h 0x18 4 = t.teamid % 2 ^ 32 ∧ bytesFld h 0x1C 1 = gr.launched % 256 ∧
        bytesFld h 0x20 1 = 32 ∧ bytesFld h 0x21 1 = (if gr.hasTrowel then 1 else 0) ∧ bytesFld h 0x23 1 = 0 ∧
        bytesFld h 0x28 4 = gr.hawk % 2 ^ 32 ∧ bytesFld h 0x2C 4 = gr.columnLen % 2 ^ 32 ∧ bytesFld h 0x3A 6 = 0 ∧
        bytesFld h 0x40 32 = digest.toNat ∧ bytesFld h 0x90 112 = 0 ∧
        (∀ k < 6, bytesFld h (0x60 + 8 * k) 8 = (65536 + (sizes.take k).sum) % 2 ^ 64) ∧
        (∀ n ∈ sizes, n % 65536 = 0) ∧ t.imageLen gr = 65536 + sizes.sum) ∧
    ∀ g, s.arg = .nothing → l.xcBusy = true → s.grid? l.xcGrid = some g →
      (l.xcOp = 1 → l.xcPins ≠ [] → mine g = [] → ∃ t, Machine.exec .xctlPreempt s = .next t ∧ t.lath.xcBusy = false ∧
        t.lath.xcStatus = 0 ∧ t.lath.xcPins = []) ∧
      (∀ t rest bs s1, l.xcOp = 1 → l.xcPins ≠ [] → byTeam Team.teamid (mine g) = t :: rest → s.team? t.uid = some t → t.ending = none →
        t.hods = [] → t.beads = [] → canStop s t = true →
        s.updGrid g.uid (fun g => { g with held := true }) = s →
        areaNext g s + t.atRest.imageLen g ≤ areaBase s + l.ximgLen.toNat → bs = imageOf s.tick g t.atRest 0 0 →
        agentWrite s g.root (areaNext g s) bs true = .ok [] s1 → s1.grids = s.grids →
        ∃ t' x, Machine.exec .xctlPreempt s = .next t' ∧ t'.team? t.uid = none ∧ t'.lath.xcBusy = s1.lath.xcBusy ∧
          (t'.grid? g.uid).map (fun g => g.suspended) = some (g.suspended ++ [x]) ∧ x.team = t.atRest ∧ x.base = BitVec.ofNat 57 (areaNext g s) ∧
          x.len = t.atRest.imageLen g) ∧
      (∀ t rest, l.xcOp = 1 → l.xcPins ≠ [] → byTeam Team.teamid (mine g) = t :: rest → s.team? t.uid = some t → t.ending = none →
        t.hods = [] → t.beads = [] → canStop s t = true → s.updGrid g.uid (fun g => { g with held := true }) = s →
        areaBase s + l.ximgLen.toNat < areaNext g s + t.atRest.imageLen g →
        ∃ t', Machine.exec .xctlPreempt s = .next t' ∧ t'.lath.xcBusy = false ∧ t'.lath.xcStatus = 2 ∧ t'.teams = s.teams) ∧
      (∀ x rest bs s1, l.xcOp = 2 → l.xcPins ≠ [] → byTeam (fun y : SavedTeam => y.team.teamid) g.suspended = x :: rest →
        agentRead s g.root x.base.toNat x.len true = .ok bs s1 → s1.teams = s.teams →
        (imageVerifies x.len bs = false → ∃ t, Machine.exec .xctlRestore s = .next t ∧ t.lath.xcBusy = false ∧ t.lath.xcStatus = 4) ∧
        (imageVerifies x.len bs = true → imageCapacity s1 bs = false ∨ anyOnline s1 = false →
          ∃ t, Machine.exec .xctlRestore s = .next t ∧ t.lath.xcBusy = false ∧ t.lath.xcStatus = 3 ∧ t.teams = s.teams ∧
            t.grids = s1.grids) ∧
        (∀ c, imageVerifies x.len bs = true → imageCapacity s1 bs = true → anyOnline s1 = true →
          chooseCore s1 (x.team.need g) = some c → columnBusy s1 g c = false → s1.heldRefl = [] → s1.grid? g.uid = some g →
          ∃ t, Machine.exec .xctlRestore s = .next t ∧
            let bare (y : Team) : Team := { y with colBase := 0 }
            t.teams.map bare = (s.teams ++ [{ x.team with core := c }]).map bare ∧
            (t.grid? g.uid).map (fun g => g.suspended) = some (g.suspended.filter fun y => decide (y ≠ x)))) ∧
      (l.xcOp = 2 → l.xcPins ≠ [] → g.suspended = [] → ∃ t, Machine.exec .xctlRestore s = .next t ∧ t.lath.xcBusy = false ∧
        t.lath.xcStatus = 0 ∧ t.lath.xcPins = [] ∧ (t.grid? g.uid).map (fun g => g.held) = some false) ∧
      (∀ x rest bs s1, l.xcOp = 3 → g.suspended = x :: rest → mine g = [] → s.updGrid g.uid (fun g => { g with held := true }) = s →
        s.gridColl? g = none → agentRead s g.root x.base.toNat x.len true = .ok bs s1 → s1.grids = s.grids → s1.colls = s.colls →
        ∃ t g', Machine.exec .xctlAbort s = .next t ∧ t.grid? g.uid = some g' ∧ x ∉ g'.suspended ∧
          g'.ends = g.ends ++ [⟨x.team.teamid, if imageVerifies x.len bs then 0x0305 else 0x0306, s.clk⟩]) ∧
      (l.xcOp = 3 → g.suspended = [] → g.restartQ = [] → mine g = [] → ∃ t, Machine.exec .xctlAbort s = .next t ∧
        t.lath.xcBusy = false ∧ t.lath.xcStatus = 0 ∧ (t.grid? g.uid).map (fun g => g.held) = some false) ∧
      (l.xcOp = 3 → g.suspended = [] → g.restartQ = [] → mine g ≠ [] → ∃ t, Machine.exec .xctlAbort s = .next t ∧
        ∀ m ∈ mine g, ∀ m', s.team? m.uid = some m → t.team? m.uid = some m' →
          m'.ending = some (m.ending.getD 0x0305) ∧ m'.groups = m.groups)

/-- Collectives (R342, R350 to R362). A team's exit fires its chunk, read on path C, towards every other participant; a header
that differs ends the instance with COLL_MISMATCH, the last agreeing one moves it to RUN, of ENS once every participant's result
area is good; one that comes after the check has passed ends its sender's alone; a chunk whose parts are all there is reduced by its operation, each result is written at its place, and with the
last one the instance is done. An abort and COLLTMO end it, and COLLTMO tells every participant. A step for another package
leaves by the port of its route. That this package hears every participant and forms its own results is the choice of the
model (logs 12, 52, 62, 72, 76). -/
def Obligations.CollectiveEvents : Prop :=
  (∀ (s : State) (id inst : Nat) (c : Coll) (g : Grid), s.coll? id inst = some c → s.grid? c.grid = some g →
    let is (t : State) (p : Coll → Prop) : Prop := ∃ x, t.coll? id inst = some x ∧ p x
    let toAll (flow : Nat) (m : CollMsg) : List CollFlit :=
      c.peers.map fun p => { dchip := p, schip := s.lath.chipId, flow := flow, msg := m }
    let ends (ev : Instr) (code : Code) : Prop := ∃ t, Machine.exec ev s = .next t ∧
      is t fun x => x.state = .abort ∧ x.code = (if c.code = 0 then code else c.code) ∧ x.results = []
    let res := g.field 0xA0 8
    let size := collSize (g.collCfg 4 4)
    -- the header check
    (∀ hd, s.arg = .header hd → hd.collId = id → hd.inst = inst →
      (c.state = .armed → hd.second = false → ∃ t, Machine.exec .collHeaderCheck s = .next t ∧
        is t fun x => x = { c with heard := c.heard ++ [hd] }) ∧
      (c.state = .run ∨ c.state = .done ∨ c.state = .abort → Machine.exec .collHeaderCheck s = .next s) ∧
      ∀ h, c.state = .check → c.hdr = some h →
        (hd.second = true → hd.valid = false → ends .collHeaderCheck 0x0501) ∧
        (hd.second = false → (sameHeader hd h = false ∨ hd.valid = false ∨ h.npart ≤ hd.rank ∨ hd.rank ∈ c.heard.map (·.rank)) →
          ends .collHeaderCheck 0x0501) ∧
        (hd.second = false → h.op ≠ 6 → (∀ x ∈ c.heard ++ [hd], sameHeader x h = true ∧ x.valid = true ∧ x.rank < h.npart) →
          ((c.heard ++ [hd]).map (·.rank)).Nodup → (∀ x ∈ c.areas, x.valid = true) → c.heard.length + 1 = h.npart →
          ∃ t, Machine.exec .collHeaderCheck s = .next t ∧ is t fun x => x = { c with state := .run, heard := c.heard ++ [hd] })) ∧
    (∀ h, s.arg = .two id inst → c.state = .check → c.hdr = some h → h.op = 6 → (∀ x ∈ c.areas, x.valid = true ∧ x.rank ≠ h.rank) →
      (∀ x ∈ c.heard, sameHeader x h = true ∧ x.valid = true ∧ x.rank < h.npart) → (c.heard.map (·.rank)).Nodup → c.heard.length = h.npart →
      let m := (c.heard.map (·.members)).sum
      let record := ((2 + h.nq) * size + 4 + 7) / 8 * 8
      let ok := g.collCovers .rw (res + c.roff.getD 0) (g.collCount * record + 8 * (m + 1))
      let own : CollHeader := { h with second := true, valid := ok }
      (65536 < m ∨ ok = false → ends .collHeaderCheck 0x0501) ∧
      (m ≤ 65536 → ∃ t, Machine.exec .collHeaderCheck s = .next t ∧ t.collOut = s.collOut ++ toAll id (.area own) ∧
        (ok = true → is t fun x => x.areas = c.areas ++ [own] ∧
          (x.state = .run ↔ ∀ r < h.npart, r ≠ h.rank → ∃ a ∈ c.areas, a.rank = r)))) ∧
    -- firing
    (∀ k list s1, s.gridColl? g = some c → g.collCfg 0 4 ≤ 4 → agentRead s g.root (g.field 0x98 8) (2 * g.npart) false = .ok list s1 →
      let own := ownHeader s1 g inst list []
      let h := c.hdr.getD own
      let first := (g.teamRange k).1
      (k ∈ c.fired → fireChunk g k s = some (s, false)) ∧
      ∀ data s2, c.state = .run ∧ c.hdr.isSome ∨ c.state = .armed ∧ c.hdr = none → h.valid = true → k ∉ c.fired →
        agentRead s1 g.root (res + (if g.collCfg 0 4 = 3 then h.rank * g.collCount * size else 0) + first * size)
          (((g.teamRange k).2 - first) * size) false = .ok data s2 → s2.colls = s.colls →
        let ch : CollChunk := { collId := id, inst := inst, chunk := k, rank := h.rank, data := data, flags := 0,
                                last := decide (c.fired.length + 1 = g.chunkCount) }
        ∃ t, fireChunk g k s = some (t, false) ∧ is t (fun x => x.fired = c.fired ++ [k] ∧ x.inputs = c.inputs ++ [ch] ∧ x.hdr = some h ∧
            (c.state = .run → x.state = .run ∧ x.peers = c.peers) ∧ (c.state = .armed → x.state ≠ .armed ∧ x.firstFire = s.clk ∧
              ∀ p, p ∈ x.peers ↔ p ≠ s.lath.chipId ∧ ∃ i < g.npart, p = BitVec.ofNat 10 (bytesFld list (2 * i) 2))) ∧
          (c.state = .run → t.collOut = s2.collOut ++ c.peers.map fun p =>
            { dchip := p, schip := s2.lath.chipId, flow := id + k, msg := .chunk h ch })) ∧
    -- steps of the reducers
    (∀ x, s.arg = .chunk x → x.collId = id → x.inst = inst → c.state ≠ .done → c.state ≠ .abort →
      (∀ y ∈ c.inputs, ¬ (y.chunk = x.chunk ∧ y.rank = x.rank)) → ∃ t, Machine.exec .collChunkStep s = .next t ∧
        is t fun y => y = { c with inputs := c.inputs ++ [x] }) ∧
    (∀ h k, s.arg = .gang id inst k → c.state = .run → c.hdr = some h →
      (k < g.chunkCount → k ∉ c.reduced → (∀ r < h.npart, ∃ x ∈ c.inputs, x.chunk = k ∧ x.rank = r) →
        let out := reduceChunk c h g k
        ∃ t, Machine.exec .collChunkStep s = .next t ∧ is t fun z => z.reduced = c.reduced ++ [k] ∧
          z.results = c.results ++ out.1.filter (fun r => decide (r.data ≠ [])) ∧ z.flags = (out.1.map (·.flags)).foldl (· ||| ·) c.flags ∧
          z.code = (if c.code = 0 then out.2 else c.code) ∧
          (z.state = .done ↔ z.results = [] ∧ g.chunkCount ≤ z.reduced.length)) ∧
      ((∃ r < h.npart, ∀ x ∈ c.inputs, x.chunk = k → x.rank ≠ r) → ∃ t, Machine.exec .collChunkStep s = .next t ∧ is t fun z => z = c)) ∧
    -- results, aborts, the time limit
    (∀ x, s.arg = .chunk x → x.collId = id → x.inst = inst → x ∈ c.results →
      let first := (g.teamRange x.chunk).1
      let op := g.collCfg 0 4
      let va := if op = 3 then res + x.rank * g.collCount * size + first * size
        else if op = 5 then (if x.rank = 0 then res + 8 * g.npart else res + 16 * g.npart + g.collCount)
        else if op = 6 then res + c.roff.getD 0 else res + first * size
      (agentWrite s g.root va x.data false = .locked → Machine.exec .collResultWrite s = .next s) ∧
      ∀ s1, (agentWrite s g.root va x.data false = .ok [] s1 ∧ s1.colls = s.colls ∨ agentWrite s g.root va x.data false = .lost ∧ s1 = s) →
        ∃ t, Machine.exec .collResultWrite s = .next t ∧ t.mem = s1.mem ∧ is t fun y => y.results = c.results.erase x ∧
          (c.state = .run → c.results = [x] → g.chunkCount ≤ c.reduced.length → y.state = .done)) ∧
    (c.state ≠ .done → c.state ≠ .abort → (s.arg = .two id inst → ends .collAbortReceive 0x0503) ∧
      ∀ n, s.arg = .gang id inst n → ends .collAbortReceive (BitVec.ofNat 16 n)) ∧
    (s.arg = .two id inst → (c.state = .check ∨ c.state = .run) → s.lath.colltmo ≠ 0 →
      c.firstFire + s.lath.colltmo.toNat * s.lath.freq.toNat < s.clk → ends .collTimeout 0x0503 ∧
        ∃ t, Machine.exec .collTimeout s = .next t ∧ t.collOut = s.collOut ++ toAll id (.abort id inst 0x0503))) ∧
  -- a header that matches no rank still awaited
  (∀ (s : State) (f : CollFlit) (hd : CollHeader) (ch : CollChunk), s.arg = .coll f → f.dchip = s.lath.chipId → f.msg = .chunk hd ch →
    (∀ c, s.coll? hd.collId hd.inst = some c → hd ∈ c.heard → Machine.exec .collHeaderCheck s = .next s) ∧
    ((∃ c, s.coll? hd.collId hd.inst = some c ∧ hd ∉ c.heard ∧ (c.state = .run ∨ c.state = .done)) ∨
        (s.coll? hd.collId hd.inst = none ∧ hd.inst ≤ (mapGet s.collCount hd.collId).getD 0) →
      Machine.exec .collHeaderCheck s = .next { s with collOut := s.collOut ++
        [{ dchip := f.schip, schip := s.lath.chipId, flow := hd.collId, msg := .abort hd.collId hd.inst 0x0501 }] }) ∧
    (∀ c, s.coll? ch.collId ch.inst = some c → hd ∉ c.heard → Machine.exec .collChunkStep s = .next s)) ∧
  -- a step on its way
  (∀ (s : State) (f : CollFlit), s.arg = .coll f → f.dchip ≠ s.lath.chipId →
    let ports : List Nat := (List.range 48).filter fun n => ((mapGet s.route f.dchip.toNat).getD 0).getLsbD n
    let route : Option Nat := ports[f.flow % ports.length]?
    (∀ n, route = some n → (s.scrimPort n).state = 2 →
      ((s.collOut.find? fun g => sameCollFlow g f) = some f ∨ (f.schip ≠ s.lath.chipId ∧ f ∉ s.collOut)) →
      Machine.exec .flitForward s = .next { s with collOut := s.collOut.erase f, collSent := s.collSent ++ [(n, f)] }) ∧
    ((∀ n, route = some n → (s.scrimPort n).state ≠ 2) → Machine.exec .flitForward s = .next s)) ∧
  -- headers
  (∀ op ty mode, collTypeOk op ty mode = true ↔
    (op = 0 ∧ ty ≤ 8) ∨ ((op = 1 ∨ op = 2) ∧ ty ≤ 7) ∨ ((op = 3 ∨ op = 4) ∧ ty ≤ 9) ∨ (op = 5 ∧ ty = 9) ∨ (op = 6 ∧ ty ≤ 1 ∧ mode = true)) ∧
  (List.range 10).map collSize = [8, 4, 2, 2, 4, 4, 8, 8, 288, 1] ∧
  (∀ a b : CollHeader, sameHeader a b = true ↔ a.op = b.op ∧ a.ty = b.ty ∧ a.mode = b.mode ∧ a.count = b.count ∧ a.npart = b.npart ∧
    a.teams = b.teams ∧ a.listCrc = b.listCrc ∧ a.nq = b.nq ∧ a.quant = b.quant) ∧
  (∀ (s : State) (g : Grid) inst list ens, g.collCfg 0 4 ≠ 6 →
    let h := ownHeader s g inst list ens
    let chip (i : Nat) : Nat := bytesFld list (2 * i) 2
    let me := s.lath.chipId.toNat
    h.collId = g.field 0xAC 2 ∧ h.inst = inst ∧ h.op.toNat = g.collCfg 0 4 % 16 ∧ h.ty.toNat = g.collCfg 4 4 % 16 ∧ h.count.toNat = g.collCount % 2 ^ 32 ∧
      h.npart = g.npart ∧ h.teams = g.teamCount ∧ h.listCrc = crc32c list ∧
      ((∃ i < g.npart, chip i = me) → h.rank < g.npart ∧ chip h.rank = me ∧ ∀ i < h.rank, chip i ≠ me) ∧
      (h.valid = true ↔ collTypeOk (g.collCfg 0 4) (g.collCfg 4 4) h.mode = true ∧ 1 ≤ g.npart ∧ g.npart ≤ 1024 ∧
        (∀ i < g.npart, chip i < 1024) ∧ ∃ i < g.npart, chip i = me ∧ ∀ j < g.npart, chip j = me → j = i)) ∧
  (∀ (g : Grid) k, let n := (g.collCount + g.teamCount - 1) / g.teamCount
    g.teamRange k = (min (k * n) g.collCount, min ((k + 1) * n) g.collCount)) ∧
  -- reductions
  (∀ (c : Coll) (h : CollHeader) (g : Grid) (k : Nat), 0 < h.npart →
    let part (r : Nat) : List Byte := ((c.inputs.find? fun x => decide (x.chunk = k) && decide (x.rank = r)).map (·.data)).getD []
    let parts := (List.range h.npart).map part
    let result (r : Nat) (bs : List Byte) (fl : FFlags) : CollChunk :=
      { collId := c.collId, inst := c.inst, chunk := k, rank := r, data := bs, flags := fl, last := false }
    let n := (g.teamRange k).2 - (g.teamRange k).1
    let ty := h.ty.toNat
    let size := collSize ty
    let each (f : List Nat → Nat × FFlags) : Prop := ∃ bs fl, reduceChunk c h g k = ([result 0 bs fl], 0) ∧ bs.length = n * size ∧
      (∀ i < n, bytesFld bs (size * i) size = (f (parts.map fun b => bytesFld b (size * i) size)).1 % 2 ^ (8 * size)) ∧
      fl = (List.range n).foldl (fun a i => a ||| (f (parts.map fun b => bytesFld b (size * i) size)).2) 0
    let count (j i : Nat) : Nat := bytesFld (part j) (8 * i) 8
    let sum (m : Nat) (f : Nat → Nat) : Nat := ((List.range m).map f).sum
    let counts := (List.range h.npart).flatMap fun j => bytesOfNat 8 (count j h.rank)
    let tooMany : Prop := ∃ j < h.npart, g.collCount < sum h.npart (count j) ∨ g.collCount < sum h.npart fun i => count i j
    (h.op = 0 → ty = 8 → 2 ≤ h.npart → reduceChunk c h g k = ([result 0 ((List.range n).flatMap fun i =>
      let image (r : Nat) : Lacc := Lacc.ofImage (((part r).drop (288 * i)).take 288)
      ((List.range (h.npart - 1)).foldl (fun (a : Lacc) r => a.merge (image (r + 1))) (image 0)).image) 0], 0)) ∧
    (h.op = 0 → ty ≠ 8 → each (sumElem ty h.mode)) ∧ (h.op = 1 → each (extremeElem ty true)) ∧ (h.op = 2 → each (extremeElem ty false)) ∧
    (h.op = 3 → reduceChunk c h g k = ((List.range h.npart).map fun r => result r (part r) 0, 0)) ∧
    (h.op = 4 → reduceChunk c h g k = ([result 0 (part 0) 0], 0)) ∧
    (h.op = 5 → tooMany → reduceChunk c h g k = ([result 0 counts 0], 0x0502)) ∧
    (h.op = 5 → ¬ tooMany → reduceChunk c h g k = ([result 0 counts 0, result 1 ((List.range h.npart).flatMap fun j =>
      ((part j).drop (8 * h.npart + sum h.rank (count j))).take (count j h.rank)) 0], 0)) ∧
    (h.op = 6 → ∃ fl, reduceChunk c h g k = ([result 0 (ensResult ty h.nq g.collCount h.quant (parts.zipIdx.map fun x =>
      (x.1, ((c.heard.find? fun y => decide (y.rank = x.2)).map (·.members)).getD 0))).1 fl], 0))) ∧
  (∀ ty exact, (∀ x, sumElem ty exact [x] = (x, 0)) ∧ ∀ xs : List Nat, 2 ≤ xs.length →
    let half := (xs.length + 1) / 2
    (collFmt ty = none → sumElem ty exact xs = (xs.sum % 2 ^ (8 * collSize ty), 0)) ∧
    ∀ f, collFmt ty = some f →
      (exact = false → sumElem ty exact xs =
        let a := sumElem ty exact (xs.take half)
        let b := sumElem ty exact (xs.drop half)
        let r := fpArith f .add .rne a.1 b.1 0
        (r.1, a.2 ||| b.2 ||| r.2)) ∧
      (exact = true → sumElem ty exact xs = (xs.foldl (fun (a : Lacc) v => a.add (f.value v)) {}).readOut f .rne)) ∧
  (∀ ty lesser x (xs : List Nat),
    let before (a b : Nat) : Prop := match collKey ty a, collKey ty b with
      | some p, some q => if lesser = true then p < q else q < p
      | some _, none => True
      | none, _ => False
    let r := extremeElem ty lesser (x :: xs)
    (∃ i : Nat, (x :: xs)[i]? = some r.1 ∧ ∀ (j : Nat) y, (x :: xs)[j]? = some y → ¬ before y r.1 ∧ (j < i → before r.1 y)) ∧
      (r.2 = if ∃ y ∈ x :: xs, collSnan ty y = true then flagNV else 0)) ∧
  (∀ ty x y f, collFmt ty = some f → x < 2 * f.signBit → y < 2 * f.signBit →
    (collKey ty x = none ↔ f.infBits < x % f.signBit) ∧
      ∀ p q, collKey ty x = some p → collKey ty y = some q → (p < q ↔ keyBefore f x y)) ∧
  ∀ ty nq count (q : List (BitVec 16)) (ins : List (List Byte × Nat)), nq ≤ q.length → ty ≤ 1 →
    let f := if ty = 0 then fmtF64 else fmtF32
    let size := if ty = 0 then 8 else 4
    let len := ((2 + nq) * size + 4 + 7) / 8 * 8
    let r := ensResult ty nq count q ins
    let members (p : Nat) : List Nat := ins.flatMap fun x => (List.range x.2).map fun m => bytesFld x.1 (size * (p * x.2 + m)) size
    let rank (p : Nat) : Nat := match ensVerify size count p ins with
      | some v => (statRank f v (members p)).1
      | none => 0xFFFFFFFF
    let body (p : Nat) : List Byte := bytesOfNat size (statMean f .rne (members p)).1 ++ bytesOfNat size (statSprd f .rne (members p)).1 ++
      ((q.take nq).flatMap fun l => bytesOfNat size (statQnt f l.toNat (members p)).1) ++ bytesOfNat 4 (rank p)
    (∀ p < count, (r.1.drop (p * len)).take len = body p ++ List.replicate (len - ((2 + nq) * size + 4)) 0) ∧
      r.1.drop (count * len) = (List.range ((ins.map (·.2)).sum + 1)).flatMap fun j =>
        bytesOfNat 8 ((List.range count).filter fun p => decide (rank p = j)).length

/-- The word of an instruction decodes to it, and a word decodes to nothing but the instruction whose word it is (R5, R98,
R123). Which words the decoder itself rejects is log 15. -/
def Obligations.DecodeAndEncodeAgree : Prop :=
  (∀ i w, encode i = some w → decodeRaw w = some i ∧ decodeBytes (bytesOfWord w) = .ok (i, [])) ∧
  ∀ i w, decodeRaw w = some i → encode i = some w

/-- A step runs what the moving agent fetches: a gang or a Trowel the instruction that the bytes at its program counter decode to,
a gang in a MACRO the next operation word, an event itself; then time passes. A word that is no instruction traps before it has
any effect, code outside the leases or without a translation ends the team, and a deferred cause that is due comes first (R5, R89,
R98, R118, R123, R159, R260, R271, R366). Which agent moves next, a .WF access apart that a fill has released, is the agenda's
(log 2). -/
def Obligations.StepRunsTheDecodedInstruction : Prop :=
  ∀ (s s1 s2 : State) (uid gid k : Nat) (j : Instr),
    (∀ t, wfDue s = some t → nextTurn s = (some t, s)) ∧
    (∀ t rest, wfDue s = none → s.agenda = t :: rest → nextTurn s = (some t, { s with agenda := rest })) ∧
    (nextTurn s = (some (.gang uid gid k), s1) → causeDue s1 uid gid = true → Machine.step s = .next (passTime (takeHeld s1 uid gid))) ∧
    (let gang := gangTurn s1 uid gid k
     ∀ c, nextTurn s = (some (.gang uid gid k), s1) → causeDue s1 uid gid = false → issueOf s1 uid gid gang true = some c →
      c.mac = none → c.team.ending = none → c.group.ended = false →
      (leaseOk c.grid none .x c.pc.toNat 4 = false → Machine.step s = .next (passTime (endTeamWith s1 uid 0x0301))) ∧
      (leaseOk c.grid none .x c.pc.toNat 4 = true →
        translateAll s1 c.team.core c.grid.asid c.grid.root false (accessBytes c.grid none c.pc.toNat 4) = .lost →
        Machine.step s = .next (passTime (endTeamWith s1 uid 0x0302)))) ∧
    (let gang := gangTurn s1 uid gid k
     ∀ c pas, nextTurn s = (some (.gang uid gid k), s1) → causeDue s1 uid gid = false → issueOf s1 uid gid gang true = some c →
      c.mac = none → c.team.ending = none → c.group.ended = false → leaseOk c.grid none .x c.pc.toNat 4 = true →
      translateAll s1 c.team.core c.grid.asid c.grid.root false (accessBytes c.grid none c.pc.toNat 4) = .ok pas s2 →
      (decodeBytes (l2Reads s2 pas) = .ok (j, []) →
        Machine.step s = afterMove (Machine.exec j { s2 with issuer := .gang uid gid gang })) ∧
      (∀ e, decodeBytes (l2Reads s2 pas) = .error e → ∀ c', issueOf s2 uid gid gang false = some c' →
        Machine.step s = .next (passTime (c'.trapWith { code := 0x0101 } s2)))) ∧
    (let gang := gangTurn s1 uid gid k
     ∀ c m, nextTurn s = (some (.gang uid gid k), s1) → causeDue s1 uid gid = false → issueOf s1 uid gid gang true = some c →
      c.mac = some m →
      (m.fetch = .instr j → Machine.step s = afterMove (Machine.exec j { s1 with issuer := .gang uid gid gang })) ∧
      (m.fetch = .illegal → ∀ c', issueOf s1 uid gid gang false = some c' →
        Machine.step s = .next (passTime (c'.trapWith { code := 0x0101 } s1)))) ∧
    (∀ t gr w pas, nextTurn s = (some (.trowel uid), s1) → s1.team? uid = some t → s1.grid? t.grid = some gr → t.trowel = some w →
      w.status = .running → (t.ending = none ∨ w.tape.mode = .reversing) → gr.tbase ≤ w.pc.toNat → w.pc.toNat + 4 ≤ gr.tbase + gr.tlen →
      leaseOk gr none .x w.pc.toNat 4 = true →
      translateAll s1 t.core gr.asid gr.root false (accessBytes gr none w.pc.toNat 4) = .ok pas s2 →
      decodeBytes (l2Reads s2 pas) = .ok (j, []) → Machine.step s = afterMove (Machine.exec j { s2 with issuer := .trowel uid })) ∧
    (∀ t gr w, nextTurn s = (some (.trowel uid), s1) → s1.team? uid = some t → s1.grid? t.grid = some gr → t.trowel = some w →
      w.status = .running → t.ending = none → (w.pc.toNat < gr.tbase ∨ gr.tbase + gr.tlen < w.pc.toNat + 4) →
      Machine.step s = .next (passTime (trowelTrap s1 uid 0x0204 0))) ∧
    (∀ n, nextTurn s = (some (.evict n), s1) → Machine.step s = .next (passTime (evictL2 s1 n))) ∧
    (∀ a, nextTurn s = (some (.event j a), s1) →
      Machine.step s = afterMove (Machine.exec j { s1 with issuer := .nobody, arg := a })) ∧
    (nextTurn s = (none, s1) → Machine.step s = .next (passTime s1))

/-- Words written out bit by bit, field by field from the top, by the encodings of chapters 6 to 12, decode to their instructions;
an unassigned major opcode decodes to none (R98, R123). -/
def Obligations.WordsDecode : Prop :=
  decodeTableWord 32 0b000000_0011_0000000000000000000101 = some (.bra 3 5) ∧
  decodeTableWord 32 0b000011_0010_0000000000000000000000 = some .exit ∧
  decodeTableWord 32 0b00100_1_00000_0000011_1100000_0000101 = some (.add 1 3 0x60 5) ∧
  decodeTableWord 32 0b001010_0000111_0001000_111111111111 = some (.addi 7 8 (-1)) ∧
  decodeTableWord 32 0b001101_10_101_0000_011_0000001_0000010 = some (.icmp 2 5 3 1 2) ∧
  decodeTableWord 32 0b0101_01_11_011_0000100_0000101_0000110 = some (.fma 1 3 4 5 6) ∧
  decodeTableWord 32 0b0100100010_10000000_0001001_0000000 = some (.regroup 9) ∧
  decodeTableWord 32 0b100100_101_0000010_0000100_111111100 = some (.ld 5 2 4 (-4)) ∧
  decodeTableWord 32 0b101000_100_0000010_0000100_00_0000011 = some (.ldh 4 2 4 3) ∧
  decodeTableWord 32 0b1010110000_1_0000011_0000101_0000000 = some (.lr 1 3 5) ∧
  decodeTableWord 32 0b10110100_100_000000000000000000000 = some (.fence 4) ∧
  decodeTableWord 32 0b110000_000000000000_0000010_0000100 = some (.hod 2 4) ∧
  decodeTableWord 32 0b1101010_0110_0010_101_00_00011_00_00100 = some (.mma 6 2 5 3 4) ∧
  decodeTableWord 32 0b11101000011_0000010_0000100_0000_1_0_1 = some (.trev 2 4 1 0 1) ∧
  decodeTableWord 32 0b111100_00000111_000001_000010_000011 = some (.runMacro 7 1 2 3) ∧
  decodeTableWord 32 0b1111110001_0000000000000000000001 = some (.imm 1) ∧
  decodeTableWord 32 0b001111_00000000000000000000000000 = none

/-- The state after package reset: level L0 with no core, no team and no link up, and every control register as its table gives
it. That memory lists nothing, and a number the tables do not give, are the choices of the model (logs 1, 16). -/
def Obligations.ResetValues : Prop :=
  let s := State.reset
  s.level = 0 ∧ s.teams = [] ∧ s.grids = [] ∧ s.graphs = [] ∧ s.mem = [] ∧ onlineMap s = 0 ∧
    regRead s .colclk = 0 ∧ regRead s .scrimid = 0 ∧ regRead s .pwrlim = 3400 ∧ regRead s .errhead = 0 ∧
    regRead s .placectl = 85 * 2 ^ 20 ∧ regRead s .spawnctl = 256 ∧ regRead s .xlatinv = 0 ∧ regRead s .swapctl = 0 ∧
    regRead s .xctl = 0 ∧
    ∀ n, regRead s (.qbase n) = 0 ∧ regRead s (.qctl n) = 0 ∧ regRead s (.qptr n) = 0 ∧ regRead s (.qroot n) = 0 ∧
      regRead s (.qfault n) = 0 ∧ regRead s (.qstat n) = 0 ∧ regRead s (.vgate n) = 0 ∧ regRead s (.rxw n) = 0 ∧
      regRead s (.locctl n) = 2 ^ 31 + 4 * 2 ^ 24 + 256 * 2 ^ 12 + 64 ∧ regRead s (.linkst false n) = 8 ∧
      regRead s (.linkst true n) = 8 ∧ regRead s (.counter n) = 0

/-- Every step keeps every memory in its canonical form: the physical memory, Hawk, column and tiles of every team, the L1s.
The form is the model's own (log 1). -/
def Obligations.StepsKeepMemoriesCanonical : Prop :=
  ∀ s t, MemoriesOk s → Machine.step s = .next t → MemoriesOk t

/-- The memories are in their canonical form at reset, and with a first instruction placed. The form is the model's own (log
1). -/
def Obligations.ResetMemoriesAreCanonical : Prop :=
  MemoriesOk State.reset ∧ ∀ n w, MemoriesOk (State.reset.withFetchWord n w)
end

