-- ==== Sys2Proof/Laws/State.lean ====
section
/-! SUPPORT. One lemma for each field that an update of a record leaves alone, so that no proof unfolds the update. -/

namespace Sys2Proof.Machine

/-! ### A team changed -/

@[simp] theorem State.clk_updTeam (s : State) (u : Nat) (f : Team → Team) : (s.updTeam u f).clk = s.clk := rfl
@[simp] theorem State.tick_updTeam (s : State) (u : Nat) (f : Team → Team) : (s.updTeam u f).tick = s.tick := rfl
@[simp] theorem State.agenda_updTeam (s : State) (u : Nat) (f : Team → Team) : (s.updTeam u f).agenda = s.agenda := rfl
@[simp] theorem State.issuer_updTeam (s : State) (u : Nat) (f : Team → Team) : (s.updTeam u f).issuer = s.issuer := rfl
@[simp] theorem State.arg_updTeam (s : State) (u : Nat) (f : Team → Team) : (s.updTeam u f).arg = s.arg := rfl
@[simp] theorem State.level_updTeam (s : State) (u : Nat) (f : Team → Team) : (s.updTeam u f).level = s.level := rfl
@[simp] theorem State.base_updTeam (s : State) (u : Nat) (f : Team → Team) : (s.updTeam u f).base = s.base := rfl
@[simp] theorem State.hbmUp_updTeam (s : State) (u : Nat) (f : Team → Team) : (s.updTeam u f).hbmUp = s.hbmUp := rfl
@[simp] theorem State.fencedFrames_updTeam (s : State) (u : Nat) (f : Team → Team) : (s.updTeam u f).fencedFrames = s.fencedFrames := rfl
@[simp] theorem State.fencedReducers_updTeam (s : State) (u : Nat) (f : Team → Team) : (s.updTeam u f).fencedReducers = s.fencedReducers := rfl
@[simp] theorem State.fencedWays_updTeam (s : State) (u : Nat) (f : Team → Team) : (s.updTeam u f).fencedWays = s.fencedWays := rfl
@[simp] theorem State.lath_updTeam (s : State) (u : Nat) (f : Team → Team) : (s.updTeam u f).lath = s.lath := rfl
@[simp] theorem State.flash_updTeam (s : State) (u : Nat) (f : Team → Team) : (s.updTeam u f).flash = s.flash := rfl
@[simp] theorem State.firmware_updTeam (s : State) (u : Nat) (f : Team → Team) : (s.updTeam u f).firmware = s.firmware := rfl
@[simp] theorem State.mem_updTeam (s : State) (u : Nat) (f : Team → Team) : (s.updTeam u f).mem = s.mem := rfl
@[simp] theorem State.l2Dirty_updTeam (s : State) (u : Nat) (f : Team → Team) : (s.updTeam u f).l2Dirty = s.l2Dirty := rfl
@[simp] theorem State.queues_updTeam (s : State) (u : Nat) (f : Team → Team) : (s.updTeam u f).queues = s.queues := rfl
@[simp] theorem State.prioPtr_updTeam (s : State) (u : Nat) (f : Team → Team) : (s.updTeam u f).prioPtr = s.prioPtr := rfl
@[simp] theorem State.placeP_updTeam (s : State) (u : Nat) (f : Team → Team) : (s.updTeam u f).placeP = s.placeP := rfl
@[simp] theorem State.grids_updTeam (s : State) (u : Nat) (f : Team → Team) : (s.updTeam u f).grids = s.grids := rfl
@[simp] theorem State.graphs_updTeam (s : State) (u : Nat) (f : Team → Team) : (s.updTeam u f).graphs = s.graphs := rfl
@[simp] theorem State.nextUid_updTeam (s : State) (u : Nat) (f : Team → Team) : (s.updTeam u f).nextUid = s.nextUid := rfl
@[simp] theorem State.cores_updTeam (s : State) (u : Nat) (f : Team → Team) : (s.updTeam u f).cores = s.cores := rfl
@[simp] theorem State.txw_updTeam (s : State) (u : Nat) (f : Team → Team) : (s.updTeam u f).txw = s.txw := rfl
@[simp] theorem State.rxw_updTeam (s : State) (u : Nat) (f : Team → Team) : (s.updTeam u f).rxw = s.rxw := rfl
@[simp] theorem State.route_updTeam (s : State) (u : Nat) (f : Team → Team) : (s.updTeam u f).route = s.route := rfl
@[simp] theorem State.outbox_updTeam (s : State) (u : Nat) (f : Team → Team) : (s.updTeam u f).outbox = s.outbox := rfl
@[simp] theorem State.stuck_updTeam (s : State) (u : Nat) (f : Team → Team) : (s.updTeam u f).stuck = s.stuck := rfl
@[simp] theorem State.forwarded_updTeam (s : State) (u : Nat) (f : Team → Team) : (s.updTeam u f).forwarded = s.forwarded := rfl
@[simp] theorem State.heldRefl_updTeam (s : State) (u : Nat) (f : Team → Team) : (s.updTeam u f).heldRefl = s.heldRefl := rfl
@[simp] theorem State.lockedRefl_updTeam (s : State) (u : Nat) (f : Team → Team) : (s.updTeam u f).lockedRefl = s.lockedRefl := rfl
@[simp] theorem State.undelivered_updTeam (s : State) (u : Nat) (f : Team → Team) : (s.updTeam u f).undelivered = s.undelivered := rfl
@[simp] theorem State.nextFlit_updTeam (s : State) (u : Nat) (f : Team → Team) : (s.updTeam u f).nextFlit = s.nextFlit := rfl
@[simp] theorem State.colls_updTeam (s : State) (u : Nat) (f : Team → Team) : (s.updTeam u f).colls = s.colls := rfl
@[simp] theorem State.collCount_updTeam (s : State) (u : Nat) (f : Team → Team) : (s.updTeam u f).collCount = s.collCount := rfl
@[simp] theorem State.collOut_updTeam (s : State) (u : Nat) (f : Team → Team) : (s.updTeam u f).collOut = s.collOut := rfl
@[simp] theorem State.scrim_updTeam (s : State) (u : Nat) (f : Team → Team) : (s.updTeam u f).scrim = s.scrim := rfl
@[simp] theorem State.cxl_updTeam (s : State) (u : Nat) (f : Team → Team) : (s.updTeam u f).cxl = s.cxl := rfl
@[simp] theorem State.errHead_updTeam (s : State) (u : Nat) (f : Team → Team) : (s.updTeam u f).errHead = s.errHead := rfl
@[simp] theorem State.errLog_updTeam (s : State) (u : Nat) (f : Team → Team) : (s.updTeam u f).errLog = s.errLog := rfl
@[simp] theorem State.counters_updTeam (s : State) (u : Nat) (f : Team → Team) : (s.updTeam u f).counters = s.counters := rfl
@[simp] theorem State.retryReads_updTeam (s : State) (u : Nat) (f : Team → Team) : (s.updTeam u f).retryReads = s.retryReads := rfl
@[simp] theorem State.cxlUp_updTeam (s : State) (u : Nat) (f : Team → Team) : (s.updTeam u f).cxlUp = s.cxlUp := rfl
@[simp] theorem State.fencedPorts_updTeam (s : State) (u : Nat) (f : Team → Team) : (s.updTeam u f).fencedPorts = s.fencedPorts := rfl
@[simp] theorem State.fencedLinks_updTeam (s : State) (u : Nat) (f : Team → Team) : (s.updTeam u f).fencedLinks = s.fencedLinks := rfl
@[simp] theorem State.collSent_updTeam (s : State) (u : Nat) (f : Team → Team) : (s.updTeam u f).collSent = s.collSent := rfl

/-! ### A group changed -/

@[simp] theorem State.clk_updGroup (s : State) (u k : Nat) (f : Group → Group) : (s.updGroup u k f).clk = s.clk := rfl
@[simp] theorem State.tick_updGroup (s : State) (u k : Nat) (f : Group → Group) : (s.updGroup u k f).tick = s.tick := rfl
@[simp] theorem State.agenda_updGroup (s : State) (u k : Nat) (f : Group → Group) : (s.updGroup u k f).agenda = s.agenda := rfl
@[simp] theorem State.issuer_updGroup (s : State) (u k : Nat) (f : Group → Group) : (s.updGroup u k f).issuer = s.issuer := rfl
@[simp] theorem State.arg_updGroup (s : State) (u k : Nat) (f : Group → Group) : (s.updGroup u k f).arg = s.arg := rfl
@[simp] theorem State.level_updGroup (s : State) (u k : Nat) (f : Group → Group) : (s.updGroup u k f).level = s.level := rfl
@[simp] theorem State.base_updGroup (s : State) (u k : Nat) (f : Group → Group) : (s.updGroup u k f).base = s.base := rfl
@[simp] theorem State.hbmUp_updGroup (s : State) (u k : Nat) (f : Group → Group) : (s.updGroup u k f).hbmUp = s.hbmUp := rfl
@[simp] theorem State.fencedFrames_updGroup (s : State) (u k : Nat) (f : Group → Group) : (s.updGroup u k f).fencedFrames = s.fencedFrames := rfl
@[simp] theorem State.fencedReducers_updGroup (s : State) (u k : Nat) (f : Group → Group) : (s.updGroup u k f).fencedReducers = s.fencedReducers := rfl
@[simp] theorem State.fencedWays_updGroup (s : State) (u k : Nat) (f : Group → Group) : (s.updGroup u k f).fencedWays = s.fencedWays := rfl
@[simp] theorem State.lath_updGroup (s : State) (u k : Nat) (f : Group → Group) : (s.updGroup u k f).lath = s.lath := rfl
@[simp] theorem State.flash_updGroup (s : State) (u k : Nat) (f : Group → Group) : (s.updGroup u k f).flash = s.flash := rfl
@[simp] theorem State.firmware_updGroup (s : State) (u k : Nat) (f : Group → Group) : (s.updGroup u k f).firmware = s.firmware := rfl
@[simp] theorem State.mem_updGroup (s : State) (u k : Nat) (f : Group → Group) : (s.updGroup u k f).mem = s.mem := rfl
@[simp] theorem State.l2Dirty_updGroup (s : State) (u k : Nat) (f : Group → Group) : (s.updGroup u k f).l2Dirty = s.l2Dirty := rfl
@[simp] theorem State.queues_updGroup (s : State) (u k : Nat) (f : Group → Group) : (s.updGroup u k f).queues = s.queues := rfl
@[simp] theorem State.prioPtr_updGroup (s : State) (u k : Nat) (f : Group → Group) : (s.updGroup u k f).prioPtr = s.prioPtr := rfl
@[simp] theorem State.placeP_updGroup (s : State) (u k : Nat) (f : Group → Group) : (s.updGroup u k f).placeP = s.placeP := rfl
@[simp] theorem State.grids_updGroup (s : State) (u k : Nat) (f : Group → Group) : (s.updGroup u k f).grids = s.grids := rfl
@[simp] theorem State.graphs_updGroup (s : State) (u k : Nat) (f : Group → Group) : (s.updGroup u k f).graphs = s.graphs := rfl
@[simp] theorem State.nextUid_updGroup (s : State) (u k : Nat) (f : Group → Group) : (s.updGroup u k f).nextUid = s.nextUid := rfl
@[simp] theorem State.cores_updGroup (s : State) (u k : Nat) (f : Group → Group) : (s.updGroup u k f).cores = s.cores := rfl
@[simp] theorem State.txw_updGroup (s : State) (u k : Nat) (f : Group → Group) : (s.updGroup u k f).txw = s.txw := rfl
@[simp] theorem State.rxw_updGroup (s : State) (u k : Nat) (f : Group → Group) : (s.updGroup u k f).rxw = s.rxw := rfl
@[simp] theorem State.route_updGroup (s : State) (u k : Nat) (f : Group → Group) : (s.updGroup u k f).route = s.route := rfl
@[simp] theorem State.outbox_updGroup (s : State) (u k : Nat) (f : Group → Group) : (s.updGroup u k f).outbox = s.outbox := rfl
@[simp] theorem State.stuck_updGroup (s : State) (u k : Nat) (f : Group → Group) : (s.updGroup u k f).stuck = s.stuck := rfl
@[simp] theorem State.forwarded_updGroup (s : State) (u k : Nat) (f : Group → Group) : (s.updGroup u k f).forwarded = s.forwarded := rfl
@[simp] theorem State.heldRefl_updGroup (s : State) (u k : Nat) (f : Group → Group) : (s.updGroup u k f).heldRefl = s.heldRefl := rfl
@[simp] theorem State.lockedRefl_updGroup (s : State) (u k : Nat) (f : Group → Group) : (s.updGroup u k f).lockedRefl = s.lockedRefl := rfl
@[simp] theorem State.undelivered_updGroup (s : State) (u k : Nat) (f : Group → Group) : (s.updGroup u k f).undelivered = s.undelivered := rfl
@[simp] theorem State.nextFlit_updGroup (s : State) (u k : Nat) (f : Group → Group) : (s.updGroup u k f).nextFlit = s.nextFlit := rfl
@[simp] theorem State.colls_updGroup (s : State) (u k : Nat) (f : Group → Group) : (s.updGroup u k f).colls = s.colls := rfl
@[simp] theorem State.collCount_updGroup (s : State) (u k : Nat) (f : Group → Group) : (s.updGroup u k f).collCount = s.collCount := rfl
@[simp] theorem State.collOut_updGroup (s : State) (u k : Nat) (f : Group → Group) : (s.updGroup u k f).collOut = s.collOut := rfl
@[simp] theorem State.scrim_updGroup (s : State) (u k : Nat) (f : Group → Group) : (s.updGroup u k f).scrim = s.scrim := rfl
@[simp] theorem State.cxl_updGroup (s : State) (u k : Nat) (f : Group → Group) : (s.updGroup u k f).cxl = s.cxl := rfl
@[simp] theorem State.errHead_updGroup (s : State) (u k : Nat) (f : Group → Group) : (s.updGroup u k f).errHead = s.errHead := rfl
@[simp] theorem State.errLog_updGroup (s : State) (u k : Nat) (f : Group → Group) : (s.updGroup u k f).errLog = s.errLog := rfl
@[simp] theorem State.counters_updGroup (s : State) (u k : Nat) (f : Group → Group) : (s.updGroup u k f).counters = s.counters := rfl
@[simp] theorem State.retryReads_updGroup (s : State) (u k : Nat) (f : Group → Group) : (s.updGroup u k f).retryReads = s.retryReads := rfl
@[simp] theorem State.cxlUp_updGroup (s : State) (u k : Nat) (f : Group → Group) : (s.updGroup u k f).cxlUp = s.cxlUp := rfl
@[simp] theorem State.fencedPorts_updGroup (s : State) (u k : Nat) (f : Group → Group) : (s.updGroup u k f).fencedPorts = s.fencedPorts := rfl
@[simp] theorem State.fencedLinks_updGroup (s : State) (u k : Nat) (f : Group → Group) : (s.updGroup u k f).fencedLinks = s.fencedLinks := rfl
@[simp] theorem State.collSent_updGroup (s : State) (u k : Nat) (f : Group → Group) : (s.updGroup u k f).collSent = s.collSent := rfl

/-! ### A grid changed -/

@[simp] theorem State.clk_updGrid (s : State) (u : Nat) (f : Grid → Grid) : (s.updGrid u f).clk = s.clk := rfl
@[simp] theorem State.tick_updGrid (s : State) (u : Nat) (f : Grid → Grid) : (s.updGrid u f).tick = s.tick := rfl
@[simp] theorem State.agenda_updGrid (s : State) (u : Nat) (f : Grid → Grid) : (s.updGrid u f).agenda = s.agenda := rfl
@[simp] theorem State.issuer_updGrid (s : State) (u : Nat) (f : Grid → Grid) : (s.updGrid u f).issuer = s.issuer := rfl
@[simp] theorem State.arg_updGrid (s : State) (u : Nat) (f : Grid → Grid) : (s.updGrid u f).arg = s.arg := rfl
@[simp] theorem State.level_updGrid (s : State) (u : Nat) (f : Grid → Grid) : (s.updGrid u f).level = s.level := rfl
@[simp] theorem State.base_updGrid (s : State) (u : Nat) (f : Grid → Grid) : (s.updGrid u f).base = s.base := rfl
@[simp] theorem State.hbmUp_updGrid (s : State) (u : Nat) (f : Grid → Grid) : (s.updGrid u f).hbmUp = s.hbmUp := rfl
@[simp] theorem State.fencedFrames_updGrid (s : State) (u : Nat) (f : Grid → Grid) : (s.updGrid u f).fencedFrames = s.fencedFrames := rfl
@[simp] theorem State.fencedReducers_updGrid (s : State) (u : Nat) (f : Grid → Grid) : (s.updGrid u f).fencedReducers = s.fencedReducers := rfl
@[simp] theorem State.fencedWays_updGrid (s : State) (u : Nat) (f : Grid → Grid) : (s.updGrid u f).fencedWays = s.fencedWays := rfl
@[simp] theorem State.lath_updGrid (s : State) (u : Nat) (f : Grid → Grid) : (s.updGrid u f).lath = s.lath := rfl
@[simp] theorem State.flash_updGrid (s : State) (u : Nat) (f : Grid → Grid) : (s.updGrid u f).flash = s.flash := rfl
@[simp] theorem State.firmware_updGrid (s : State) (u : Nat) (f : Grid → Grid) : (s.updGrid u f).firmware = s.firmware := rfl
@[simp] theorem State.mem_updGrid (s : State) (u : Nat) (f : Grid → Grid) : (s.updGrid u f).mem = s.mem := rfl
@[simp] theorem State.l2Dirty_updGrid (s : State) (u : Nat) (f : Grid → Grid) : (s.updGrid u f).l2Dirty = s.l2Dirty := rfl
@[simp] theorem State.queues_updGrid (s : State) (u : Nat) (f : Grid → Grid) : (s.updGrid u f).queues = s.queues := rfl
@[simp] theorem State.prioPtr_updGrid (s : State) (u : Nat) (f : Grid → Grid) : (s.updGrid u f).prioPtr = s.prioPtr := rfl
@[simp] theorem State.placeP_updGrid (s : State) (u : Nat) (f : Grid → Grid) : (s.updGrid u f).placeP = s.placeP := rfl
@[simp] theorem State.graphs_updGrid (s : State) (u : Nat) (f : Grid → Grid) : (s.updGrid u f).graphs = s.graphs := rfl
@[simp] theorem State.nextUid_updGrid (s : State) (u : Nat) (f : Grid → Grid) : (s.updGrid u f).nextUid = s.nextUid := rfl
@[simp] theorem State.teams_updGrid (s : State) (u : Nat) (f : Grid → Grid) : (s.updGrid u f).teams = s.teams := rfl
@[simp] theorem State.cores_updGrid (s : State) (u : Nat) (f : Grid → Grid) : (s.updGrid u f).cores = s.cores := rfl
@[simp] theorem State.txw_updGrid (s : State) (u : Nat) (f : Grid → Grid) : (s.updGrid u f).txw = s.txw := rfl
@[simp] theorem State.rxw_updGrid (s : State) (u : Nat) (f : Grid → Grid) : (s.updGrid u f).rxw = s.rxw := rfl
@[simp] theorem State.route_updGrid (s : State) (u : Nat) (f : Grid → Grid) : (s.updGrid u f).route = s.route := rfl
@[simp] theorem State.outbox_updGrid (s : State) (u : Nat) (f : Grid → Grid) : (s.updGrid u f).outbox = s.outbox := rfl
@[simp] theorem State.stuck_updGrid (s : State) (u : Nat) (f : Grid → Grid) : (s.updGrid u f).stuck = s.stuck := rfl
@[simp] theorem State.forwarded_updGrid (s : State) (u : Nat) (f : Grid → Grid) : (s.updGrid u f).forwarded = s.forwarded := rfl
@[simp] theorem State.heldRefl_updGrid (s : State) (u : Nat) (f : Grid → Grid) : (s.updGrid u f).heldRefl = s.heldRefl := rfl
@[simp] theorem State.lockedRefl_updGrid (s : State) (u : Nat) (f : Grid → Grid) : (s.updGrid u f).lockedRefl = s.lockedRefl := rfl
@[simp] theorem State.undelivered_updGrid (s : State) (u : Nat) (f : Grid → Grid) : (s.updGrid u f).undelivered = s.undelivered := rfl
@[simp] theorem State.nextFlit_updGrid (s : State) (u : Nat) (f : Grid → Grid) : (s.updGrid u f).nextFlit = s.nextFlit := rfl
@[simp] theorem State.colls_updGrid (s : State) (u : Nat) (f : Grid → Grid) : (s.updGrid u f).colls = s.colls := rfl
@[simp] theorem State.collCount_updGrid (s : State) (u : Nat) (f : Grid → Grid) : (s.updGrid u f).collCount = s.collCount := rfl
@[simp] theorem State.collOut_updGrid (s : State) (u : Nat) (f : Grid → Grid) : (s.updGrid u f).collOut = s.collOut := rfl
@[simp] theorem State.scrim_updGrid (s : State) (u : Nat) (f : Grid → Grid) : (s.updGrid u f).scrim = s.scrim := rfl
@[simp] theorem State.cxl_updGrid (s : State) (u : Nat) (f : Grid → Grid) : (s.updGrid u f).cxl = s.cxl := rfl
@[simp] theorem State.errHead_updGrid (s : State) (u : Nat) (f : Grid → Grid) : (s.updGrid u f).errHead = s.errHead := rfl
@[simp] theorem State.errLog_updGrid (s : State) (u : Nat) (f : Grid → Grid) : (s.updGrid u f).errLog = s.errLog := rfl
@[simp] theorem State.counters_updGrid (s : State) (u : Nat) (f : Grid → Grid) : (s.updGrid u f).counters = s.counters := rfl
@[simp] theorem State.retryReads_updGrid (s : State) (u : Nat) (f : Grid → Grid) : (s.updGrid u f).retryReads = s.retryReads := rfl
@[simp] theorem State.cxlUp_updGrid (s : State) (u : Nat) (f : Grid → Grid) : (s.updGrid u f).cxlUp = s.cxlUp := rfl
@[simp] theorem State.fencedPorts_updGrid (s : State) (u : Nat) (f : Grid → Grid) : (s.updGrid u f).fencedPorts = s.fencedPorts := rfl
@[simp] theorem State.fencedLinks_updGrid (s : State) (u : Nat) (f : Grid → Grid) : (s.updGrid u f).fencedLinks = s.fencedLinks := rfl
@[simp] theorem State.collSent_updGrid (s : State) (u : Nat) (f : Grid → Grid) : (s.updGrid u f).collSent = s.collSent := rfl

/-! ### A core changed -/

@[simp] theorem State.clk_updCore (s : State) (k : Nat) (f : CoreSt → CoreSt) : (s.updCore k f).clk = s.clk := rfl
@[simp] theorem State.tick_updCore (s : State) (k : Nat) (f : CoreSt → CoreSt) : (s.updCore k f).tick = s.tick := rfl
@[simp] theorem State.agenda_updCore (s : State) (k : Nat) (f : CoreSt → CoreSt) : (s.updCore k f).agenda = s.agenda := rfl
@[simp] theorem State.issuer_updCore (s : State) (k : Nat) (f : CoreSt → CoreSt) : (s.updCore k f).issuer = s.issuer := rfl
@[simp] theorem State.arg_updCore (s : State) (k : Nat) (f : CoreSt → CoreSt) : (s.updCore k f).arg = s.arg := rfl
@[simp] theorem State.level_updCore (s : State) (k : Nat) (f : CoreSt → CoreSt) : (s.updCore k f).level = s.level := rfl
@[simp] theorem State.base_updCore (s : State) (k : Nat) (f : CoreSt → CoreSt) : (s.updCore k f).base = s.base := rfl
@[simp] theorem State.hbmUp_updCore (s : State) (k : Nat) (f : CoreSt → CoreSt) : (s.updCore k f).hbmUp = s.hbmUp := rfl
@[simp] theorem State.fencedFrames_updCore (s : State) (k : Nat) (f : CoreSt → CoreSt) : (s.updCore k f).fencedFrames = s.fencedFrames := rfl
@[simp] theorem State.fencedReducers_updCore (s : State) (k : Nat) (f : CoreSt → CoreSt) : (s.updCore k f).fencedReducers = s.fencedReducers := rfl
@[simp] theorem State.fencedWays_updCore (s : State) (k : Nat) (f : CoreSt → CoreSt) : (s.updCore k f).fencedWays = s.fencedWays := rfl
@[simp] theorem State.lath_updCore (s : State) (k : Nat) (f : CoreSt → CoreSt) : (s.updCore k f).lath = s.lath := rfl
@[simp] theorem State.flash_updCore (s : State) (k : Nat) (f : CoreSt → CoreSt) : (s.updCore k f).flash = s.flash := rfl
@[simp] theorem State.firmware_updCore (s : State) (k : Nat) (f : CoreSt → CoreSt) : (s.updCore k f).firmware = s.firmware := rfl
@[simp] theorem State.mem_updCore (s : State) (k : Nat) (f : CoreSt → CoreSt) : (s.updCore k f).mem = s.mem := rfl
@[simp] theorem State.l2Dirty_updCore (s : State) (k : Nat) (f : CoreSt → CoreSt) : (s.updCore k f).l2Dirty = s.l2Dirty := rfl
@[simp] theorem State.queues_updCore (s : State) (k : Nat) (f : CoreSt → CoreSt) : (s.updCore k f).queues = s.queues := rfl
@[simp] theorem State.prioPtr_updCore (s : State) (k : Nat) (f : CoreSt → CoreSt) : (s.updCore k f).prioPtr = s.prioPtr := rfl
@[simp] theorem State.placeP_updCore (s : State) (k : Nat) (f : CoreSt → CoreSt) : (s.updCore k f).placeP = s.placeP := rfl
@[simp] theorem State.grids_updCore (s : State) (k : Nat) (f : CoreSt → CoreSt) : (s.updCore k f).grids = s.grids := rfl
@[simp] theorem State.graphs_updCore (s : State) (k : Nat) (f : CoreSt → CoreSt) : (s.updCore k f).graphs = s.graphs := rfl
@[simp] theorem State.nextUid_updCore (s : State) (k : Nat) (f : CoreSt → CoreSt) : (s.updCore k f).nextUid = s.nextUid := rfl
@[simp] theorem State.teams_updCore (s : State) (k : Nat) (f : CoreSt → CoreSt) : (s.updCore k f).teams = s.teams := rfl
@[simp] theorem State.txw_updCore (s : State) (k : Nat) (f : CoreSt → CoreSt) : (s.updCore k f).txw = s.txw := rfl
@[simp] theorem State.rxw_updCore (s : State) (k : Nat) (f : CoreSt → CoreSt) : (s.updCore k f).rxw = s.rxw := rfl
@[simp] theorem State.route_updCore (s : State) (k : Nat) (f : CoreSt → CoreSt) : (s.updCore k f).route = s.route := rfl
@[simp] theorem State.outbox_updCore (s : State) (k : Nat) (f : CoreSt → CoreSt) : (s.updCore k f).outbox = s.outbox := rfl
@[simp] theorem State.stuck_updCore (s : State) (k : Nat) (f : CoreSt → CoreSt) : (s.updCore k f).stuck = s.stuck := rfl
@[simp] theorem State.forwarded_updCore (s : State) (k : Nat) (f : CoreSt → CoreSt) : (s.updCore k f).forwarded = s.forwarded := rfl
@[simp] theorem State.heldRefl_updCore (s : State) (k : Nat) (f : CoreSt → CoreSt) : (s.updCore k f).heldRefl = s.heldRefl := rfl
@[simp] theorem State.lockedRefl_updCore (s : State) (k : Nat) (f : CoreSt → CoreSt) : (s.updCore k f).lockedRefl = s.lockedRefl := rfl
@[simp] theorem State.undelivered_updCore (s : State) (k : Nat) (f : CoreSt → CoreSt) : (s.updCore k f).undelivered = s.undelivered := rfl
@[simp] theorem State.nextFlit_updCore (s : State) (k : Nat) (f : CoreSt → CoreSt) : (s.updCore k f).nextFlit = s.nextFlit := rfl
@[simp] theorem State.colls_updCore (s : State) (k : Nat) (f : CoreSt → CoreSt) : (s.updCore k f).colls = s.colls := rfl
@[simp] theorem State.collCount_updCore (s : State) (k : Nat) (f : CoreSt → CoreSt) : (s.updCore k f).collCount = s.collCount := rfl
@[simp] theorem State.collOut_updCore (s : State) (k : Nat) (f : CoreSt → CoreSt) : (s.updCore k f).collOut = s.collOut := rfl
@[simp] theorem State.scrim_updCore (s : State) (k : Nat) (f : CoreSt → CoreSt) : (s.updCore k f).scrim = s.scrim := rfl
@[simp] theorem State.cxl_updCore (s : State) (k : Nat) (f : CoreSt → CoreSt) : (s.updCore k f).cxl = s.cxl := rfl
@[simp] theorem State.errHead_updCore (s : State) (k : Nat) (f : CoreSt → CoreSt) : (s.updCore k f).errHead = s.errHead := rfl
@[simp] theorem State.errLog_updCore (s : State) (k : Nat) (f : CoreSt → CoreSt) : (s.updCore k f).errLog = s.errLog := rfl
@[simp] theorem State.counters_updCore (s : State) (k : Nat) (f : CoreSt → CoreSt) : (s.updCore k f).counters = s.counters := rfl
@[simp] theorem State.retryReads_updCore (s : State) (k : Nat) (f : CoreSt → CoreSt) : (s.updCore k f).retryReads = s.retryReads := rfl
@[simp] theorem State.cxlUp_updCore (s : State) (k : Nat) (f : CoreSt → CoreSt) : (s.updCore k f).cxlUp = s.cxlUp := rfl
@[simp] theorem State.fencedPorts_updCore (s : State) (k : Nat) (f : CoreSt → CoreSt) : (s.updCore k f).fencedPorts = s.fencedPorts := rfl
@[simp] theorem State.fencedLinks_updCore (s : State) (k : Nat) (f : CoreSt → CoreSt) : (s.updCore k f).fencedLinks = s.fencedLinks := rfl
@[simp] theorem State.collSent_updCore (s : State) (k : Nat) (f : CoreSt → CoreSt) : (s.updCore k f).collSent = s.collSent := rfl

/-! ### A queue changed -/

@[simp] theorem State.clk_updQueue (s : State) (q : Nat) (f : Queue → Queue) : (s.updQueue q f).clk = s.clk := rfl
@[simp] theorem State.tick_updQueue (s : State) (q : Nat) (f : Queue → Queue) : (s.updQueue q f).tick = s.tick := rfl
@[simp] theorem State.agenda_updQueue (s : State) (q : Nat) (f : Queue → Queue) : (s.updQueue q f).agenda = s.agenda := rfl
@[simp] theorem State.issuer_updQueue (s : State) (q : Nat) (f : Queue → Queue) : (s.updQueue q f).issuer = s.issuer := rfl
@[simp] theorem State.arg_updQueue (s : State) (q : Nat) (f : Queue → Queue) : (s.updQueue q f).arg = s.arg := rfl
@[simp] theorem State.level_updQueue (s : State) (q : Nat) (f : Queue → Queue) : (s.updQueue q f).level = s.level := rfl
@[simp] theorem State.base_updQueue (s : State) (q : Nat) (f : Queue → Queue) : (s.updQueue q f).base = s.base := rfl
@[simp] theorem State.hbmUp_updQueue (s : State) (q : Nat) (f : Queue → Queue) : (s.updQueue q f).hbmUp = s.hbmUp := rfl
@[simp] theorem State.fencedFrames_updQueue (s : State) (q : Nat) (f : Queue → Queue) : (s.updQueue q f).fencedFrames = s.fencedFrames := rfl
@[simp] theorem State.fencedReducers_updQueue (s : State) (q : Nat) (f : Queue → Queue) : (s.updQueue q f).fencedReducers = s.fencedReducers := rfl
@[simp] theorem State.fencedWays_updQueue (s : State) (q : Nat) (f : Queue → Queue) : (s.updQueue q f).fencedWays = s.fencedWays := rfl
@[simp] theorem State.lath_updQueue (s : State) (q : Nat) (f : Queue → Queue) : (s.updQueue q f).lath = s.lath := rfl
@[simp] theorem State.flash_updQueue (s : State) (q : Nat) (f : Queue → Queue) : (s.updQueue q f).flash = s.flash := rfl
@[simp] theorem State.firmware_updQueue (s : State) (q : Nat) (f : Queue → Queue) : (s.updQueue q f).firmware = s.firmware := rfl
@[simp] theorem State.mem_updQueue (s : State) (q : Nat) (f : Queue → Queue) : (s.updQueue q f).mem = s.mem := rfl
@[simp] theorem State.l2Dirty_updQueue (s : State) (q : Nat) (f : Queue → Queue) : (s.updQueue q f).l2Dirty = s.l2Dirty := rfl
@[simp] theorem State.prioPtr_updQueue (s : State) (q : Nat) (f : Queue → Queue) : (s.updQueue q f).prioPtr = s.prioPtr := rfl
@[simp] theorem State.placeP_updQueue (s : State) (q : Nat) (f : Queue → Queue) : (s.updQueue q f).placeP = s.placeP := rfl
@[simp] theorem State.grids_updQueue (s : State) (q : Nat) (f : Queue → Queue) : (s.updQueue q f).grids = s.grids := rfl
@[simp] theorem State.graphs_updQueue (s : State) (q : Nat) (f : Queue → Queue) : (s.updQueue q f).graphs = s.graphs := rfl
@[simp] theorem State.nextUid_updQueue (s : State) (q : Nat) (f : Queue → Queue) : (s.updQueue q f).nextUid = s.nextUid := rfl
@[simp] theorem State.teams_updQueue (s : State) (q : Nat) (f : Queue → Queue) : (s.updQueue q f).teams = s.teams := rfl
@[simp] theorem State.cores_updQueue (s : State) (q : Nat) (f : Queue → Queue) : (s.updQueue q f).cores = s.cores := rfl
@[simp] theorem State.txw_updQueue (s : State) (q : Nat) (f : Queue → Queue) : (s.updQueue q f).txw = s.txw := rfl
@[simp] theorem State.rxw_updQueue (s : State) (q : Nat) (f : Queue → Queue) : (s.updQueue q f).rxw = s.rxw := rfl
@[simp] theorem State.route_updQueue (s : State) (q : Nat) (f : Queue → Queue) : (s.updQueue q f).route = s.route := rfl
@[simp] theorem State.outbox_updQueue (s : State) (q : Nat) (f : Queue → Queue) : (s.updQueue q f).outbox = s.outbox := rfl
@[simp] theorem State.stuck_updQueue (s : State) (q : Nat) (f : Queue → Queue) : (s.updQueue q f).stuck = s.stuck := rfl
@[simp] theorem State.forwarded_updQueue (s : State) (q : Nat) (f : Queue → Queue) : (s.updQueue q f).forwarded = s.forwarded := rfl
@[simp] theorem State.heldRefl_updQueue (s : State) (q : Nat) (f : Queue → Queue) : (s.updQueue q f).heldRefl = s.heldRefl := rfl
@[simp] theorem State.lockedRefl_updQueue (s : State) (q : Nat) (f : Queue → Queue) : (s.updQueue q f).lockedRefl = s.lockedRefl := rfl
@[simp] theorem State.undelivered_updQueue (s : State) (q : Nat) (f : Queue → Queue) : (s.updQueue q f).undelivered = s.undelivered := rfl
@[simp] theorem State.nextFlit_updQueue (s : State) (q : Nat) (f : Queue → Queue) : (s.updQueue q f).nextFlit = s.nextFlit := rfl
@[simp] theorem State.colls_updQueue (s : State) (q : Nat) (f : Queue → Queue) : (s.updQueue q f).colls = s.colls := rfl
@[simp] theorem State.collCount_updQueue (s : State) (q : Nat) (f : Queue → Queue) : (s.updQueue q f).collCount = s.collCount := rfl
@[simp] theorem State.collOut_updQueue (s : State) (q : Nat) (f : Queue → Queue) : (s.updQueue q f).collOut = s.collOut := rfl
@[simp] theorem State.scrim_updQueue (s : State) (q : Nat) (f : Queue → Queue) : (s.updQueue q f).scrim = s.scrim := rfl
@[simp] theorem State.cxl_updQueue (s : State) (q : Nat) (f : Queue → Queue) : (s.updQueue q f).cxl = s.cxl := rfl
@[simp] theorem State.errHead_updQueue (s : State) (q : Nat) (f : Queue → Queue) : (s.updQueue q f).errHead = s.errHead := rfl
@[simp] theorem State.errLog_updQueue (s : State) (q : Nat) (f : Queue → Queue) : (s.updQueue q f).errLog = s.errLog := rfl
@[simp] theorem State.counters_updQueue (s : State) (q : Nat) (f : Queue → Queue) : (s.updQueue q f).counters = s.counters := rfl
@[simp] theorem State.retryReads_updQueue (s : State) (q : Nat) (f : Queue → Queue) : (s.updQueue q f).retryReads = s.retryReads := rfl
@[simp] theorem State.cxlUp_updQueue (s : State) (q : Nat) (f : Queue → Queue) : (s.updQueue q f).cxlUp = s.cxlUp := rfl
@[simp] theorem State.fencedPorts_updQueue (s : State) (q : Nat) (f : Queue → Queue) : (s.updQueue q f).fencedPorts = s.fencedPorts := rfl
@[simp] theorem State.fencedLinks_updQueue (s : State) (q : Nat) (f : Queue → Queue) : (s.updQueue q f).fencedLinks = s.fencedLinks := rfl
@[simp] theorem State.collSent_updQueue (s : State) (q : Nat) (f : Queue → Queue) : (s.updQueue q f).collSent = s.collSent := rfl

/-! ### A graph changed -/

@[simp] theorem State.clk_updGraph (s : State) (u : Nat) (f : GraphRun → GraphRun) : (s.updGraph u f).clk = s.clk := rfl
@[simp] theorem State.tick_updGraph (s : State) (u : Nat) (f : GraphRun → GraphRun) : (s.updGraph u f).tick = s.tick := rfl
@[simp] theorem State.agenda_updGraph (s : State) (u : Nat) (f : GraphRun → GraphRun) : (s.updGraph u f).agenda = s.agenda := rfl
@[simp] theorem State.issuer_updGraph (s : State) (u : Nat) (f : GraphRun → GraphRun) : (s.updGraph u f).issuer = s.issuer := rfl
@[simp] theorem State.arg_updGraph (s : State) (u : Nat) (f : GraphRun → GraphRun) : (s.updGraph u f).arg = s.arg := rfl
@[simp] theorem State.level_updGraph (s : State) (u : Nat) (f : GraphRun → GraphRun) : (s.updGraph u f).level = s.level := rfl
@[simp] theorem State.base_updGraph (s : State) (u : Nat) (f : GraphRun → GraphRun) : (s.updGraph u f).base = s.base := rfl
@[simp] theorem State.hbmUp_updGraph (s : State) (u : Nat) (f : GraphRun → GraphRun) : (s.updGraph u f).hbmUp = s.hbmUp := rfl
@[simp] theorem State.fencedFrames_updGraph (s : State) (u : Nat) (f : GraphRun → GraphRun) : (s.updGraph u f).fencedFrames = s.fencedFrames := rfl
@[simp] theorem State.fencedReducers_updGraph (s : State) (u : Nat) (f : GraphRun → GraphRun) : (s.updGraph u f).fencedReducers = s.fencedReducers := rfl
@[simp] theorem State.fencedWays_updGraph (s : State) (u : Nat) (f : GraphRun → GraphRun) : (s.updGraph u f).fencedWays = s.fencedWays := rfl
@[simp] theorem State.lath_updGraph (s : State) (u : Nat) (f : GraphRun → GraphRun) : (s.updGraph u f).lath = s.lath := rfl
@[simp] theorem State.flash_updGraph (s : State) (u : Nat) (f : GraphRun → GraphRun) : (s.updGraph u f).flash = s.flash := rfl
@[simp] theorem State.firmware_updGraph (s : State) (u : Nat) (f : GraphRun → GraphRun) : (s.updGraph u f).firmware = s.firmware := rfl
@[simp] theorem State.mem_updGraph (s : State) (u : Nat) (f : GraphRun → GraphRun) : (s.updGraph u f).mem = s.mem := rfl
@[simp] theorem State.l2Dirty_updGraph (s : State) (u : Nat) (f : GraphRun → GraphRun) : (s.updGraph u f).l2Dirty = s.l2Dirty := rfl
@[simp] theorem State.queues_updGraph (s : State) (u : Nat) (f : GraphRun → GraphRun) : (s.updGraph u f).queues = s.queues := rfl
@[simp] theorem State.prioPtr_updGraph (s : State) (u : Nat) (f : GraphRun → GraphRun) : (s.updGraph u f).prioPtr = s.prioPtr := rfl
@[simp] theorem State.placeP_updGraph (s : State) (u : Nat) (f : GraphRun → GraphRun) : (s.updGraph u f).placeP = s.placeP := rfl
@[simp] theorem State.grids_updGraph (s : State) (u : Nat) (f : GraphRun → GraphRun) : (s.updGraph u f).grids = s.grids := rfl
@[simp] theorem State.nextUid_updGraph (s : State) (u : Nat) (f : GraphRun → GraphRun) : (s.updGraph u f).nextUid = s.nextUid := rfl
@[simp] theorem State.teams_updGraph (s : State) (u : Nat) (f : GraphRun → GraphRun) : (s.updGraph u f).teams = s.teams := rfl
@[simp] theorem State.cores_updGraph (s : State) (u : Nat) (f : GraphRun → GraphRun) : (s.updGraph u f).cores = s.cores := rfl
@[simp] theorem State.txw_updGraph (s : State) (u : Nat) (f : GraphRun → GraphRun) : (s.updGraph u f).txw = s.txw := rfl
@[simp] theorem State.rxw_updGraph (s : State) (u : Nat) (f : GraphRun → GraphRun) : (s.updGraph u f).rxw = s.rxw := rfl
@[simp] theorem State.route_updGraph (s : State) (u : Nat) (f : GraphRun → GraphRun) : (s.updGraph u f).route = s.route := rfl
@[simp] theorem State.outbox_updGraph (s : State) (u : Nat) (f : GraphRun → GraphRun) : (s.updGraph u f).outbox = s.outbox := rfl
@[simp] theorem State.stuck_updGraph (s : State) (u : Nat) (f : GraphRun → GraphRun) : (s.updGraph u f).stuck = s.stuck := rfl
@[simp] theorem State.forwarded_updGraph (s : State) (u : Nat) (f : GraphRun → GraphRun) : (s.updGraph u f).forwarded = s.forwarded := rfl
@[simp] theorem State.heldRefl_updGraph (s : State) (u : Nat) (f : GraphRun → GraphRun) : (s.updGraph u f).heldRefl = s.heldRefl := rfl
@[simp] theorem State.lockedRefl_updGraph (s : State) (u : Nat) (f : GraphRun → GraphRun) : (s.updGraph u f).lockedRefl = s.lockedRefl := rfl
@[simp] theorem State.undelivered_updGraph (s : State) (u : Nat) (f : GraphRun → GraphRun) : (s.updGraph u f).undelivered = s.undelivered := rfl
@[simp] theorem State.nextFlit_updGraph (s : State) (u : Nat) (f : GraphRun → GraphRun) : (s.updGraph u f).nextFlit = s.nextFlit := rfl
@[simp] theorem State.colls_updGraph (s : State) (u : Nat) (f : GraphRun → GraphRun) : (s.updGraph u f).colls = s.colls := rfl
@[simp] theorem State.collCount_updGraph (s : State) (u : Nat) (f : GraphRun → GraphRun) : (s.updGraph u f).collCount = s.collCount := rfl
@[simp] theorem State.collOut_updGraph (s : State) (u : Nat) (f : GraphRun → GraphRun) : (s.updGraph u f).collOut = s.collOut := rfl
@[simp] theorem State.scrim_updGraph (s : State) (u : Nat) (f : GraphRun → GraphRun) : (s.updGraph u f).scrim = s.scrim := rfl
@[simp] theorem State.cxl_updGraph (s : State) (u : Nat) (f : GraphRun → GraphRun) : (s.updGraph u f).cxl = s.cxl := rfl
@[simp] theorem State.errHead_updGraph (s : State) (u : Nat) (f : GraphRun → GraphRun) : (s.updGraph u f).errHead = s.errHead := rfl
@[simp] theorem State.errLog_updGraph (s : State) (u : Nat) (f : GraphRun → GraphRun) : (s.updGraph u f).errLog = s.errLog := rfl
@[simp] theorem State.counters_updGraph (s : State) (u : Nat) (f : GraphRun → GraphRun) : (s.updGraph u f).counters = s.counters := rfl
@[simp] theorem State.retryReads_updGraph (s : State) (u : Nat) (f : GraphRun → GraphRun) : (s.updGraph u f).retryReads = s.retryReads := rfl
@[simp] theorem State.cxlUp_updGraph (s : State) (u : Nat) (f : GraphRun → GraphRun) : (s.updGraph u f).cxlUp = s.cxlUp := rfl
@[simp] theorem State.fencedPorts_updGraph (s : State) (u : Nat) (f : GraphRun → GraphRun) : (s.updGraph u f).fencedPorts = s.fencedPorts := rfl
@[simp] theorem State.fencedLinks_updGraph (s : State) (u : Nat) (f : GraphRun → GraphRun) : (s.updGraph u f).fencedLinks = s.fencedLinks := rfl
@[simp] theorem State.collSent_updGraph (s : State) (u : Nat) (f : GraphRun → GraphRun) : (s.updGraph u f).collSent = s.collSent := rfl

/-! ### A collective changed -/

@[simp] theorem State.clk_updColl (s : State) (i n : Nat) (f : Coll → Coll) : (s.updColl i n f).clk = s.clk := rfl
@[simp] theorem State.tick_updColl (s : State) (i n : Nat) (f : Coll → Coll) : (s.updColl i n f).tick = s.tick := rfl
@[simp] theorem State.agenda_updColl (s : State) (i n : Nat) (f : Coll → Coll) : (s.updColl i n f).agenda = s.agenda := rfl
@[simp] theorem State.issuer_updColl (s : State) (i n : Nat) (f : Coll → Coll) : (s.updColl i n f).issuer = s.issuer := rfl
@[simp] theorem State.arg_updColl (s : State) (i n : Nat) (f : Coll → Coll) : (s.updColl i n f).arg = s.arg := rfl
@[simp] theorem State.level_updColl (s : State) (i n : Nat) (f : Coll → Coll) : (s.updColl i n f).level = s.level := rfl
@[simp] theorem State.base_updColl (s : State) (i n : Nat) (f : Coll → Coll) : (s.updColl i n f).base = s.base := rfl
@[simp] theorem State.hbmUp_updColl (s : State) (i n : Nat) (f : Coll → Coll) : (s.updColl i n f).hbmUp = s.hbmUp := rfl
@[simp] theorem State.fencedFrames_updColl (s : State) (i n : Nat) (f : Coll → Coll) : (s.updColl i n f).fencedFrames = s.fencedFrames := rfl
@[simp] theorem State.fencedReducers_updColl (s : State) (i n : Nat) (f : Coll → Coll) : (s.updColl i n f).fencedReducers = s.fencedReducers := rfl
@[simp] theorem State.fencedWays_updColl (s : State) (i n : Nat) (f : Coll → Coll) : (s.updColl i n f).fencedWays = s.fencedWays := rfl
@[simp] theorem State.lath_updColl (s : State) (i n : Nat) (f : Coll → Coll) : (s.updColl i n f).lath = s.lath := rfl
@[simp] theorem State.flash_updColl (s : State) (i n : Nat) (f : Coll → Coll) : (s.updColl i n f).flash = s.flash := rfl
@[simp] theorem State.firmware_updColl (s : State) (i n : Nat) (f : Coll → Coll) : (s.updColl i n f).firmware = s.firmware := rfl
@[simp] theorem State.mem_updColl (s : State) (i n : Nat) (f : Coll → Coll) : (s.updColl i n f).mem = s.mem := rfl
@[simp] theorem State.l2Dirty_updColl (s : State) (i n : Nat) (f : Coll → Coll) : (s.updColl i n f).l2Dirty = s.l2Dirty := rfl
@[simp] theorem State.queues_updColl (s : State) (i n : Nat) (f : Coll → Coll) : (s.updColl i n f).queues = s.queues := rfl
@[simp] theorem State.prioPtr_updColl (s : State) (i n : Nat) (f : Coll → Coll) : (s.updColl i n f).prioPtr = s.prioPtr := rfl
@[simp] theorem State.placeP_updColl (s : State) (i n : Nat) (f : Coll → Coll) : (s.updColl i n f).placeP = s.placeP := rfl
@[simp] theorem State.grids_updColl (s : State) (i n : Nat) (f : Coll → Coll) : (s.updColl i n f).grids = s.grids := rfl
@[simp] theorem State.graphs_updColl (s : State) (i n : Nat) (f : Coll → Coll) : (s.updColl i n f).graphs = s.graphs := rfl
@[simp] theorem State.nextUid_updColl (s : State) (i n : Nat) (f : Coll → Coll) : (s.updColl i n f).nextUid = s.nextUid := rfl
@[simp] theorem State.teams_updColl (s : State) (i n : Nat) (f : Coll → Coll) : (s.updColl i n f).teams = s.teams := rfl
@[simp] theorem State.cores_updColl (s : State) (i n : Nat) (f : Coll → Coll) : (s.updColl i n f).cores = s.cores := rfl
@[simp] theorem State.txw_updColl (s : State) (i n : Nat) (f : Coll → Coll) : (s.updColl i n f).txw = s.txw := rfl
@[simp] theorem State.rxw_updColl (s : State) (i n : Nat) (f : Coll → Coll) : (s.updColl i n f).rxw = s.rxw := rfl
@[simp] theorem State.route_updColl (s : State) (i n : Nat) (f : Coll → Coll) : (s.updColl i n f).route = s.route := rfl
@[simp] theorem State.outbox_updColl (s : State) (i n : Nat) (f : Coll → Coll) : (s.updColl i n f).outbox = s.outbox := rfl
@[simp] theorem State.stuck_updColl (s : State) (i n : Nat) (f : Coll → Coll) : (s.updColl i n f).stuck = s.stuck := rfl
@[simp] theorem State.forwarded_updColl (s : State) (i n : Nat) (f : Coll → Coll) : (s.updColl i n f).forwarded = s.forwarded := rfl
@[simp] theorem State.heldRefl_updColl (s : State) (i n : Nat) (f : Coll → Coll) : (s.updColl i n f).heldRefl = s.heldRefl := rfl
@[simp] theorem State.lockedRefl_updColl (s : State) (i n : Nat) (f : Coll → Coll) : (s.updColl i n f).lockedRefl = s.lockedRefl := rfl
@[simp] theorem State.undelivered_updColl (s : State) (i n : Nat) (f : Coll → Coll) : (s.updColl i n f).undelivered = s.undelivered := rfl
@[simp] theorem State.nextFlit_updColl (s : State) (i n : Nat) (f : Coll → Coll) : (s.updColl i n f).nextFlit = s.nextFlit := rfl
@[simp] theorem State.collCount_updColl (s : State) (i n : Nat) (f : Coll → Coll) : (s.updColl i n f).collCount = s.collCount := rfl
@[simp] theorem State.collOut_updColl (s : State) (i n : Nat) (f : Coll → Coll) : (s.updColl i n f).collOut = s.collOut := rfl
@[simp] theorem State.scrim_updColl (s : State) (i n : Nat) (f : Coll → Coll) : (s.updColl i n f).scrim = s.scrim := rfl
@[simp] theorem State.cxl_updColl (s : State) (i n : Nat) (f : Coll → Coll) : (s.updColl i n f).cxl = s.cxl := rfl
@[simp] theorem State.errHead_updColl (s : State) (i n : Nat) (f : Coll → Coll) : (s.updColl i n f).errHead = s.errHead := rfl
@[simp] theorem State.errLog_updColl (s : State) (i n : Nat) (f : Coll → Coll) : (s.updColl i n f).errLog = s.errLog := rfl
@[simp] theorem State.counters_updColl (s : State) (i n : Nat) (f : Coll → Coll) : (s.updColl i n f).counters = s.counters := rfl
@[simp] theorem State.retryReads_updColl (s : State) (i n : Nat) (f : Coll → Coll) : (s.updColl i n f).retryReads = s.retryReads := rfl
@[simp] theorem State.cxlUp_updColl (s : State) (i n : Nat) (f : Coll → Coll) : (s.updColl i n f).cxlUp = s.cxlUp := rfl
@[simp] theorem State.fencedPorts_updColl (s : State) (i n : Nat) (f : Coll → Coll) : (s.updColl i n f).fencedPorts = s.fencedPorts := rfl
@[simp] theorem State.fencedLinks_updColl (s : State) (i n : Nat) (f : Coll → Coll) : (s.updColl i n f).fencedLinks = s.fencedLinks := rfl
@[simp] theorem State.collSent_updColl (s : State) (i n : Nat) (f : Coll → Coll) : (s.updColl i n f).collSent = s.collSent := rfl

/-! ### A byte written at its home L2 -/

@[simp] theorem State.clk_l2Write (s : State) (a : Nat) (v : Byte) : (l2Write s a v).clk = s.clk := rfl
@[simp] theorem State.tick_l2Write (s : State) (a : Nat) (v : Byte) : (l2Write s a v).tick = s.tick := rfl
@[simp] theorem State.agenda_l2Write (s : State) (a : Nat) (v : Byte) : (l2Write s a v).agenda = s.agenda := rfl
@[simp] theorem State.issuer_l2Write (s : State) (a : Nat) (v : Byte) : (l2Write s a v).issuer = s.issuer := rfl
@[simp] theorem State.arg_l2Write (s : State) (a : Nat) (v : Byte) : (l2Write s a v).arg = s.arg := rfl
@[simp] theorem State.level_l2Write (s : State) (a : Nat) (v : Byte) : (l2Write s a v).level = s.level := rfl
@[simp] theorem State.base_l2Write (s : State) (a : Nat) (v : Byte) : (l2Write s a v).base = s.base := rfl
@[simp] theorem State.hbmUp_l2Write (s : State) (a : Nat) (v : Byte) : (l2Write s a v).hbmUp = s.hbmUp := rfl
@[simp] theorem State.fencedFrames_l2Write (s : State) (a : Nat) (v : Byte) : (l2Write s a v).fencedFrames = s.fencedFrames := rfl
@[simp] theorem State.fencedReducers_l2Write (s : State) (a : Nat) (v : Byte) : (l2Write s a v).fencedReducers = s.fencedReducers := rfl
@[simp] theorem State.fencedWays_l2Write (s : State) (a : Nat) (v : Byte) : (l2Write s a v).fencedWays = s.fencedWays := rfl
@[simp] theorem State.lath_l2Write (s : State) (a : Nat) (v : Byte) : (l2Write s a v).lath = s.lath := rfl
@[simp] theorem State.flash_l2Write (s : State) (a : Nat) (v : Byte) : (l2Write s a v).flash = s.flash := rfl
@[simp] theorem State.firmware_l2Write (s : State) (a : Nat) (v : Byte) : (l2Write s a v).firmware = s.firmware := rfl
@[simp] theorem State.queues_l2Write (s : State) (a : Nat) (v : Byte) : (l2Write s a v).queues = s.queues := rfl
@[simp] theorem State.prioPtr_l2Write (s : State) (a : Nat) (v : Byte) : (l2Write s a v).prioPtr = s.prioPtr := rfl
@[simp] theorem State.placeP_l2Write (s : State) (a : Nat) (v : Byte) : (l2Write s a v).placeP = s.placeP := rfl
@[simp] theorem State.grids_l2Write (s : State) (a : Nat) (v : Byte) : (l2Write s a v).grids = s.grids := rfl
@[simp] theorem State.graphs_l2Write (s : State) (a : Nat) (v : Byte) : (l2Write s a v).graphs = s.graphs := rfl
@[simp] theorem State.nextUid_l2Write (s : State) (a : Nat) (v : Byte) : (l2Write s a v).nextUid = s.nextUid := rfl
@[simp] theorem State.cores_l2Write (s : State) (a : Nat) (v : Byte) : (l2Write s a v).cores = s.cores := rfl
@[simp] theorem State.txw_l2Write (s : State) (a : Nat) (v : Byte) : (l2Write s a v).txw = s.txw := rfl
@[simp] theorem State.rxw_l2Write (s : State) (a : Nat) (v : Byte) : (l2Write s a v).rxw = s.rxw := rfl
@[simp] theorem State.route_l2Write (s : State) (a : Nat) (v : Byte) : (l2Write s a v).route = s.route := rfl
@[simp] theorem State.outbox_l2Write (s : State) (a : Nat) (v : Byte) : (l2Write s a v).outbox = s.outbox := rfl
@[simp] theorem State.stuck_l2Write (s : State) (a : Nat) (v : Byte) : (l2Write s a v).stuck = s.stuck := rfl
@[simp] theorem State.forwarded_l2Write (s : State) (a : Nat) (v : Byte) : (l2Write s a v).forwarded = s.forwarded := rfl
@[simp] theorem State.heldRefl_l2Write (s : State) (a : Nat) (v : Byte) : (l2Write s a v).heldRefl = s.heldRefl := rfl
@[simp] theorem State.lockedRefl_l2Write (s : State) (a : Nat) (v : Byte) : (l2Write s a v).lockedRefl = s.lockedRefl := rfl
@[simp] theorem State.undelivered_l2Write (s : State) (a : Nat) (v : Byte) : (l2Write s a v).undelivered = s.undelivered := rfl
@[simp] theorem State.nextFlit_l2Write (s : State) (a : Nat) (v : Byte) : (l2Write s a v).nextFlit = s.nextFlit := rfl
@[simp] theorem State.colls_l2Write (s : State) (a : Nat) (v : Byte) : (l2Write s a v).colls = s.colls := rfl
@[simp] theorem State.collCount_l2Write (s : State) (a : Nat) (v : Byte) : (l2Write s a v).collCount = s.collCount := rfl
@[simp] theorem State.collOut_l2Write (s : State) (a : Nat) (v : Byte) : (l2Write s a v).collOut = s.collOut := rfl
@[simp] theorem State.scrim_l2Write (s : State) (a : Nat) (v : Byte) : (l2Write s a v).scrim = s.scrim := rfl
@[simp] theorem State.cxl_l2Write (s : State) (a : Nat) (v : Byte) : (l2Write s a v).cxl = s.cxl := rfl
@[simp] theorem State.errHead_l2Write (s : State) (a : Nat) (v : Byte) : (l2Write s a v).errHead = s.errHead := rfl
@[simp] theorem State.errLog_l2Write (s : State) (a : Nat) (v : Byte) : (l2Write s a v).errLog = s.errLog := rfl
@[simp] theorem State.counters_l2Write (s : State) (a : Nat) (v : Byte) : (l2Write s a v).counters = s.counters := rfl
@[simp] theorem State.retryReads_l2Write (s : State) (a : Nat) (v : Byte) : (l2Write s a v).retryReads = s.retryReads := rfl
@[simp] theorem State.cxlUp_l2Write (s : State) (a : Nat) (v : Byte) : (l2Write s a v).cxlUp = s.cxlUp := rfl
@[simp] theorem State.fencedPorts_l2Write (s : State) (a : Nat) (v : Byte) : (l2Write s a v).fencedPorts = s.fencedPorts := rfl
@[simp] theorem State.fencedLinks_l2Write (s : State) (a : Nat) (v : Byte) : (l2Write s a v).fencedLinks = s.fencedLinks := rfl
@[simp] theorem State.collSent_l2Write (s : State) (a : Nat) (v : Byte) : (l2Write s a v).collSent = s.collSent := rfl

/-! ### A group of a team changed -/

@[simp] theorem Team.grid_updGroup (t : Team) (k : Nat) (f : Group → Group) : (t.updGroup k f).grid = t.grid := rfl
@[simp] theorem Team.teamid_updGroup (t : Team) (k : Nat) (f : Group → Group) : (t.updGroup k f).teamid = t.teamid := rfl
@[simp] theorem Team.core_updGroup (t : Team) (k : Nat) (f : Group → Group) : (t.updGroup k f).core = t.core := rfl
@[simp] theorem Team.barriers_updGroup (t : Team) (k : Nat) (f : Group → Group) : (t.updGroup k f).barriers = t.barriers := rfl
@[simp] theorem Team.pools_updGroup (t : Team) (k : Nat) (f : Group → Group) : (t.updGroup k f).pools = t.pools := rfl
@[simp] theorem Team.hodch_updGroup (t : Team) (k : Nat) (f : Group → Group) : (t.updGroup k f).hodch = t.hodch := rfl
@[simp] theorem Team.hods_updGroup (t : Team) (k : Nat) (f : Group → Group) : (t.updGroup k f).hods = t.hods := rfl
@[simp] theorem Team.beads_updGroup (t : Team) (k : Nat) (f : Group → Group) : (t.updGroup k f).beads = t.beads := rfl
@[simp] theorem Team.macros_updGroup (t : Team) (k : Nat) (f : Group → Group) : (t.updGroup k f).macros = t.macros := rfl
@[simp] theorem Team.lac_updGroup (t : Team) (k : Nat) (f : Group → Group) : (t.updGroup k f).lac = t.lac := rfl
@[simp] theorem Team.mregs_updGroup (t : Team) (k : Nat) (f : Group → Group) : (t.updGroup k f).mregs = t.mregs := rfl
@[simp] theorem Team.hawk_updGroup (t : Team) (k : Nat) (f : Group → Group) : (t.updGroup k f).hawk = t.hawk := rfl
@[simp] theorem Team.hawkFull_updGroup (t : Team) (k : Nat) (f : Group → Group) : (t.updGroup k f).hawkFull = t.hawkFull := rfl
@[simp] theorem Team.column_updGroup (t : Team) (k : Nat) (f : Group → Group) : (t.updGroup k f).column = t.column := rfl
@[simp] theorem Team.colFull_updGroup (t : Team) (k : Nat) (f : Group → Group) : (t.updGroup k f).colFull = t.colFull := rfl
@[simp] theorem Team.trowel_updGroup (t : Team) (k : Nat) (f : Group → Group) : (t.updGroup k f).trowel = t.trowel := rfl
@[simp] theorem Team.snaps_updGroup (t : Team) (k : Nat) (f : Group → Group) : (t.updGroup k f).snaps = t.snaps := rfl
@[simp] theorem Team.ending_updGroup (t : Team) (k : Nat) (f : Group → Group) : (t.updGroup k f).ending = t.ending := rfl
@[simp] theorem Team.endClk_updGroup (t : Team) (k : Nat) (f : Group → Group) : (t.updGroup k f).endClk = t.endClk := rfl
@[simp] theorem Team.ringLow_updGroup (t : Team) (k : Nat) (f : Group → Group) : (t.updGroup k f).ringLow = t.ringLow := rfl
@[simp] theorem Team.ringHigh_updGroup (t : Team) (k : Nat) (f : Group → Group) : (t.updGroup k f).ringHigh = t.ringHigh := rfl
@[simp] theorem Team.started_updGroup (t : Team) (k : Nat) (f : Group → Group) : (t.updGroup k f).started = t.started := rfl
@[simp] theorem Team.lastClaims_updGroup (t : Team) (k : Nat) (f : Group → Group) : (t.updGroup k f).lastClaims = t.lastClaims := rfl
@[simp] theorem Team.colBase_updGroup (t : Team) (k : Nat) (f : Group → Group) : (t.updGroup k f).colBase = t.colBase := rfl

/-! ### Slices of a group changed -/

@[simp] theorem Group.gid_updSlices (g : Group) (l : List Nat) (f : Slice → Slice) : (g.updSlices l f).gid = g.gid := rfl
@[simp] theorem Group.role_updSlices (g : Group) (l : List Nat) (f : Slice → Slice) : (g.updSlices l f).role = g.role := rfl
@[simp] theorem Group.regbud_updSlices (g : Group) (l : List Nat) (f : Slice → Slice) : (g.updSlices l f).regbud = g.regbud := rfl
@[simp] theorem Group.vbud_updSlices (g : Group) (l : List Nat) (f : Slice → Slice) : (g.updSlices l f).vbud = g.vbud := rfl
@[simp] theorem Group.sibling_updSlices (g : Group) (l : List Nat) (f : Slice → Slice) : (g.updSlices l f).sibling = g.sibling := rfl
@[simp] theorem Group.e_updSlices (g : Group) (l : List Nat) (f : Slice → Slice) : (g.updSlices l f).e = g.e := rfl
@[simp] theorem Group.spawned_updSlices (g : Group) (l : List Nat) (f : Slice → Slice) : (g.updSlices l f).spawned = g.spawned := rfl
@[simp] theorem Group.spill_updSlices (g : Group) (l : List Nat) (f : Slice → Slice) : (g.updSlices l f).spill = g.spill := rfl
@[simp] theorem Group.members_updSlices (g : Group) (l : List Nat) (f : Slice → Slice) : (g.updSlices l f).members = g.members := rfl
@[simp] theorem Group.regs_updSlices (g : Group) (l : List Nat) (f : Slice → Slice) : (g.updSlices l f).regs = g.regs := rfl
@[simp] theorem Group.pend_updSlices (g : Group) (l : List Nat) (f : Slice → Slice) : (g.updSlices l f).pend = g.pend := rfl
@[simp] theorem Group.xbind_updSlices (g : Group) (l : List Nat) (f : Slice → Slice) : (g.updSlices l f).xbind = g.xbind := rfl
@[simp] theorem Group.resv_updSlices (g : Group) (l : List Nat) (f : Slice → Slice) : (g.updSlices l f).resv = g.resv := rfl
@[simp] theorem Group.arrivals_updSlices (g : Group) (l : List Nat) (f : Slice → Slice) : (g.updSlices l f).arrivals = g.arrivals := rfl
@[simp] theorem Group.privileged_updSlices (g : Group) (l : List Nat) (f : Slice → Slice) : (g.updSlices l f).privileged = g.privileged := rfl
@[simp] theorem Group.saved_updSlices (g : Group) (l : List Nat) (f : Slice → Slice) : (g.updSlices l f).saved = g.saved := rfl
@[simp] theorem Group.trapctx_updSlices (g : Group) (l : List Nat) (f : Slice → Slice) : (g.updSlices l f).trapctx = g.trapctx := rfl
@[simp] theorem Group.held_updSlices (g : Group) (l : List Nat) (f : Slice → Slice) : (g.updSlices l f).held = g.held := rfl
@[simp] theorem Group.reassigned_updSlices (g : Group) (l : List Nat) (f : Slice → Slice) : (g.updSlices l f).reassigned = g.reassigned := rfl
@[simp] theorem Group.mac_updSlices (g : Group) (l : List Nat) (f : Slice → Slice) : (g.updSlices l f).mac = g.mac := rfl
@[simp] theorem Group.ended_updSlices (g : Group) (l : List Nat) (f : Slice → Slice) : (g.updSlices l f).ended = g.ended := rfl
@[simp] theorem Group.endCause_updSlices (g : Group) (l : List Nat) (f : Slice → Slice) : (g.updSlices l f).endCause = g.endCause := rfl
@[simp] theorem Group.endClk_updSlices (g : Group) (l : List Nat) (f : Slice → Slice) : (g.updSlices l f).endClk = g.endClk := rfl
@[simp] theorem Group.startRole_updSlices (g : Group) (l : List Nat) (f : Slice → Slice) : (g.updSlices l f).startRole = g.startRole := rfl

/-! ### Writes of a group completed -/

@[simp] theorem Group.gid_commit (g : Group) : (g.commit).gid = g.gid := rfl
@[simp] theorem Group.role_commit (g : Group) : (g.commit).role = g.role := rfl
@[simp] theorem Group.regbud_commit (g : Group) : (g.commit).regbud = g.regbud := rfl
@[simp] theorem Group.vbud_commit (g : Group) : (g.commit).vbud = g.vbud := rfl
@[simp] theorem Group.sibling_commit (g : Group) : (g.commit).sibling = g.sibling := rfl
@[simp] theorem Group.e_commit (g : Group) : (g.commit).e = g.e := rfl
@[simp] theorem Group.spawned_commit (g : Group) : (g.commit).spawned = g.spawned := rfl
@[simp] theorem Group.spill_commit (g : Group) : (g.commit).spill = g.spill := rfl
@[simp] theorem Group.members_commit (g : Group) : (g.commit).members = g.members := rfl
@[simp] theorem Group.xbind_commit (g : Group) : (g.commit).xbind = g.xbind := rfl
@[simp] theorem Group.resv_commit (g : Group) : (g.commit).resv = g.resv := rfl
@[simp] theorem Group.slices_commit (g : Group) : (g.commit).slices = g.slices := rfl
@[simp] theorem Group.arrivals_commit (g : Group) : (g.commit).arrivals = g.arrivals := rfl
@[simp] theorem Group.privileged_commit (g : Group) : (g.commit).privileged = g.privileged := rfl
@[simp] theorem Group.saved_commit (g : Group) : (g.commit).saved = g.saved := rfl
@[simp] theorem Group.trapctx_commit (g : Group) : (g.commit).trapctx = g.trapctx := rfl
@[simp] theorem Group.held_commit (g : Group) : (g.commit).held = g.held := rfl
@[simp] theorem Group.reassigned_commit (g : Group) : (g.commit).reassigned = g.reassigned := rfl
@[simp] theorem Group.mac_commit (g : Group) : (g.commit).mac = g.mac := rfl
@[simp] theorem Group.ended_commit (g : Group) : (g.commit).ended = g.ended := rfl
@[simp] theorem Group.endCause_commit (g : Group) : (g.commit).endCause = g.endCause := rfl
@[simp] theorem Group.endClk_commit (g : Group) : (g.commit).endClk = g.endClk := rfl
@[simp] theorem Group.startRole_commit (g : Group) : (g.commit).startRole = g.startRole := rfl

/-! ### A drain boundary -/

@[simp] theorem Group.gid_drain (g : Group) (m : BitVec 8) : (g.drain m).gid = g.gid := rfl
@[simp] theorem Group.role_drain (g : Group) (m : BitVec 8) : (g.drain m).role = g.role := rfl
@[simp] theorem Group.regbud_drain (g : Group) (m : BitVec 8) : (g.drain m).regbud = g.regbud := rfl
@[simp] theorem Group.vbud_drain (g : Group) (m : BitVec 8) : (g.drain m).vbud = g.vbud := rfl
@[simp] theorem Group.sibling_drain (g : Group) (m : BitVec 8) : (g.drain m).sibling = g.sibling := rfl
@[simp] theorem Group.e_drain (g : Group) (m : BitVec 8) : (g.drain m).e = g.e := rfl
@[simp] theorem Group.spawned_drain (g : Group) (m : BitVec 8) : (g.drain m).spawned = g.spawned := rfl
@[simp] theorem Group.spill_drain (g : Group) (m : BitVec 8) : (g.drain m).spill = g.spill := rfl
@[simp] theorem Group.members_drain (g : Group) (m : BitVec 8) : (g.drain m).members = g.members := rfl
@[simp] theorem Group.xbind_drain (g : Group) (m : BitVec 8) : (g.drain m).xbind = g.xbind := rfl
@[simp] theorem Group.resv_drain (g : Group) (m : BitVec 8) : (g.drain m).resv = g.resv := rfl
@[simp] theorem Group.slices_drain (g : Group) (m : BitVec 8) : (g.drain m).slices = g.slices := rfl
@[simp] theorem Group.arrivals_drain (g : Group) (m : BitVec 8) : (g.drain m).arrivals = g.arrivals := rfl
@[simp] theorem Group.privileged_drain (g : Group) (m : BitVec 8) : (g.drain m).privileged = g.privileged := rfl
@[simp] theorem Group.saved_drain (g : Group) (m : BitVec 8) : (g.drain m).saved = g.saved := rfl
@[simp] theorem Group.trapctx_drain (g : Group) (m : BitVec 8) : (g.drain m).trapctx = g.trapctx := rfl
@[simp] theorem Group.held_drain (g : Group) (m : BitVec 8) : (g.drain m).held = g.held := rfl
@[simp] theorem Group.reassigned_drain (g : Group) (m : BitVec 8) : (g.drain m).reassigned = g.reassigned := rfl
@[simp] theorem Group.mac_drain (g : Group) (m : BitVec 8) : (g.drain m).mac = g.mac := rfl
@[simp] theorem Group.ended_drain (g : Group) (m : BitVec 8) : (g.drain m).ended = g.ended := rfl
@[simp] theorem Group.endCause_drain (g : Group) (m : BitVec 8) : (g.drain m).endCause = g.endCause := rfl
@[simp] theorem Group.endClk_drain (g : Group) (m : BitVec 8) : (g.drain m).endClk = g.endClk := rfl
@[simp] theorem Group.startRole_drain (g : Group) (m : BitVec 8) : (g.drain m).startRole = g.startRole := rfl

/-! ### A slice goes to the next word -/

@[simp] theorem Slice.active_advance (x : Slice) (n : Nat) : (x.advance n).active = x.active := rfl
@[simp] theorem Slice.exited_advance (x : Slice) (n : Nat) : (x.advance n).exited = x.exited := rfl
@[simp] theorem Slice.stack_advance (x : Slice) (n : Nat) : (x.advance n).stack = x.stack := rfl
@[simp] theorem Slice.spilled_advance (x : Slice) (n : Nat) : (x.advance n).spilled = x.spilled := rfl
@[simp] theorem Slice.gang_advance (x : Slice) (n : Nat) : (x.advance n).gang = x.gang := rfl
@[simp] theorem Slice.park_advance (x : Slice) (n : Nat) : (x.advance n).park = x.park := rfl

/-! ### A slice goes elsewhere -/

@[simp] theorem Slice.active_goTo (x : Slice) (n : Nat) (a : VAddr) : (x.goTo n a).active = x.active := rfl
@[simp] theorem Slice.exited_goTo (x : Slice) (n : Nat) (a : VAddr) : (x.goTo n a).exited = x.exited := rfl
@[simp] theorem Slice.stack_goTo (x : Slice) (n : Nat) (a : VAddr) : (x.goTo n a).stack = x.stack := rfl
@[simp] theorem Slice.spilled_goTo (x : Slice) (n : Nat) (a : VAddr) : (x.goTo n a).spilled = x.spilled := rfl
@[simp] theorem Slice.gang_goTo (x : Slice) (n : Nat) (a : VAddr) : (x.goTo n a).gang = x.gang := rfl
@[simp] theorem Slice.park_goTo (x : Slice) (n : Nat) (a : VAddr) : (x.goTo n a).park = x.park := rfl

/-! ### The hints of a slice used -/

@[simp] theorem Slice.pc_unbind (x : Slice) : (x.unbind).pc = x.pc := rfl
@[simp] theorem Slice.active_unbind (x : Slice) : (x.unbind).active = x.active := rfl
@[simp] theorem Slice.exited_unbind (x : Slice) : (x.unbind).exited = x.exited := rfl
@[simp] theorem Slice.stack_unbind (x : Slice) : (x.unbind).stack = x.stack := rfl
@[simp] theorem Slice.spilled_unbind (x : Slice) : (x.unbind).spilled = x.spilled := rfl
@[simp] theorem Slice.stall_unbind (x : Slice) : (x.unbind).stall = x.stall := rfl
@[simp] theorem Slice.guardWin_unbind (x : Slice) : (x.unbind).guardWin = x.guardWin := rfl
@[simp] theorem Slice.step_unbind (x : Slice) : (x.unbind).step = x.step := rfl
@[simp] theorem Slice.gang_unbind (x : Slice) : (x.unbind).gang = x.gang := rfl
@[simp] theorem Slice.park_unbind (x : Slice) : (x.unbind).park = x.park := rfl
@[simp] theorem Slice.progress_unbind (x : Slice) : (x.unbind).progress = x.progress := rfl
@[simp] theorem Slice.wait_unbind (x : Slice) : (x.unbind).wait = x.wait := rfl
@[simp] theorem Slice.redo_unbind (x : Slice) : (x.unbind).redo = x.redo := rfl

end Sys2Proof.Machine
end

