-- ==== Sys2Proof/Laws/Group.lean ====
section
/-! SUPPORT. What the shared operations on a group's registers and slices do: committing completed writes changes no value,
entered writes are seen in program order, and finding a team or a group after an update. -/

namespace Sys2Proof.Machine

/-! ## Finding what an update has changed -/

/-- Finding by a key that the update keeps finds the updated element. -/
theorem find_map_upd {α : Type} (l : List α) (key : α → Nat) (k : Nat) (f : α → α) (hf : ∀ x, key (f x) = key x) (n : Nat) :
    (l.map fun x => if key x = k then f x else x).find? (fun x => decide (key x = n)) =
      (l.find? fun x => decide (key x = n)).map fun x => if n = k then f x else x := by
  induction l with
  | nil => rfl
  | cons x rest ih =>
    have hx : key (if key x = k then f x else x) = key x := by split <;> simp [hf]
    rw [List.map_cons, List.find?_cons, List.find?_cons, hx]
    by_cases hn : key x = n
    · simp [hn]
    · simpa [hn] using ih

theorem State.team?_updTeam (s : State) (uid n : Nat) (f : Team → Team) (hf : ∀ t, (f t).uid = t.uid) :
    (s.updTeam uid f).team? n = (s.team? n).map fun t => if n = uid then f t else t := by
  simpa [State.team?, State.updTeam] using find_map_upd s.teams Team.uid uid f hf n

theorem Team.group?_updGroup (t : Team) (gid n : Nat) (f : Group → Group) (hf : ∀ g, (f g).gid = g.gid) :
    (t.updGroup gid f).group? n = (t.group? n).map fun g => if n = gid then f g else g := by
  simpa [Team.group?, Team.updGroup] using find_map_upd t.groups Group.gid gid f hf n

@[simp] theorem Team.updGroup_uid (t : Team) (gid : Nat) (f : Group → Group) : (t.updGroup gid f).uid = t.uid := rfl

/-- A group after one group has been changed. -/
theorem groupAt_updGroup (s : State) (uid gid n m : Nat) (f : Group → Group) (hf : ∀ g, (f g).gid = g.gid) :
    groupAt (s.updGroup uid gid f) n m = (groupAt s n m).map fun g => if n = uid ∧ m = gid then f g else g := by
  simp only [groupAt, State.updGroup]
  rw [State.team?_updTeam _ _ _ _ (by simp)]
  cases h : s.team? n with
  | none => simp
  | some t =>
    by_cases hn : n = uid
    · simp [hn, Team.group?_updGroup _ _ _ _ hf]
    · simp [hn]

theorem State.updTeam_updTeam (s : State) (u : Nat) (f g : Team → Team) (hf : ∀ t, (f t).uid = t.uid) :
    (s.updTeam u f).updTeam u g = s.updTeam u fun t => g (f t) := by
  simp only [State.updTeam, List.map_map]
  congr 1
  apply List.map_congr_left
  intro t _
  by_cases h : t.uid = u <;> simp [h, hf]

theorem Team.updGroup_updGroup (t : Team) (k : Nat) (f g : Group → Group) (hf : ∀ x, (f x).gid = x.gid) :
    (t.updGroup k f).updGroup k g = t.updGroup k fun x => g (f x) := by
  simp only [Team.updGroup, List.map_map]
  congr 1
  apply List.map_congr_left
  intro x _
  by_cases h : x.gid = k <;> simp [h, hf]

/-- Two changes of one group are one. -/
theorem State.updGroup_updGroup (s : State) (u k : Nat) (f g : Group → Group) (hf : ∀ x, (f x).gid = x.gid) :
    (s.updGroup u k f).updGroup u k g = s.updGroup u k fun x => g (f x) := by
  simp only [State.updGroup]
  rw [State.updTeam_updTeam _ _ _ _ (by simp)]
  simp [Team.updGroup_updGroup _ _ _ _ hf]

/-! ## Register cells -/

theorem regGet_regSet (m : List (Loc × Word)) (r q : Loc) (v : Word) :
    regGet (regSet m r v) q = if q = r then v else regGet m q := by
  induction m with
  | nil =>
    by_cases h : q = r
    · simp [regSet, regGet, h]
    · have : ¬ r = q := fun e => h e.symm
      simp [regSet, regGet, h, this]
  | cons x rest ih =>
    obtain ⟨a, b⟩ := x
    by_cases ha : a = r
    · by_cases h : q = r
      · simp [regSet, regGet, h, ha]
      · have : ¬ r = q := fun e => h e.symm
        simp [regSet, regGet, h, ha, this]
    · by_cases hq : a = q
      · have h : ¬ q = r := fun e => ha (hq.trans e)
        simp [regSet, regGet, hq, h]
      · simp [regSet, regGet, ha, hq, ih]

theorem fullFrom_append (a b : List PendWrite) (r : Loc) (v : Word) :
    fullFrom (a ++ b) r v = fullFrom b r (fullFrom a r v) := by
  induction a generalizing v with
  | nil => rfl
  | cons w rest ih => simp [fullFrom, ih]

theorem fullFrom_other (a : List PendWrite) (r : Loc) (v : Word) (h : ∀ w ∈ a, w.loc ≠ r) : fullFrom a r v = v := by
  induction a generalizing v with
  | nil => rfl
  | cons w rest ih => simp_all [fullFrom]

theorem commitFrom_full (g : Group) (ws kept : List PendWrite) (regs : List (Loc × Word)) (r : Loc) :
    fullFrom (commitFrom g ws kept regs).1 r (regGet (commitFrom g ws kept regs).2 r) =
      fullFrom (kept.reverse ++ ws) r (regGet regs r) := by
  induction ws generalizing kept regs with
  | nil => simp [commitFrom]
  | cons w rest ih =>
    rw [commitFrom]
    split
    · rename_i h
      rw [ih, fullFrom_append, fullFrom_append, fullFrom, regGet_regSet]
      by_cases hr : r = w.loc
      · have hk : ∀ x ∈ kept.reverse, x.loc ≠ r := by
          intro x hx hxr
          simp at h hx
          exact h.2 x hx (hxr.trans hr)
        rw [fullFrom_other _ _ _ hk, fullFrom_other _ _ _ hk]
        simp [hr]
      · have : ¬ w.loc = r := fun e => hr e.symm
        simp [hr, this]
    · rw [ih]
      simp

/-- Moving completed writes into the register table changes no value. -/
@[simp] theorem Group.full_commit (g : Group) (r : Loc) : g.commit.full r = g.full r := by
  have := commitFrom_full g g.pend [] g.regs r
  simpa [Group.full, Group.commit] using this

theorem fullFrom_done (ws : List PendWrite) (f : PendWrite → BitVec 8) (r : Loc) (v : Word) :
    fullFrom (ws.map fun w => { w with done := f w }) r v = fullFrom ws r v := by
  induction ws generalizing v with
  | nil => rfl
  | cons w rest ih => simp [fullFrom, ih, PendWrite.apply]

/-- A drain boundary changes no value that is held once every write is complete. -/
@[simp] theorem Group.full_drain (g : Group) (sls : BitVec 8) (r : Loc) : (g.drain sls).full r = g.full r := by
  simp only [Group.drain, Group.full_commit]
  simp [Group.full, fullFrom_done]

/-- A commit changes the register table and the pending writes alone. -/
theorem Group.commit_eq (g : Group) : g.commit = { g with regs := g.commit.regs, pend := g.commit.pend } := rfl
theorem Group.drain_eq (g : Group) (m : BitVec 8) : g.drain m = { g with regs := (g.drain m).regs, pend := (g.drain m).pend } := rfl

/-- The value of a cell after the writes of a list in program order. -/
def writesEffect (ws : List (Loc × Word)) (orIn : Bool) : Effect := fun r old =>
  ws.foldl (fun v w => if w.1 = r then (if orIn then v ||| w.2 else w.2) else v) old

theorem Issue.enter_full (c : Issue) (lat : Option Nat) (orIn : Bool) (ws : List (Loc × Word)) (g : Group) (r : Loc) :
    (c.enter lat orIn ws g).full r = writesEffect ws orIn r (g.full r) := by
  simp only [Issue.enter, Group.full, fullFrom_append]
  generalize fullFrom g.pend r (regGet g.regs r) = v
  simp only [writesEffect]
  induction ws generalizing v with
  | nil => rfl
  | cons w rest ih =>
    rw [List.map_cons, fullFrom, List.foldl_cons, ih]
    rfl

end Sys2Proof.Machine
end

