-- ==== Sys2Proof/Laws/Complete.lean ====
section
/-! SUPPORT. What the wrapper of group instructions does for one that no check stops: its effect, and the group's slices go
on. -/

namespace Sys2Proof.Machine

/-! ## The issue -/

/-- The group of an issue is the state's. -/
theorem issueOf_group {s : State} {u k n : Nat} {hint : Bool} {c : Issue} (h : issueOf s u k n hint = some c) :
    c.uid = u ∧ c.gid = k ∧ c.gang = n ∧ groupAt s u k = some c.group ∧ s.team? u = some c.team ∧ s.grid? c.team.grid = some c.grid := by
  unfold issueOf at h
  cases ht : s.team? u with
  | none => simp [ht] at h
  | some t =>
    simp only [ht] at h
    cases hg : s.grid? t.grid with
    | none => simp [hg] at h
    | some gr =>
      simp only [hg] at h
      cases hk : t.group? k with
      | none => simp [hk] at h
      | some g =>
        simp only [hk] at h
        split at h
        · simp at h
        · have hu : t.uid = u := by simpa using List.find?_some ht
          have hgid : g.gid = k := by simpa using List.find?_some hk
          simp only [Option.some.injEq] at h
          subst h
          simp [mkIssue, hu, hgid, groupAt, ht, hk, hg]

/-- An instruction that no check stops does what its body does. -/
theorem groupInstr_issues {j : Instr} {s : State} {c : Issue} (h : Issues j s c) (body : Issue → State → Res) :
    groupInstr j s body = .next (c.settle j s (body c s)) := by
  obtain ⟨h1, h2, h3⟩ := h
  simp [groupInstr, h1, h2, Issue.run, h3]

/-- A cause that a check finds is taken: the instruction has no other effect (R8). -/
theorem groupInstr_stopped {j : Instr} {s : State} {c : Issue} {t : Trap} (h1 : s.issuer = .gang c.uid c.gid c.gang)
    (h2 : issueOf s c.uid c.gid c.gang false = some c) (h3 : precheck j c = some t) (body : Issue → State → Res) :
    groupInstr j s body = .next (c.trapWith t s) := by
  simp [groupInstr, h1, h2, Issue.run, h3]

/-- A hint word of a gang runs. -/
theorem hintInstr_issues {s : State} {c : Issue} (h : IssuesHint s c)
    (other : State → Nat → Host.Outcome State Fault Refusal) (body : Issue → State → State) :
    hintInstr s other body = .next (body c s) := by
  obtain ⟨h1, h2⟩ := h
  simp [hintInstr, h1, h2]

/-! ## Slices -/

theorem nth_mapIdx {α : Type} (l : List α) (f : Nat → α → α) (k : Nat) (d : α) (hd : l.length ≤ k → f k d = d) :
    nth (l.mapIdx f) k d = f k (nth l k d) := by
  simp only [nth, List.getD_eq_getElem?_getD, List.getElem?_mapIdx]
  by_cases h : k < l.length
  · simp [h]
  · simp [List.getElem?_eq_none (Nat.le_of_not_lt h), hd (Nat.le_of_not_lt h)]

theorem Group.gangSlices_lt {g : Group} {n sl : Nat} (h : sl ∈ g.gangSlices n) : sl < g.slices.length := by
  simp only [Group.gangSlices, List.mem_filter, Bool.and_eq_true, decide_eq_true_eq] at h
  exact h.2.1.2

theorem issueOf_slices {s : State} {u k n : Nat} {hint : Bool} {c : Issue} (h : issueOf s u k n hint = some c) :
    c.slices = c.group.gangSlices n ∧ c.slices ≠ [] := by
  unfold issueOf at h
  cases ht : s.team? u with
  | none => simp [ht] at h
  | some t =>
    simp only [ht] at h
    cases hg : s.grid? t.grid with
    | none => simp [hg] at h
    | some gr =>
      simp only [hg] at h
      cases hk : t.group? k with
      | none => simp [hk] at h
      | some g =>
        simp only [hk] at h
        split at h
        · simp at h
        · rename_i hne
          simp only [Option.some.injEq] at h
          subst h
          simp only [mkIssue, true_and]
          exact hne

/-- The slices of a group after some of them have changed. -/
theorem Group.slice_updSlices (g : Group) (sls : List Nat) (f : Slice → Slice) (hs : ∀ sl ∈ sls, sl < g.slices.length) (k : Nat) :
    (g.updSlices sls f).slice k = if sls.contains k then f (g.slice k) else g.slice k := by
  simp only [Group.slice, Group.updSlices]
  rw [nth_mapIdx]
  intro hk
  have : ¬ k ∈ sls := fun h => by have := hs k h; omega
  simp [this]

/-! ## Completion -/

theorem cell_updGroup (s : State) (u k : Nat) (f : Group → Group) (hf : ∀ g, (f g).gid = g.gid) (g : Group)
    (hg : groupAt s u k = some g) (r : Loc) : cell (s.updGroup u k f) u k r = (f g).full r := by
  simp [cell, groupAt_updGroup _ _ _ _ _ _ hf, hg]

theorem sliceAt_updGroup (s : State) (u k : Nat) (f : Group → Group) (hf : ∀ g, (f g).gid = g.gid) (g : Group)
    (hg : groupAt s u k = some g) (n : Nat) : sliceAt (s.updGroup u k f) u k n = (f g).slice n := by
  simp [sliceAt, groupAt_updGroup _ _ _ _ _ _ hf, hg]

theorem sameMemory_updGroup (s : State) (u k : Nat) (f : Group → Group) : SameMemory s (s.updGroup u k f) := by
  refine ⟨fun _ => rfl, fun _ _ => rfl, fun n o => ?_⟩
  simp only [localAt, State.updGroup]
  rw [State.team?_updTeam _ _ _ _ (by simp)]
  cases s.team? n with
  | none => rfl
  | some t =>
    by_cases hn : n = u
    · simp [hn]
      rfl
    · simp [hn]

/-- What an update of a group changes when it changes its register cells, and the progress of its slices, alone. -/
abbrev RegsOnly (f : Group → Group) : Prop := ∀ g, restOf (f g) = restOf g

theorem restOf_gid {g h : Group} (e : restOf g = restOf h) : g.gid = h.gid := by
  have := congrArg Group.gid e
  exact this

theorem RegsOnly.gid {f : Group → Group} (h : RegsOnly f) (g : Group) : (f g).gid = g.gid := restOf_gid (h g)

theorem RegsOnly.comp {f g : Group → Group} (hf : RegsOnly f) (hg : RegsOnly g) : RegsOnly fun x => g (f x) :=
  fun x => (hg (f x)).trans (hf x)

/-- What the end of an instruction does to the group. -/
def finishGroup (c : Issue) (g : Group) : Group :=
  match c.mac with
  | some m => (g.macroStep m false).commit
  | none => (g.updSlices c.slices (Slice.advance c.step)).commit

theorem Issue.finish_eq (c : Issue) (s : State) : c.finish s = s.updGroup c.uid c.gid (finishGroup c) := rfl

theorem finishGroup_regsOnly (c : Issue) : RegsOnly (finishGroup c) := by
  intro g
  unfold finishGroup
  cases c.mac with
  | none => rfl
  | some m => simp only [Group.macroStep]; split <;> rfl

theorem finishGroup_full (c : Issue) (g : Group) (r : Loc) : (finishGroup c g).full r = g.full r := by
  unfold finishGroup
  cases c.mac with
  | none => rw [Group.full_commit]; rfl
  | some m => rw [Group.full_commit]; simp only [Group.macroStep]; split <;> rfl

/-- The slices after a step of a MACRO: at its last one, those that run it go on. -/
theorem Group.slice_macroStep (g : Group) (m : MacroRun) (hint : Bool) (k : Nat) :
    (g.macroStep m hint).slice k =
      if decide (m.ops.length ≤ m.step + 1) && m.slices.getLsbD k && decide (k < min 8 g.slices.length) then
        (g.slice k).advance m.issueStep else g.slice k := by
  by_cases hstep : m.step + 1 < m.ops.length
  · have h2 : ¬ m.ops.length ≤ m.step + 1 := by omega
    have : (g.macroStep m hint).slices = g.slices := by simp only [Group.macroStep, hstep, if_true]
    simp [Group.slice, this, h2]
  · have h2 : m.ops.length ≤ m.step + 1 := by omega
    have : (g.macroStep m hint).slices = (g.updSlices (bitsOf 8 m.slices) (Slice.advance m.issueStep)).slices := by
      simp only [Group.macroStep, hstep, if_false]
    simp only [Group.slice, this, Group.updSlices, h2, decide_true, Bool.true_and]
    by_cases hk : k < g.slices.length
    · rw [nth_mapIdx _ _ _ _ (by omega)]
      by_cases h8 : k < 8 <;> by_cases hb : m.slices.getLsbD k = true <;> simp [bitsOf, h8, hb, hk]
    · simp [nth, hk]

/-- Each slice at the end of an instruction: those that move on stand at the next word, the others are as they were. -/
theorem finishGroup_slice (c : Issue) (g : Group) (hl : g.slices.length = c.group.slices.length)
    (hs : ∀ sl ∈ c.slices, sl < g.slices.length) (k : Nat) :
    (finishGroup c g).slice k = if movesOn c k then (g.slice k).advance (match c.mac with
      | some m => m.issueStep
      | none => c.step) else g.slice k := by
  unfold finishGroup movesOn
  cases c.mac with
  | none => exact Group.slice_updSlices _ _ _ hs k
  | some m => exact hl ▸ Group.slice_macroStep g m false k

/-- The MACROs of a group at the end of an instruction. -/
theorem finishGroup_mac (c : Issue) (g : Group) : (finishGroup c g).mac = match c.mac with
    | none => g.mac
    | some m => macsAfter m g.mac := by
  unfold finishGroup
  cases c.mac with
  | none => rfl
  | some m =>
    have hw : guardNext m.guardWin = windowAfter m.guardWin := by cases m.guardWin <;> rfl
    simp only [Group.mac_commit, Group.macroStep, macsAfter]
    split <;> simp [MacroRun.next, hw]

/-- An instruction whose effect is `s1` with its group's pending writes changed by `h` completes. -/
theorem completes_of {j : Instr} {s s1 : State} {c : Issue} {new : Effect} {h : Group → Group} {g : Group}
    (he : Machine.exec j s = .next (c.finish (s1.updGroup c.uid c.gid h)))
    (hg : groupAt s1 c.uid c.gid = some g) (hl : g.slices.length = c.group.slices.length)
    (hs : ∀ sl ∈ c.slices, sl < g.slices.length)
    (hh : ∀ g, h g = { g with pend := (h g).pend }) (hn : ∀ r, (h g).full r = new r (g.full r)) :
    Completes j s s1 c new := by
  have hr : RegsOnly h := fun g => by rw [hh g]; rfl
  have hgid : ∀ x, (finishGroup c (h x)).gid = x.gid := fun x => (hr.comp (finishGroup_regsOnly c)).gid x
  refine ⟨_, he, ?_, ?_, ?_, ?_⟩
  · rw [Issue.finish_eq, State.updGroup_updGroup _ _ _ _ _ hr.gid]
    exact ⟨_, rfl, hr.comp (finishGroup_regsOnly c)⟩
  · rw [Issue.finish_eq, State.updGroup_updGroup _ _ _ _ _ hr.gid]
    have hsl : (h g).slices = g.slices := by rw [hh g]
    refine fun _ => ⟨fun sl => ?_, fun g' k hg' hk => ?_⟩
    · have hx : sliceAt s1 c.uid c.gid sl = g.slice sl := by simp [sliceAt, hg]
      have hk : (h g).slice sl = g.slice sl := by simp [Group.slice, hsl]
      simp only [sliceAt_updGroup _ _ _ _ hgid _ hg, hx, finishGroup_slice c (h g) (by rw [hsl, hl]) (by rw [hsl]; exact hs), hk]
      by_cases hc : movesOn c sl
      · simp only [hc, if_true]
        simp [Slice.advance, Slice.unbind]
      · simp [hc]
    · rw [groupAt_updGroup _ _ _ _ _ _ hgid, hg] at hk
      simp only [Option.map_some, and_self, if_true, Option.some.injEq] at hk
      have : (h g).mac = g.mac := by rw [hh g]
      rw [← hk, finishGroup_mac, this, Option.some.inj (hg'.symm.trans hg)] <;>
        cases c.mac <;> rfl
  · rw [Issue.finish_eq, State.updGroup_updGroup _ _ _ _ _ hr.gid]
    exact sameMemory_updGroup _ _ _ _
  · intro r
    rw [Issue.finish_eq, State.updGroup_updGroup _ _ _ _ _ hr.gid, cell_updGroup _ _ _ _ hgid _ hg, finishGroup_full, hn]
    simp [cell, hg]

end Sys2Proof.Machine
end

