-- ==== Sys2Proof/Laws/Effect.lean ====
section
/-! SUPPORT. The writes of a destination as effects on register cells: one lemma for each kind of result. -/

namespace Sys2Proof.Machine

/-- The cells a two-register destination names for two places are the same only for one class of registers that is shared. -/
theorem cellOf_inj {d : BitVec 7} (hd : d.toNat < 0x60) {j k e l e' l' : Nat} {r : Loc} (h : cellOf d j e l = some r)
    (h' : cellOf d k e' l' = some r) : j = k ∧ e = e' ∧ l = l' := by
  simp only [cellOf, hd, if_true, Option.some.injEq] at h h'
  rw [← h'] at h
  simp only [Loc.v.injEq] at h
  omega

theorem writesEffect_none (ws : List (Loc × Word)) (r : Loc) (old : Word) (h : ∀ w ∈ ws, w.1 ≠ r) :
    writesEffect ws false r old = old := by
  simp only [writesEffect]
  induction ws generalizing old with
  | nil => rfl
  | cons w rest ih =>
    have := h w (by simp)
    simp only [List.foldl_cons, this, if_false]
    exact ih old fun x hx => h x (by simp [hx])

/-- A list of writes that gives each cell one value gives the first one found. -/
theorem writesEffect_find (ws : List (Loc × Word)) (r : Loc) (hn : ∀ w ∈ ws, ∀ x ∈ ws, w.1 = r → x.1 = r → w.2 = x.2) (old : Word) :
    writesEffect ws false r old = ((ws.find? fun w => decide (w.1 = r)).map Prod.snd).getD old := by
  induction ws generalizing old with
  | nil => rfl
  | cons w rest ih =>
    have hcons : writesEffect (w :: rest) false r old = writesEffect rest false r (if w.1 = r then w.2 else old) := rfl
    rw [hcons, ih (fun a ha b hb => hn a (by simp [ha]) b (by simp [hb])), List.find?_cons]
    by_cases h : w.1 = r
    · simp only [h, if_true, decide_true, Option.map_some, Option.getD_some]
      cases hf : rest.find? fun w => decide (w.1 = r) with
      | none => rfl
      | some x =>
        have hx : x.1 = r := by simpa using List.find?_some hf
        simpa using hn x (by simp [List.mem_of_find?_eq_some hf]) w (by simp) hx h
    · simp [h]

theorem keepFirst_mem {ws : List (Loc × Word)} {seen : List Loc} {w : Loc × Word} (h : w ∈ keepFirst ws seen) :
    w.1 ∉ seen := by
  induction ws generalizing seen with
  | nil => simp [keepFirst] at h
  | cons x rest ih =>
    rw [keepFirst] at h
    split at h
    · exact ih h
    · rename_i hx
      rcases List.mem_cons.1 h with e | h
      · subst e; simpa using hx
      · intro hw
        exact ih h (by simp [hw])

/-- A cell stands once among the writes kept. -/
theorem keepFirst_one (ws : List (Loc × Word)) (seen : List Loc) (r : Loc) :
    ∀ w ∈ keepFirst ws seen, ∀ x ∈ keepFirst ws seen, w.1 = r → x.1 = r → w.2 = x.2 := by
  induction ws generalizing seen with
  | nil => simp [keepFirst]
  | cons y rest ih =>
    rw [keepFirst]
    split
    · exact ih seen
    · intro w hw x hx hwr hxr
      rcases List.mem_cons.1 hw with e | hw
      · subst e
        rcases List.mem_cons.1 hx with e | hx
        · subst e; rfl
        · exact absurd (by simp [hwr, hxr]) (keepFirst_mem hx)
      · rcases List.mem_cons.1 hx with e | hx
        · subst e
          exact absurd (by simp [hwr, hxr]) (keepFirst_mem hw)
        · exact ih _ w hw x hx hwr hxr

theorem keepFirst_find (ws : List (Loc × Word)) (seen : List Loc) (r : Loc) (h : r ∉ seen) :
    (keepFirst ws seen).find? (fun w => decide (w.1 = r)) = ws.find? fun w => decide (w.1 = r) := by
  induction ws generalizing seen with
  | nil => rfl
  | cons x rest ih =>
    rw [keepFirst]
    split
    · rename_i hx
      have : ¬ x.1 = r := fun e => h (by rw [← e]; simpa using hx)
      rw [ih seen h, List.find?_cons]
      simp [this]
    · rw [List.find?_cons, List.find?_cons]
      by_cases hr : x.1 = r
      · simp [hr]
      · have hr' : ¬ r = x.1 := fun e => hr e.symm
        simp only [hr, decide_false]
        exact ih _ (by simp [hr', h])

theorem destAll_find (live : List (Nat × Nat)) (d : BitVec 7) (n : Nat) (f : Nat × Nat → Nat → Word) (r : Loc) :
    ((live.flatMap fun p => (List.range n).filterMap fun j => (cellOf d j p.1 p.2).map fun q => (q, f p j)).find?
        fun w => decide (w.1 = r)).map Prod.snd =
      ((live.flatMap fun p => (List.range n).map fun k => (p, k)).find? fun x => decide (cellOf d x.2 x.1.1 x.1.2 = some r)).map
        fun x => f x.1 x.2 := by
  induction live with
  | nil => rfl
  | cons p rest ih =>
    rw [List.flatMap_cons, List.flatMap_cons, List.find?_append, List.find?_append]
    have hp : ∀ l : List Nat,
        ((l.filterMap fun j => (cellOf d j p.1 p.2).map fun q => (q, f p j)).find? fun w => decide (w.1 = r)).map Prod.snd =
          ((l.map fun k => (p, k)).find? fun x => decide (cellOf d x.2 x.1.1 x.1.2 = some r)).map fun x => f x.1 x.2 := by
      intro l
      induction l with
      | nil => rfl
      | cons k ks ihk =>
        rw [List.filterMap_cons, List.map_cons, List.find?_cons]
        cases hc : cellOf d k p.1 p.2 with
        | none => simpa [hc] using ihk
        | some q =>
          by_cases hq : q = r
          · simp [hq]
          · simpa [hc, hq, List.find?_cons] using ihk
    have h1 := hp (List.range n)
    cases ha : (((List.range n).filterMap fun j => (cellOf d j p.1 p.2).map fun q => (q, f p j)).find?
        fun w => decide (w.1 = r)) with
    | some w =>
      rw [ha] at h1
      cases hb : (((List.range n).map fun k => (p, k)).find? fun x => decide (cellOf d x.2 x.1.1 x.1.2 = some r)) with
      | some x => rw [hb] at h1; simpa using h1
      | none => rw [hb] at h1; simp at h1
    | none =>
      rw [ha] at h1
      cases hb : (((List.range n).map fun k => (p, k)).find? fun x => decide (cellOf d x.2 x.1.1 x.1.2 = some r)) with
      | some x => rw [hb] at h1; simp at h1
      | none => simpa using ih

/-- The writes of a destination are its effect. -/
theorem writesEffect_dest (c : Issue) (d : BitVec 7) (n : Nat) (f : Nat × Nat → Nat → Word) (r : Loc) (old : Word) :
    writesEffect (destWrites c.live d n f) false r old = destEffect c d n f r old := by
  have key : writesEffect (destWrites c.live d n f) false r old =
      (((c.live.flatMap fun p => (List.range n).filterMap fun j => (cellOf d j p.1 p.2).map fun q => (q, f p j)).find?
        fun w => decide (w.1 = r)).map Prod.snd).getD old := by
    simp only [destWrites]
    split
    · rename_i hd
      apply writesEffect_find
      have each : ∀ w ∈ c.live.flatMap (fun p => (List.range n).filterMap fun j => (cellOf d j p.1 p.2).map fun q => (q, f p j)),
          ∃ p j, cellOf d j p.1 p.2 = some w.1 ∧ w.2 = f p j := by
        intro w hw
        obtain ⟨p, _, hp⟩ := List.mem_flatMap.1 hw
        obtain ⟨j, _, hj⟩ := List.mem_filterMap.1 hp
        cases hc : cellOf d j p.1 p.2 with
        | none => simp [hc] at hj
        | some q =>
          simp only [hc, Option.map_some, Option.some.injEq] at hj
          exact ⟨p, j, by rw [hc, ← hj], by rw [← hj]⟩
      intro w hw x hx hwr hxr
      obtain ⟨p, j, h1, h2⟩ := each w hw
      obtain ⟨p', j', h1', h2'⟩ := each x hx
      rw [hwr] at h1
      rw [hxr] at h1'
      have := cellOf_inj hd h1 h1'
      rw [h2, h2', this.1, Prod.ext this.2.1 this.2.2]
    · rw [writesEffect_find, keepFirst_find _ _ _ (by simp)]
      exact keepFirst_one _ _ _
  rw [key, destAll_find]
  simp only [destEffect, writerOf]
  cases h : (c.live.flatMap fun p => (List.range n).map fun k => (p, k)).find? fun x => decide (cellOf d x.2 x.1.1 x.1.2 = some r) with
  | none => rfl
  | some x => rfl

theorem writesEffect_pred (c : Issue) (d : BitVec 3) (f : Nat × Nat → Bool) (r : Loc) (old : Word) :
    writesEffect (predWrites c.live d f) false r old = predEffect c d f r old := by
  unfold predWrites
  split
  · rename_i h
    cases r <;> simp [predEffect, writesEffect, h]
  · rename_i h
    rw [writesEffect_find]
    · cases r with
      | p n e l =>
        simp only [predEffect, h, ne_eq, not_false_eq_true, true_and]
        induction c.live with
        | nil => simp
        | cons x rest ih =>
          obtain ⟨a, b⟩ := x
          rw [List.map_cons, List.find?_cons]
          by_cases hx : Loc.p d.toNat a b = Loc.p n e l
          · simp only [Loc.p.injEq] at hx
            obtain ⟨rfl, rfl, rfl⟩ := hx
            simp
          · have hx' := hx
            simp only [Loc.p.injEq, not_and] at hx'
            simp only [hx, decide_false]
            rw [ih]
            by_cases hm : n = d.toNat
            · have : ¬ (e, l) = (a, b) := by
                intro hh
                simp only [Prod.mk.injEq] at hh
                exact hx' hm.symm hh.1.symm hh.2.symm
              simp [hm, this]
            · simp [hm]
      | _ =>
        rw [List.find?_eq_none.2]
        · rfl
        · intro w hw
          obtain ⟨p, _, rfl⟩ := List.mem_map.1 hw
          simp
    · intro w hw x hx hwr hxr
      obtain ⟨p, _, rfl⟩ := List.mem_map.1 hw
      obtain ⟨q, _, rfl⟩ := List.mem_map.1 hx
      have := hwr.trans hxr.symm
      simp only [Loc.p.injEq, true_and] at this
      rw [Prod.ext this.1 this.2]

/-- Flags entered for the member contexts of a list. -/
theorem writesEffect_flags (slots : List Nat) (hs : slots.Nodup) (fl : Nat → FFlags) (r : Loc) (old : Word) :
    writesEffect (slots.filterMap fun e => if fl e = 0 then none else some (Loc.fpm e, (fl e).setWidth 32)) true r old =
      match r with
      | .fpm e => if e ∈ slots then old ||| (fl e).setWidth 32 else old
      | _ => old := by
  induction slots generalizing old with
  | nil => cases r <;> simp [writesEffect]
  | cons x rest ih =>
    have hn := List.nodup_cons.1 hs
    rw [List.filterMap_cons]
    by_cases hx : fl x = 0
    · simp only [hx, if_true]
      rw [ih hn.2]
      cases r with
      | fpm e =>
        by_cases he : e = x
        · subst he; simp [hn.1, hx]
        · simp [he]
      | _ => rfl
    · simp only [hx, if_false]
      have hcons : ∀ ws : List (Loc × Word), writesEffect ((Loc.fpm x, (fl x).setWidth 32) :: ws) true r old =
          writesEffect ws true r (if Loc.fpm x = r then old ||| (fl x).setWidth 32 else old) := fun _ => rfl
      rw [hcons, ih hn.2]
      cases r with
      | fpm e =>
        by_cases he : e = x
        · subst he; simp [hn.1]
        · have : ¬ x = e := fun h => he h.symm
          simp [he, this]
      | _ => simp

theorem foldl_filter_or (l : List (Nat × Nat)) (e : Nat) (f : Nat × Nat → FFlags) (a : FFlags) :
    l.foldl (fun acc p => if p.1 = e then acc ||| f p else acc) a =
      (l.filter fun p => decide (p.1 = e)).foldl (fun acc p => acc ||| f p) a := by
  induction l generalizing a with
  | nil => rfl
  | cons x rest ih => by_cases h : x.1 = e <;> simp [h, ih]

/-- The flags that an instruction raises are its effect on FPM. -/
theorem writesEffect_raise (c : Issue) (fl : Nat × Nat → FFlags) (r : Loc) (old : Word) :
    writesEffect (flagWrites c.live c.slots fl) true r old = flagEffect c fl r old := by
  have hs : c.slots.Nodup := List.Nodup.filter _ List.nodup_range
  have := writesEffect_flags c.slots hs
    (fun e => c.live.foldl (fun acc p => if p.1 = e then acc ||| fl p else acc) 0) r old
  simp only [flagWrites]
  rw [this]
  cases r with
  | fpm e => simp [flagEffect, foldl_filter_or]
  | _ => rfl

/-! ## Instructions that compute -/

theorem issues_group {j : Instr} {s : State} {c : Issue} (h : Issues j s c) : groupAt s c.uid c.gid = some c.group :=
  (issueOf_group h.2.1).2.2.2.1

theorem issues_slices {j : Instr} {s : State} {c : Issue} (h : Issues j s c) : ∀ sl ∈ c.slices, sl < c.group.slices.length := by
  intro sl hsl
  rw [(issueOf_slices h.2.1).1] at hsl
  exact Group.gangSlices_lt hsl

/-- An instruction whose meaning enters writes, and flags after them, computes their effects. -/
theorem computes_write_raise {j : Instr} {s : State} {c : Issue} (h : Issues j s c) {body : Issue → State → Res}
    (he : Machine.exec j s = groupInstr j s body) {lat lat' : Option Nat} {ws fs : List (Loc × Word)} {new : Effect}
    (hb : body c s = .ok (s.updGroup c.uid c.gid fun g => c.enter lat' true fs (c.enter lat false ws g)))
    (hn : ∀ r old, writesEffect fs true r (writesEffect ws false r old) = new r old) : Completes j s s c new := by
  apply completes_of (h := fun g => c.enter lat' true fs (c.enter lat false ws g)) (g := c.group) (hl := rfl)
  · rw [he, groupInstr_issues h, hb]
    rfl
  · exact issues_group h
  · exact issues_slices h
  · intro g; rfl
  · intro r
    rw [Issue.enter_full, Issue.enter_full, hn]

/-- An instruction whose meaning enters writes computes their effect. -/
theorem computes_write {j : Instr} {s : State} {c : Issue} (h : Issues j s c) {body : Issue → State → Res}
    (he : Machine.exec j s = groupInstr j s body) {lat : Option Nat} {ws : List (Loc × Word)} {new : Effect}
    (hb : body c s = .ok (c.write lat ws s)) (hn : ∀ r old, writesEffect ws false r old = new r old) :
    Completes j s s c new := by
  apply completes_of (h := c.enter lat false ws) (g := c.group) (hl := rfl)
  · rw [he, groupInstr_issues h, hb]
    rfl
  · exact issues_group h
  · exact issues_slices h
  · intro g; rfl
  · intro r
    rw [Issue.enter_full, hn]

end Sys2Proof.Machine
end

