-- ==== Sys2Proof/Laws/Memory.lean ====
section
/-! SUPPORT. Reads after writes of the sparse tables and memories, and that every operation on a memory keeps its canonical form:
addresses rise strictly, and no listed byte is what an unlisted one reads as. -/

namespace Sys2Proof.Machine

/-! ## Tables -/

theorem mapGet_mapSet {α : Type} (m : List (Nat × α)) (k j : Nat) (v : α) :
    mapGet (mapSet m k v) j = if k = j then some v else mapGet m j := by
  induction m with
  | nil => simp [mapSet, mapGet]
  | cons c rest ih =>
    obtain ⟨i, x⟩ := c
    simp only [mapSet]
    split
    · simp [mapGet]
    · split
      · rename_i hk; subst hk; by_cases h : k = j <;> simp [mapGet, h]
      · by_cases h : i = j
        · subst h; simp [mapGet, ‹¬k = i›]
        · simp [mapGet, h, ih]

theorem mapRising_cons {α : Type} (k : Nat) (v : α) (m : List (Nat × α)) :
    mapRising ((k, v) :: m) = true ↔ (∀ c ∈ m, k < c.1) ∧ mapRising m = true := by
  induction m generalizing k v with
  | nil => simp [mapRising]
  | cons c rest ih =>
    obtain ⟨i, x⟩ := c
    have h1 : mapRising ((k, v) :: (i, x) :: rest) = (decide (k < i) && mapRising ((i, x) :: rest)) := rfl
    rw [h1, Bool.and_eq_true, decide_eq_true_iff]
    constructor
    · rintro ⟨hk, hr⟩
      refine ⟨fun c hc => ?_, hr⟩
      rcases List.mem_cons.1 hc with rfl | hc
      · exact hk
      · exact hk.trans (((ih i x).1 hr).1 c hc)
    · rintro ⟨ha, hr⟩
      exact ⟨ha (i, x) (List.mem_cons_self ..), hr⟩

theorem mem_mapSet {α : Type} {m : List (Nat × α)} {k : Nat} {v : α} {c : Nat × α} (h : c ∈ mapSet m k v) : c = (k, v) ∨ c ∈ m := by
  induction m with
  | nil => simpa [mapSet] using h
  | cons d rest ih =>
    obtain ⟨i, x⟩ := d
    simp only [mapSet] at h
    split at h
    · simpa using h
    · split at h
      · rcases List.mem_cons.1 h with h | h <;> simp [h]
      · rcases List.mem_cons.1 h with h | h
        · simp [h]
        · rcases ih h with h | h <;> simp [h]

theorem mem_mapErase {α : Type} {m : List (Nat × α)} {k : Nat} {c : Nat × α} (h : c ∈ mapErase m k) : c ∈ m := by
  induction m with
  | nil => simp [mapErase] at h
  | cons d rest ih =>
    obtain ⟨i, x⟩ := d
    simp only [mapErase] at h
    split at h
    · simp [h]
    · split at h
      · exact h
      · rcases List.mem_cons.1 h with h | h
        · simp [h]
        · simp [ih h]

theorem mapSet_rising {α : Type} (m : List (Nat × α)) (k : Nat) (v : α) (h : mapRising m = true) : mapRising (mapSet m k v) = true := by
  induction m with
  | nil => rfl
  | cons c rest ih =>
    obtain ⟨i, x⟩ := c
    have hc := (mapRising_cons i x rest).1 h
    simp only [mapSet]
    split
    · refine (mapRising_cons ..).2 ⟨fun c hm => ?_, h⟩
      rcases List.mem_cons.1 hm with rfl | hm
      · assumption
      · exact lt_trans ‹k < i› (hc.1 c hm)
    · split
      · subst_vars; exact (mapRising_cons ..).2 hc
      · refine (mapRising_cons ..).2 ⟨fun c hm => ?_, ih hc.2⟩
        rcases mem_mapSet hm with rfl | hm
        · show i < k; omega
        · exact hc.1 c hm

theorem mapErase_rising {α : Type} (m : List (Nat × α)) (k : Nat) (h : mapRising m = true) : mapRising (mapErase m k) = true := by
  induction m with
  | nil => rfl
  | cons c rest ih =>
    obtain ⟨i, x⟩ := c
    have hc := (mapRising_cons i x rest).1 h
    simp only [mapErase]
    split
    · exact hc.2
    · split
      · exact h
      · exact (mapRising_cons ..).2 ⟨fun c hm => hc.1 c (mem_mapErase hm), ih hc.2⟩

theorem mapGet_none_of_below {α : Type} (m : List (Nat × α)) (j : Nat) (h : ∀ c ∈ m, j < c.1) : mapGet m j = none := by
  induction m with
  | nil => rfl
  | cons c rest ih =>
    obtain ⟨i, x⟩ := c
    have hi : j < i := h (i, x) (List.mem_cons_self ..)
    simp only [mapGet]
    rw [if_neg (by omega)]
    exact ih fun c hc => h c (List.mem_cons_of_mem _ hc)

theorem mapGet_mapErase {α : Type} (m : List (Nat × α)) (k j : Nat) (h : mapRising m = true) :
    mapGet (mapErase m k) j = if k = j then none else mapGet m j := by
  induction m with
  | nil => simp [mapErase, mapGet]
  | cons c rest ih =>
    obtain ⟨i, x⟩ := c
    have hc := (mapRising_cons i x rest).1 h
    simp only [mapErase]
    split
    · subst_vars
      by_cases hj : i = j
      · subst hj; simpa [mapGet] using mapGet_none_of_below rest i hc.1
      · simp [mapGet, hj]
    · split
      · by_cases hj : k = j
        · subst hj
          rw [if_pos rfl]
          refine mapGet_none_of_below _ _ fun c hm => ?_
          rcases List.mem_cons.1 hm with rfl | hm
          · assumption
          · exact lt_trans ‹k < i› (hc.1 c hm)
        · simp [hj]
      · by_cases hj : i = j
        · subst hj; simp [mapGet]; omega
        · simp [mapGet, hj, ih hc.2]

/-! ## Byte memories -/

theorem memory_wf_iff (m : List Host.Cell) : Memory.wf m = true ↔ mapRising m = true ∧ ∀ c ∈ m, c.2 ≠ 0 := by
  simp [Memory.wf]

theorem byteSet_wf (m : List Host.Cell) (a : Nat) (v : Byte) (h : Memory.wf m = true) : Memory.wf (byteSet m a v) = true := by
  rw [memory_wf_iff] at h ⊢
  unfold byteSet
  split
  · exact ⟨mapErase_rising _ _ h.1, fun c hc => h.2 c (mem_mapErase hc)⟩
  · refine ⟨mapSet_rising _ _ _ h.1, fun c hc => ?_⟩
    rcases mem_mapSet hc with rfl | hc
    · assumption
    · exact h.2 c hc

theorem byteAt_byteSet (m : List Host.Cell) (a b : Nat) (v : Byte) (h : Memory.wf m = true) :
    byteAt (byteSet m a v) b = if a = b then v else byteAt m b := by
  rw [memory_wf_iff] at h
  unfold byteAt byteSet
  split
  · subst_vars; rw [mapGet_mapErase _ _ _ h.1]; split <;> rfl
  · rw [mapGet_mapSet]; split <;> rfl

theorem bytesSet_wf (bs : List Byte) (m : List Host.Cell) (a : Nat) (h : Memory.wf m = true) : Memory.wf (bytesSet m a bs) = true := by
  induction bs generalizing m a with
  | nil => exact h
  | cons b rest ih => exact ih _ _ (byteSet_wf _ _ _ h)

/-- Two memories in canonical form that read alike are the same memory. -/
theorem memory_ext (m n : List Host.Cell) (hm : Memory.wf m = true) (hn : Memory.wf n = true) (h : ∀ a, byteAt m a = byteAt n a) : m = n := by
  rw [memory_wf_iff] at hm hn
  induction m generalizing n with
  | nil =>
    cases n with
    | nil => rfl
    | cons d rest =>
      have := h d.1
      simp only [byteAt, mapGet, Option.getD_none, if_true, Option.getD_some] at this
      exact absurd this.symm (hn.2 d (List.mem_cons_self ..))
  | cons c rest ih =>
    obtain ⟨i, x⟩ := c
    have hc := (mapRising_cons i x rest).1 hm.1
    have hx : x ≠ 0 := hm.2 (i, x) (List.mem_cons_self ..)
    cases n with
    | nil =>
      have := h i
      simp only [byteAt, mapGet, Option.getD_none, if_true, Option.getD_some] at this
      exact absurd this hx
    | cons d rest' =>
      obtain ⟨j, y⟩ := d
      have hd := (mapRising_cons j y rest').1 hn.1
      have hy : y ≠ 0 := hn.2 (j, y) (List.mem_cons_self ..)
      have hij : i = j := by
        rcases Nat.lt_trichotomy i j with hlt | heq | hlt
        · have h1 := h i
          rw [byteAt, byteAt, mapGet_none_of_below ((j, y) :: rest') i (by
            intro c hcm; rcases List.mem_cons.1 hcm with rfl | hcm
            · exact hlt
            · exact hlt.trans (hd.1 c hcm))] at h1
          simp only [mapGet, if_true, Option.getD_some, Option.getD_none] at h1
          exact absurd h1 hx
        · exact heq
        · have h1 := h j
          rw [byteAt, byteAt, mapGet_none_of_below ((i, x) :: rest) j (by
            intro c hcm; rcases List.mem_cons.1 hcm with rfl | hcm
            · exact hlt
            · exact hlt.trans (hc.1 c hcm))] at h1
          simp only [mapGet, if_true, Option.getD_some, Option.getD_none] at h1
          exact absurd h1.symm hy
      subst hij
      have hxy : x = y := by simpa [byteAt, mapGet] using h i
      subst hxy
      congr 1
      refine ih rest' ⟨hc.2, fun c hcm => hm.2 c (List.mem_cons_of_mem _ hcm)⟩
        ⟨hd.2, fun c hcm => hn.2 c (List.mem_cons_of_mem _ hcm)⟩ fun a => ?_
      by_cases ha : i = a
      · subst ha
        rw [byteAt, byteAt, mapGet_none_of_below rest i hc.1, mapGet_none_of_below rest' i hd.1]
      · simpa [byteAt, mapGet, ha] using h a

/-! ## The home L2s -/

@[simp] theorem l2Write_mem (s : State) (a : Nat) (v : Byte) : (l2Write s a v).mem = byteSet s.mem a v := rfl
theorem l2Write_teams (s : State) (a : Nat) (v : Byte) :
    (l2Write s a v).teams = s.teams.map fun t => { t with groups := t.groups.map fun g => g.clearLine (a / 64) } := rfl

theorem l2Write_wf (s : State) (a : Nat) (v : Byte) (h : memWf s = true) : memWf (l2Write s a v) = true := byteSet_wf _ _ _ h

theorem l2Read_l2Write (s : State) (a b : Nat) (v : Byte) (h : memWf s = true) :
    l2Read (l2Write s a v) b = if a = b then v else l2Read s b := byteAt_byteSet _ _ _ _ h

theorem l2WriteBytes_wf (bs : List Byte) (s : State) (a : Nat) (h : memWf s = true) : memWf (l2WriteBytes s a bs) = true := by
  induction bs generalizing s a with
  | nil => exact h
  | cons b rest ih => exact ih _ _ (l2Write_wf _ _ _ h)

theorem l2Write64_wf (s : State) (a : Nat) (v : DWord) (h : memWf s = true) : memWf (l2Write64 s a v) = true := l2WriteBytes_wf _ _ _ h

theorem l2Writes_wf (pas : List Nat) (bs : List Byte) (s : State) (h : memWf s = true) : memWf (l2Writes s pas bs) = true := by
  induction pas generalizing bs s with
  | nil => simpa [l2Writes] using h
  | cons a rest ih =>
    cases bs with
    | nil => simpa [l2Writes] using h
    | cons b bs => exact ih _ _ (l2Write_wf _ _ _ h)

/-- A write of bytes leaves every other byte alone. -/
theorem l2Read_l2Writes_other (pas : List Nat) (bs : List Byte) (s : State) (x : Nat) (hw : memWf s = true) (h : ∀ a ∈ pas, a ≠ x) :
    l2Read (l2Writes s pas bs) x = l2Read s x := by
  induction pas generalizing bs s with
  | nil => simp [l2Writes]
  | cons a rest ih =>
    cases bs with
    | nil => simp [l2Writes]
    | cons b bs =>
      rw [l2Writes, ih _ _ (l2Write_wf _ _ _ hw) fun p hp => h p (List.mem_cons_of_mem _ hp), l2Read_l2Write _ _ _ _ hw,
        if_neg (h a (List.mem_cons_self ..))]

/-! ## The L1s -/

theorem flushBytes_wf (bs : List (Nat × Byte × Bool)) (s : State) (ln : Nat) (h : memWf s = true) : memWf (flushBytes s ln bs) = true := by
  induction bs generalizing s with
  | nil => exact h
  | cons b rest ih =>
    obtain ⟨o, v, d⟩ := b
    cases d
    · exact ih _ h
    · exact ih _ (l2Write_wf _ _ _ h)

theorem foldl_wf {α : Type} (f : State → α → State) (hf : ∀ s x, memWf s = true → memWf (f s x) = true) (l : List α) (s : State)
    (h : memWf s = true) : memWf (l.foldl f s) = true := by
  induction l generalizing s with
  | nil => exact h
  | cons x rest ih => exact ih _ (hf _ _ h)

theorem writeBackOne_wf (s : State) (c ln : Nat) (h : memWf s = true) : memWf (writeBackOne s c ln) = true := by
  unfold writeBackOne
  split
  · exact h
  · exact flushBytes_wf _ _ _ h

theorem writeBackLine_wf (s : State) (c ln : Nat) (h : memWf s = true) : memWf (writeBackLine s c ln) = true :=
  foldl_wf _ (fun s k hs => writeBackOne_wf s c k hs) _ _ h

theorem dropLine_wf (s : State) (c ln : Nat) (h : memWf s = true) : memWf (dropLine s c ln) = true := by
  unfold dropLine
  split
  · exact h
  · exact writeBackLine_wf s c ln h

theorem writeBackAll_wf (s : State) (c : Nat) (h : memWf s = true) : memWf (writeBackAll s c) = true :=
  foldl_wf _ (fun s ln hs => writeBackLine_wf s c ln hs) _ _ h
theorem dropAll_wf (s : State) (c : Nat) (h : memWf s = true) : memWf (dropAll s c) = true :=
  foldl_wf _ (fun s ln hs => dropLine_wf s c ln hs) _ _ h
theorem dropLines_wf (s : State) (c : Nat) (pas : List Nat) (h : memWf s = true) : memWf (dropLines s c pas) = true :=
  foldl_wf _ (fun s pa hs => dropLine_wf s c (pa / 64) hs) _ _ h

theorem makeRoom_wf (s : State) (c ln : Nat) (h : memWf s = true) : memWf (makeRoom s c ln) = true := by
  unfold makeRoom
  simp only []
  split
  · exact h
  · exact dropLine_wf _ _ _ h

theorem coreStore_wf (s : State) (c a : Nat) (v : Byte) (h : memWf s = true) : memWf (coreStore s c a v) = true := by
  unfold coreStore
  split
  · show memWf (match (s.core c).line? (a / 64) with | some _ => s | none => makeRoom s c (a / 64)) = true
    split
    · exact h
    · exact makeRoom_wf _ _ _ h
  · exact l2Write_wf _ _ _ h

theorem coreStores_wf (pas : List Nat) (bs : List Byte) (s : State) (c : Nat) (h : memWf s = true) : memWf (coreStores s c pas bs) = true := by
  induction pas generalizing bs s with
  | nil => simpa [coreStores] using h
  | cons a rest ih =>
    cases bs with
    | nil => simpa [coreStores] using h
    | cons b bs => exact ih _ _ (coreStore_wf _ _ _ _ h)

theorem coreFill_wf (s : State) (c a : Nat) (h : memWf s = true) : memWf (coreFill s c a) = true := by
  unfold coreFill
  split
  · split
    · split
      · exact h
      · exact h
    · exact makeRoom_wf s c (a / 64) h
  · exact h

theorem coreTouch_wf (s : State) (c a : Nat) (h : memWf s = true) : memWf (coreTouch s c a) = true := by
  unfold coreTouch
  apply coreFill_wf
  split
  · exact h
  · exact h

/-! ## Hawk and column -/

theorem Team.setLocal_wf (t : Team) (o : Nat) (v : Byte) (h : teamMemWf t = true) : teamMemWf (t.setLocal o v) = true := by
  simp only [teamMemWf, Bool.and_eq_true] at h ⊢
  unfold Team.setLocal
  split
  · exact ⟨byteSet_wf _ _ _ h.1, h.2⟩
  · exact ⟨h.1, byteSet_wf _ _ _ h.2⟩

theorem Team.setLocals_wf (bs : List Byte) (t : Team) (o : Nat) (h : teamMemWf t = true) : teamMemWf (t.setLocals o bs) = true := by
  induction bs generalizing t o with
  | nil => exact h
  | cons b rest ih => exact ih _ _ (Team.setLocal_wf _ _ _ h)

theorem Team.localByte_setLocal (t : Team) (o x : Nat) (v : Byte) (h : teamMemWf t = true) :
    (t.setLocal o v).localByte x = if o = x then v else t.localByte x := by
  simp only [teamMemWf, Bool.and_eq_true] at h
  unfold Team.setLocal Team.localByte
  by_cases ho : o < columnBase <;> by_cases hx : x < columnBase
  · simp [ho, hx, byteAt_byteSet _ _ _ _ h.1]
  · simp only [ho, hx, if_true, if_false]; rw [if_neg (by omega)]
  · simp only [ho, hx, if_true, if_false]; rw [if_neg (by omega)]
  · simp only [ho, hx, if_false]
    rw [byteAt_byteSet _ _ _ _ h.2]
    by_cases he : o = x
    · simp [he]
    · rw [if_neg (by omega), if_neg he]

/-! ## Reset -/

theorem reset_memWf : memWf State.reset = true := rfl

end Sys2Proof.Machine
end

