-- ==== Sys2Proof/Laws/PerInstr.lean ====
section
/-! SUPPORT. The family `Coding` of statements about every instruction as syntax, one lemma for each row of the opcode
table: an encoded row has a word, an event has none. -/

namespace Sys2Proof.Laws.Coding

/-- The rows of the table that are events (those without an encoding there). -/
def eventRow (i : Instr) : Bool :=
  match i with
  | .perstNRelease | .packageReset | .powerRemoved | .junctionOvertemp | .recovery | .firmwareLoad | .attestationRequest
  | .lathRegisterWrite | .lathMemoryRead | .lathMemoryWrite | .lathMemoryCas | .lathAck | .lathNak | .lathResendTimeout
  | .colclkWrite | .colclkRatioApply | .qptrTailWrite | .qctlRetry | .qctlCancel | .xlatinvPage | .xlatinvAsid
  | .xlatinvAll | .xlatinvDone | .swapGo | .swapDone | .xctlPreempt | .xctlRestore | .xctlAbort | .vgateRequest
  | .vgateGated | .vgateUngate | .vgateUngateDone | .scrimidWrite | .windowEntryWrite | .linkstEnClear | .linkstEnSet
  | .linkTrainingEnd | .linkError | .pwrlimWrite | .powerIntervalEnd | .dispatcherTakeRecord | .leasePinAttempt
  | .placeTeam | .translationWalk | .spawnBinLaunch | .roleReassignment | .localityWindowEnd | .loadTokenReturn
  | .wfRelease | .feTimeout | .spawnStall | .regsClaimGrant | .regsTimeout | .hodBusy | .beadBusy | .vfifoGated
  | .vfifoWaitEnd | .hodCommandRun | .hodChainRecord | .beadOperationRun | .trapEntry | .snapRelease | .teamEnd
  | .gridEnd | .graphNodeStart | .graphCopyRetire | .graphEnd | .flitForward | .reflectionArrival | .reflectionTimeout
  | .collHeaderCheck | .collChunkStep | .collResultWrite | .collAbortReceive | .collTimeout | .verticalRepair | .repairFreezeEnd
  | .uncorrectableRead | .retryReadResult | .l1LineAgeExpiry => true
  | _ => false

/-- An instruction has a word exactly when its row is no event. -/
def Statement (i : Instr) : Prop := isEvent i = eventRow i

theorem bra (x0 : BitVec 4) (x1 : BitVec 22) : Statement (.bra x0 x1) := rfl
theorem call (x0 : BitVec 4) (x1 : BitVec 22) : Statement (.call x0 x1) := rfl
theorem rpush (x0 : BitVec 22) : Statement (.rpush x0) := rfl
theorem bri (x0 : BitVec 7) : Statement (.bri x0) := rfl
theorem calli (x0 : BitVec 7) (x1 : BitVec 7) : Statement (.calli x0 x1) := rfl
theorem ret (x0 : BitVec 7) : Statement (.ret x0) := rfl
theorem regang : Statement .regang := rfl
theorem exit : Statement .exit := rfl
theorem brk : Statement .brk := rfl
theorem nop : Statement .nop := rfl
theorem trap (x0 : BitVec 12) : Statement (.trap x0) := rfl
theorem mfs (x0 : BitVec 7) (x1 : BitVec 12) : Statement (.mfs x0 x1) := rfl
theorem mts (x0 : BitVec 7) (x1 : BitVec 12) : Statement (.mts x0 x1) := rfl
theorem mstld (x0 : BitVec 7) : Statement (.mstld x0) := rfl
theorem hret : Statement .hret := rfl
theorem add (x0 : BitVec 1) (x1 : BitVec 7) (x2 : BitVec 7) (x3 : BitVec 7) : Statement (.add x0 x1 x2 x3) := rfl
theorem sub (x0 : BitVec 1) (x1 : BitVec 7) (x2 : BitVec 7) (x3 : BitVec 7) : Statement (.sub x0 x1 x2 x3) := rfl
theorem addsat (x0 : BitVec 1) (x1 : BitVec 1) (x2 : BitVec 7) (x3 : BitVec 7) (x4 : BitVec 7) : Statement (.addsat x0 x1 x2 x3 x4) := rfl
theorem subsat (x0 : BitVec 1) (x1 : BitVec 1) (x2 : BitVec 7) (x3 : BitVec 7) (x4 : BitVec 7) : Statement (.subsat x0 x1 x2 x3 x4) := rfl
theorem min (x0 : BitVec 1) (x1 : BitVec 1) (x2 : BitVec 7) (x3 : BitVec 7) (x4 : BitVec 7) : Statement (.min x0 x1 x2 x3 x4) := rfl
theorem max (x0 : BitVec 1) (x1 : BitVec 1) (x2 : BitVec 7) (x3 : BitVec 7) (x4 : BitVec 7) : Statement (.max x0 x1 x2 x3 x4) := rfl
theorem abs (x0 : BitVec 1) (x1 : BitVec 7) (x2 : BitVec 7) : Statement (.abs x0 x1 x2) := rfl
theorem neg (x0 : BitVec 1) (x1 : BitVec 7) (x2 : BitVec 7) : Statement (.neg x0 x1 x2) := rfl
theorem mov (x0 : BitVec 1) (x1 : BitVec 7) (x2 : BitVec 7) : Statement (.mov x0 x1 x2) := rfl
theorem addi (x0 : BitVec 7) (x1 : BitVec 7) (x2 : BitVec 12) : Statement (.addi x0 x1 x2) := rfl
theorem and (x0 : BitVec 7) (x1 : BitVec 7) (x2 : BitVec 7) : Statement (.and x0 x1 x2) := rfl
theorem or (x0 : BitVec 7) (x1 : BitVec 7) (x2 : BitVec 7) : Statement (.or x0 x1 x2) := rfl
theorem xor (x0 : BitVec 7) (x1 : BitVec 7) (x2 : BitVec 7) : Statement (.xor x0 x1 x2) := rfl
theorem andn (x0 : BitVec 7) (x1 : BitVec 7) (x2 : BitVec 7) : Statement (.andn x0 x1 x2) := rfl
theorem orn (x0 : BitVec 7) (x1 : BitVec 7) (x2 : BitVec 7) : Statement (.orn x0 x1 x2) := rfl
theorem not (x0 : BitVec 7) (x1 : BitVec 7) : Statement (.not x0 x1) := rfl
theorem shl (x0 : BitVec 7) (x1 : BitVec 7) (x2 : BitVec 7) : Statement (.shl x0 x1 x2) := rfl
theorem shrU (x0 : BitVec 7) (x1 : BitVec 7) (x2 : BitVec 7) : Statement (.shrU x0 x1 x2) := rfl
theorem shrS (x0 : BitVec 7) (x1 : BitVec 7) (x2 : BitVec 7) : Statement (.shrS x0 x1 x2) := rfl
theorem rol (x0 : BitVec 7) (x1 : BitVec 7) (x2 : BitVec 7) : Statement (.rol x0 x1 x2) := rfl
theorem ror (x0 : BitVec 7) (x1 : BitVec 7) (x2 : BitVec 7) : Statement (.ror x0 x1 x2) := rfl
theorem shl64 (x0 : BitVec 7) (x1 : BitVec 7) (x2 : BitVec 7) : Statement (.shl64 x0 x1 x2) := rfl
theorem shr64U (x0 : BitVec 7) (x1 : BitVec 7) (x2 : BitVec 7) : Statement (.shr64U x0 x1 x2) := rfl
theorem shr64S (x0 : BitVec 7) (x1 : BitVec 7) (x2 : BitVec 7) : Statement (.shr64S x0 x1 x2) := rfl
theorem popc (x0 : BitVec 7) (x1 : BitVec 7) : Statement (.popc x0 x1) := rfl
theorem clz (x0 : BitVec 7) (x1 : BitVec 7) : Statement (.clz x0 x1) := rfl
theorem ctz (x0 : BitVec 7) (x1 : BitVec 7) : Statement (.ctz x0 x1) := rfl
theorem brev (x0 : BitVec 7) (x1 : BitVec 7) : Statement (.brev x0 x1) := rfl
theorem fldxU (x0 : BitVec 7) (x1 : BitVec 7) (x2 : BitVec 7) : Statement (.fldxU x0 x1 x2) := rfl
theorem fldxS (x0 : BitVec 7) (x1 : BitVec 7) (x2 : BitVec 7) : Statement (.fldxS x0 x1 x2) := rfl
theorem fldi (x0 : BitVec 7) (x1 : BitVec 7) (x2 : BitVec 7) : Statement (.fldi x0 x1 x2) := rfl
theorem bysel (x0 : BitVec 7) (x1 : BitVec 7) (x2 : BitVec 7) : Statement (.bysel x0 x1 x2) := rfl
theorem mul (x0 : BitVec 7) (x1 : BitVec 7) (x2 : BitVec 7) : Statement (.mul x0 x1 x2) := rfl
theorem mulhiS (x0 : BitVec 7) (x1 : BitVec 7) (x2 : BitVec 7) : Statement (.mulhiS x0 x1 x2) := rfl
theorem mulhiU (x0 : BitVec 7) (x1 : BitVec 7) (x2 : BitVec 7) : Statement (.mulhiU x0 x1 x2) := rfl
theorem mulwS (x0 : BitVec 7) (x1 : BitVec 7) (x2 : BitVec 7) : Statement (.mulwS x0 x1 x2) := rfl
theorem mulwU (x0 : BitVec 7) (x1 : BitVec 7) (x2 : BitVec 7) : Statement (.mulwU x0 x1 x2) := rfl
theorem mad (x0 : BitVec 7) (x1 : BitVec 7) (x2 : BitVec 7) : Statement (.mad x0 x1 x2) := rfl
theorem mul64 (x0 : BitVec 7) (x1 : BitVec 7) (x2 : BitVec 7) : Statement (.mul64 x0 x1 x2) := rfl
theorem mulhi64S (x0 : BitVec 7) (x1 : BitVec 7) (x2 : BitVec 7) : Statement (.mulhi64S x0 x1 x2) := rfl
theorem mulhi64U (x0 : BitVec 7) (x1 : BitVec 7) (x2 : BitVec 7) : Statement (.mulhi64U x0 x1 x2) := rfl
theorem divS (x0 : BitVec 7) (x1 : BitVec 7) (x2 : BitVec 7) : Statement (.divS x0 x1 x2) := rfl
theorem divU (x0 : BitVec 7) (x1 : BitVec 7) (x2 : BitVec 7) : Statement (.divU x0 x1 x2) := rfl
theorem remS (x0 : BitVec 7) (x1 : BitVec 7) (x2 : BitVec 7) : Statement (.remS x0 x1 x2) := rfl
theorem remU (x0 : BitVec 7) (x1 : BitVec 7) (x2 : BitVec 7) : Statement (.remU x0 x1 x2) := rfl
theorem div64S (x0 : BitVec 7) (x1 : BitVec 7) (x2 : BitVec 7) : Statement (.div64S x0 x1 x2) := rfl
theorem div64U (x0 : BitVec 7) (x1 : BitVec 7) (x2 : BitVec 7) : Statement (.div64U x0 x1 x2) := rfl
theorem rem64S (x0 : BitVec 7) (x1 : BitVec 7) (x2 : BitVec 7) : Statement (.rem64S x0 x1 x2) := rfl
theorem rem64U (x0 : BitVec 7) (x1 : BitVec 7) (x2 : BitVec 7) : Statement (.rem64U x0 x1 x2) := rfl
theorem icmp (x0 : BitVec 2) (x1 : BitVec 3) (x2 : BitVec 3) (x3 : BitVec 7) (x4 : BitVec 7) : Statement (.icmp x0 x1 x2 x3 x4) := rfl
theorem lea (x0 : BitVec 5) (x1 : BitVec 7) (x2 : BitVec 7) (x3 : BitVec 7) : Statement (.lea x0 x1 x2 x3) := rfl
theorem pand (x0 : BitVec 3) (x1 : BitVec 1) (x2 : BitVec 3) (x3 : BitVec 1) (x4 : BitVec 3) : Statement (.pand x0 x1 x2 x3 x4) := rfl
theorem por (x0 : BitVec 3) (x1 : BitVec 1) (x2 : BitVec 3) (x3 : BitVec 1) (x4 : BitVec 3) : Statement (.por x0 x1 x2 x3 x4) := rfl
theorem pxor (x0 : BitVec 3) (x1 : BitVec 1) (x2 : BitVec 3) (x3 : BitVec 1) (x4 : BitVec 3) : Statement (.pxor x0 x1 x2 x3 x4) := rfl
theorem pmov (x0 : BitVec 3) (x1 : BitVec 1) (x2 : BitVec 3) : Statement (.pmov x0 x1 x2) := rfl
theorem ptov (x0 : BitVec 7) (x1 : BitVec 1) (x2 : BitVec 3) : Statement (.ptov x0 x1 x2) := rfl
theorem vtop (x0 : BitVec 3) (x1 : BitVec 7) : Statement (.vtop x0 x1) := rfl
theorem lxgSel (x0 : BitVec 7) (x1 : BitVec 7) (x2 : BitVec 7) : Statement (.lxgSel x0 x1 x2) := rfl
theorem lxgBelow (x0 : BitVec 7) (x1 : BitVec 7) (x2 : BitVec 7) : Statement (.lxgBelow x0 x1 x2) := rfl
theorem lxgAbove (x0 : BitVec 7) (x1 : BitVec 7) (x2 : BitVec 7) : Statement (.lxgAbove x0 x1 x2) := rfl
theorem lxgFlip (x0 : BitVec 7) (x1 : BitVec 7) (x2 : BitVec 7) : Statement (.lxgFlip x0 x1 x2) := rfl
theorem ltestAll (x0 : BitVec 3) (x1 : BitVec 1) (x2 : BitVec 3) : Statement (.ltestAll x0 x1 x2) := rfl
theorem ltestAny (x0 : BitVec 3) (x1 : BitVec 1) (x2 : BitVec 3) : Statement (.ltestAny x0 x1 x2) := rfl
theorem ltestSame (x0 : BitVec 3) (x1 : BitVec 1) (x2 : BitVec 3) : Statement (.ltestSame x0 x1 x2) := rfl
theorem pgath (x0 : BitVec 7) (x1 : BitVec 1) (x2 : BitVec 3) : Statement (.pgath x0 x1 x2) := rfl
theorem leqm (x0 : BitVec 7) (x1 : BitVec 7) : Statement (.leqm x0 x1) := rfl
theorem lfoldAdd (x0 : BitVec 7) (x1 : BitVec 7) : Statement (.lfoldAdd x0 x1) := rfl
theorem lfoldMin (x0 : BitVec 1) (x1 : BitVec 7) (x2 : BitVec 7) : Statement (.lfoldMin x0 x1 x2) := rfl
theorem lfoldMax (x0 : BitVec 1) (x1 : BitVec 7) (x2 : BitVec 7) : Statement (.lfoldMax x0 x1 x2) := rfl
theorem mmaskr (x0 : BitVec 7) : Statement (.mmaskr x0) := rfl
theorem mmaskw (x0 : BitVec 7) : Statement (.mmaskw x0) := rfl
theorem mtestAll (x0 : BitVec 3) (x1 : BitVec 1) (x2 : BitVec 3) : Statement (.mtestAll x0 x1 x2) := rfl
theorem mtestAny (x0 : BitVec 3) (x1 : BitVec 1) (x2 : BitVec 3) : Statement (.mtestAny x0 x1 x2) := rfl
theorem mpick (x0 : BitVec 7) (x1 : BitVec 7) (x2 : BitVec 7) : Statement (.mpick x0 x1 x2) := rfl
theorem regroup (x0 : BitVec 7) : Statement (.regroup x0) := rfl
theorem role (x0 : BitVec 7) : Statement (.role x0) := rfl
theorem regsGive (x0 : BitVec 7) (x1 : BitVec 7) : Statement (.regsGive x0 x1) := rfl
theorem regsClaim (x0 : BitVec 7) : Statement (.regsClaim x0) := rfl
theorem fadd (x0 : BitVec 2) (x1 : BitVec 3) (x2 : BitVec 7) (x3 : BitVec 7) (x4 : BitVec 7) : Statement (.fadd x0 x1 x2 x3 x4) := rfl
theorem fsub (x0 : BitVec 2) (x1 : BitVec 3) (x2 : BitVec 7) (x3 : BitVec 7) (x4 : BitVec 7) : Statement (.fsub x0 x1 x2 x3 x4) := rfl
theorem fmul (x0 : BitVec 2) (x1 : BitVec 3) (x2 : BitVec 7) (x3 : BitVec 7) (x4 : BitVec 7) : Statement (.fmul x0 x1 x2 x3 x4) := rfl
theorem fma (x0 : BitVec 2) (x1 : BitVec 3) (x2 : BitVec 7) (x3 : BitVec 7) (x4 : BitVec 7) : Statement (.fma x0 x1 x2 x3 x4) := rfl
theorem fmin (x0 : BitVec 2) (x1 : BitVec 7) (x2 : BitVec 7) (x3 : BitVec 7) : Statement (.fmin x0 x1 x2 x3) := rfl
theorem fmax (x0 : BitVec 2) (x1 : BitVec 7) (x2 : BitVec 7) (x3 : BitVec 7) : Statement (.fmax x0 x1 x2 x3) := rfl
theorem fabs (x0 : BitVec 2) (x1 : BitVec 7) (x2 : BitVec 7) : Statement (.fabs x0 x1 x2) := rfl
theorem fneg (x0 : BitVec 2) (x1 : BitVec 7) (x2 : BitVec 7) : Statement (.fneg x0 x1 x2) := rfl
theorem fcpys (x0 : BitVec 2) (x1 : BitVec 7) (x2 : BitVec 7) (x3 : BitVec 7) : Statement (.fcpys x0 x1 x2 x3) := rfl
theorem fclass (x0 : BitVec 2) (x1 : BitVec 7) (x2 : BitVec 7) : Statement (.fclass x0 x1 x2) := rfl
theorem fscale (x0 : BitVec 2) (x1 : BitVec 7) (x2 : BitVec 7) (x3 : BitVec 7) : Statement (.fscale x0 x1 x2 x3) := rfl
theorem fcmp (x0 : BitVec 3) (x1 : BitVec 2) (x2 : BitVec 3) (x3 : BitVec 7) (x4 : BitVec 7) : Statement (.fcmp x0 x1 x2 x3 x4) := rfl
theorem cvt (x0 : BitVec 4) (x1 : BitVec 7) (x2 : BitVec 7) (x3 : BitVec 4) (x4 : BitVec 3) : Statement (.cvt x0 x1 x2 x3 x4) := rfl
theorem packMx8 (x0 : BitVec 1) (x1 : BitVec 7) (x2 : BitVec 7) (x3 : BitVec 3) : Statement (.packMx8 x0 x1 x2 x3) := rfl
theorem packMx4 (x0 : BitVec 7) (x1 : BitVec 7) (x2 : BitVec 3) : Statement (.packMx4 x0 x1 x2) := rfl
theorem packTb4 (x0 : BitVec 7) (x1 : BitVec 7) (x2 : BitVec 3) : Statement (.packTb4 x0 x1 x2) := rfl
theorem unpkMx8 (x0 : BitVec 1) (x1 : BitVec 7) (x2 : BitVec 7) (x3 : BitVec 3) : Statement (.unpkMx8 x0 x1 x2 x3) := rfl
theorem unpkMx4 (x0 : BitVec 7) (x1 : BitVec 7) (x2 : BitVec 3) : Statement (.unpkMx4 x0 x1 x2) := rfl
theorem unpkTb4 (x0 : BitVec 7) (x1 : BitVec 7) (x2 : BitVec 3) : Statement (.unpkTb4 x0 x1 x2) := rfl
theorem rcp (x0 : BitVec 7) (x1 : BitVec 7) (x2 : BitVec 3) : Statement (.rcp x0 x1 x2) := rfl
theorem rsq (x0 : BitVec 7) (x1 : BitVec 7) (x2 : BitVec 3) : Statement (.rsq x0 x1 x2) := rfl
theorem sqrt (x0 : BitVec 7) (x1 : BitVec 7) (x2 : BitVec 3) : Statement (.sqrt x0 x1 x2) := rfl
theorem exp2 (x0 : BitVec 7) (x1 : BitVec 7) (x2 : BitVec 3) : Statement (.exp2 x0 x1 x2) := rfl
theorem log2 (x0 : BitVec 7) (x1 : BitVec 7) (x2 : BitVec 3) : Statement (.log2 x0 x1 x2) := rfl
theorem sinpi (x0 : BitVec 7) (x1 : BitVec 7) (x2 : BitVec 3) : Statement (.sinpi x0 x1 x2) := rfl
theorem cospi (x0 : BitVec 7) (x1 : BitVec 7) (x2 : BitVec 3) : Statement (.cospi x0 x1 x2) := rfl
theorem lacAdd (x0 : BitVec 2) (x1 : BitVec 2) (x2 : BitVec 7) : Statement (.lacAdd x0 x1 x2) := rfl
theorem lacClr (x0 : BitVec 2) : Statement (.lacClr x0) := rfl
theorem lacClrBind (x0 : BitVec 2) (x1 : BitVec 7) : Statement (.lacClrBind x0 x1) := rfl
theorem lacMrg (x0 : BitVec 2) (x1 : BitVec 2) : Statement (.lacMrg x0 x1) := rfl
theorem lacRnd (x0 : BitVec 7) (x1 : BitVec 2) (x2 : BitVec 4) (x3 : BitVec 3) : Statement (.lacRnd x0 x1 x2 x3) := rfl
theorem lacLd (x0 : BitVec 2) (x1 : BitVec 7) : Statement (.lacLd x0 x1) := rfl
theorem lacSt (x0 : BitVec 2) (x1 : BitVec 7) : Statement (.lacSt x0 x1) := rfl
theorem maxi (x0 : BitVec 3) (x1 : BitVec 7) (x2 : BitVec 7) (x3 : BitVec 7) : Statement (.maxi x0 x1 x2 x3) := rfl
theorem mini (x0 : BitVec 3) (x1 : BitVec 7) (x2 : BitVec 7) (x3 : BitVec 7) : Statement (.mini x0 x1 x2 x3) := rfl
theorem topk (x0 : BitVec 3) (x1 : BitVec 7) (x2 : BitVec 7) (x3 : BitVec 7) : Statement (.topk x0 x1 x2 x3) := rfl
theorem topkm (x0 : BitVec 3) (x1 : BitVec 7) (x2 : BitVec 7) (x3 : BitVec 7) : Statement (.topkm x0 x1 x2 x3) := rfl
theorem estatMean (x0 : BitVec 7) (x1 : BitVec 7) (x2 : BitVec 1) (x3 : BitVec 3) : Statement (.estatMean x0 x1 x2 x3) := rfl
theorem estatSprd (x0 : BitVec 7) (x1 : BitVec 7) (x2 : BitVec 1) (x3 : BitVec 3) : Statement (.estatSprd x0 x1 x2 x3) := rfl
theorem estatRank (x0 : BitVec 7) (x1 : BitVec 7) (x2 : BitVec 1) : Statement (.estatRank x0 x1 x2) := rfl
theorem estatQnt (x0 : BitVec 7) (x1 : BitVec 7) (x2 : BitVec 1) : Statement (.estatQnt x0 x1 x2) := rfl
theorem ld (x0 : BitVec 3) (x1 : BitVec 7) (x2 : BitVec 7) (x3 : BitVec 9) : Statement (.ld x0 x1 x2 x3) := rfl
theorem st (x0 : BitVec 3) (x1 : BitVec 7) (x2 : BitVec 7) (x3 : BitVec 9) : Statement (.st x0 x1 x2 x3) := rfl
theorem ldAcq (x0 : BitVec 3) (x1 : BitVec 7) (x2 : BitVec 7) (x3 : BitVec 3) (x4 : BitVec 6) : Statement (.ldAcq x0 x1 x2 x3 x4) := rfl
theorem stRel (x0 : BitVec 3) (x1 : BitVec 7) (x2 : BitVec 7) (x3 : BitVec 3) (x4 : BitVec 6) : Statement (.stRel x0 x1 x2 x3 x4) := rfl
theorem ldh (x0 : BitVec 3) (x1 : BitVec 7) (x2 : BitVec 7) (x3 : BitVec 7) : Statement (.ldh x0 x1 x2 x3) := rfl
theorem ldhWfKeep (x0 : BitVec 3) (x1 : BitVec 7) (x2 : BitVec 7) (x3 : BitVec 7) : Statement (.ldhWfKeep x0 x1 x2 x3) := rfl
theorem ldhWfClr (x0 : BitVec 3) (x1 : BitVec 7) (x2 : BitVec 7) (x3 : BitVec 7) : Statement (.ldhWfClr x0 x1 x2 x3) := rfl
theorem sth (x0 : BitVec 3) (x1 : BitVec 7) (x2 : BitVec 7) (x3 : BitVec 7) : Statement (.sth x0 x1 x2 x3) := rfl
theorem sthF (x0 : BitVec 3) (x1 : BitVec 7) (x2 : BitVec 7) (x3 : BitVec 7) : Statement (.sthF x0 x1 x2 x3) := rfl
theorem atomAdd (x0 : BitVec 1) (x1 : BitVec 7) (x2 : BitVec 7) (x3 : BitVec 7) : Statement (.atomAdd x0 x1 x2 x3) := rfl
theorem atomMinS (x0 : BitVec 1) (x1 : BitVec 7) (x2 : BitVec 7) (x3 : BitVec 7) : Statement (.atomMinS x0 x1 x2 x3) := rfl
theorem atomMinU (x0 : BitVec 1) (x1 : BitVec 7) (x2 : BitVec 7) (x3 : BitVec 7) : Statement (.atomMinU x0 x1 x2 x3) := rfl
theorem atomMaxS (x0 : BitVec 1) (x1 : BitVec 7) (x2 : BitVec 7) (x3 : BitVec 7) : Statement (.atomMaxS x0 x1 x2 x3) := rfl
theorem atomMaxU (x0 : BitVec 1) (x1 : BitVec 7) (x2 : BitVec 7) (x3 : BitVec 7) : Statement (.atomMaxU x0 x1 x2 x3) := rfl
theorem atomExch (x0 : BitVec 1) (x1 : BitVec 7) (x2 : BitVec 7) (x3 : BitVec 7) : Statement (.atomExch x0 x1 x2 x3) := rfl
theorem atomCas (x0 : BitVec 1) (x1 : BitVec 7) (x2 : BitVec 7) (x3 : BitVec 7) : Statement (.atomCas x0 x1 x2 x3) := rfl
theorem atomAnd (x0 : BitVec 1) (x1 : BitVec 7) (x2 : BitVec 7) (x3 : BitVec 7) : Statement (.atomAnd x0 x1 x2 x3) := rfl
theorem atomOr (x0 : BitVec 1) (x1 : BitVec 7) (x2 : BitVec 7) (x3 : BitVec 7) : Statement (.atomOr x0 x1 x2 x3) := rfl
theorem atomXor (x0 : BitVec 1) (x1 : BitVec 7) (x2 : BitVec 7) (x3 : BitVec 7) : Statement (.atomXor x0 x1 x2 x3) := rfl
theorem atomFadd (x0 : BitVec 1) (x1 : BitVec 7) (x2 : BitVec 7) (x3 : BitVec 7) : Statement (.atomFadd x0 x1 x2 x3) := rfl
theorem lr (x0 : BitVec 1) (x1 : BitVec 7) (x2 : BitVec 7) : Statement (.lr x0 x1 x2) := rfl
theorem sc (x0 : BitVec 1) (x1 : BitVec 7) (x2 : BitVec 7) (x3 : BitVec 7) : Statement (.sc x0 x1 x2 x3) := rfl
theorem ldbMx8 (x0 : BitVec 7) (x1 : BitVec 7) (x2 : BitVec 7) : Statement (.ldbMx8 x0 x1 x2) := rfl
theorem ldbMx4 (x0 : BitVec 7) (x1 : BitVec 7) (x2 : BitVec 7) : Statement (.ldbMx4 x0 x1 x2) := rfl
theorem ldbTb4 (x0 : BitVec 7) (x1 : BitVec 7) (x2 : BitVec 7) : Statement (.ldbTb4 x0 x1 x2) := rfl
theorem stbMx8 (x0 : BitVec 7) (x1 : BitVec 7) (x2 : BitVec 7) : Statement (.stbMx8 x0 x1 x2) := rfl
theorem stbMx4 (x0 : BitVec 7) (x1 : BitVec 7) (x2 : BitVec 7) : Statement (.stbMx4 x0 x1 x2) := rfl
theorem stbTb4 (x0 : BitVec 7) (x1 : BitVec 7) (x2 : BitVec 7) : Statement (.stbTb4 x0 x1 x2) := rfl
theorem ldhbMx8 (x0 : BitVec 7) (x1 : BitVec 7) (x2 : BitVec 2) : Statement (.ldhbMx8 x0 x1 x2) := rfl
theorem ldhbMx4 (x0 : BitVec 7) (x1 : BitVec 7) (x2 : BitVec 2) : Statement (.ldhbMx4 x0 x1 x2) := rfl
theorem ldhbTb4 (x0 : BitVec 7) (x1 : BitVec 7) (x2 : BitVec 2) : Statement (.ldhbTb4 x0 x1 x2) := rfl
theorem sthbMx8 (x0 : BitVec 7) (x1 : BitVec 7) (x2 : BitVec 2) : Statement (.sthbMx8 x0 x1 x2) := rfl
theorem sthbMx4 (x0 : BitVec 7) (x1 : BitVec 7) (x2 : BitVec 2) : Statement (.sthbMx4 x0 x1 x2) := rfl
theorem sthbTb4 (x0 : BitVec 7) (x1 : BitVec 7) (x2 : BitVec 2) : Statement (.sthbTb4 x0 x1 x2) := rfl
theorem fence (x0 : BitVec 3) : Statement (.fence x0) := rfl
theorem fenceX (x0 : BitVec 3) (x1 : BitVec 6) (x2 : BitVec 6) : Statement (.fenceX x0 x1 x2) := rfl
theorem fenceW : Statement .fenceW := rfl
theorem cwbL1 (x0 : BitVec 7) : Statement (.cwbL1 x0) := rfl
theorem cinvL1 (x0 : BitVec 7) : Statement (.cinvL1 x0) := rfl
theorem cwbL2 (x0 : BitVec 7) : Statement (.cwbL2 x0) := rfl
theorem prefL1 (x0 : BitVec 7) : Statement (.prefL1 x0) := rfl
theorem prefL2 (x0 : BitVec 7) : Statement (.prefL2 x0) := rfl
theorem wst (x0 : BitVec 3) (x1 : BitVec 7) (x2 : BitVec 7) (x3 : BitVec 9) : Statement (.wst x0 x1 x2 x3) := rfl
theorem hod (x0 : BitVec 7) (x1 : BitVec 7) : Statement (.hod x0 x1) := rfl
theorem hodChain (x0 : BitVec 7) : Statement (.hodChain x0) := rfl
theorem bead (x0 : BitVec 2) (x1 : BitVec 7) : Statement (.bead x0 x1) := rfl
theorem vsend (x0 : BitVec 7) : Statement (.vsend x0) := rfl
theorem vrecv (x0 : BitVec 7) : Statement (.vrecv x0) := rfl
theorem spawn (x0 : BitVec 7) (x1 : BitVec 7) : Statement (.spawn x0 x1) := rfl
theorem launch (x0 : BitVec 7) (x1 : BitVec 7) (x2 : BitVec 7) : Statement (.launch x0 x1 x2) := rfl
theorem cwset (x0 : BitVec 7) (x1 : BitVec 7) : Statement (.cwset x0 x1) := rfl
theorem barArv (x0 : BitVec 4) (x1 : BitVec 7) : Statement (.barArv x0 x1) := rfl
theorem barWt (x0 : BitVec 4) : Statement (.barWt x0) := rfl
theorem barSync (x0 : BitVec 4) (x1 : BitVec 7) : Statement (.barSync x0 x1) := rfl
theorem barSyncm (x0 : BitVec 4) (x1 : BitVec 7) (x2 : BitVec 7) : Statement (.barSyncm x0 x1 x2) := rfl
theorem snap (x0 : BitVec 4) : Statement (.snap x0) := rfl
theorem runMacro (x0 : BitVec 8) (x1 : BitVec 6) (x2 : BitVec 6) (x3 : BitVec 6) : Statement (.runMacro x0 x1 x2 x3) := rfl
theorem stall (x0 : BitVec 21) : Statement (.stall x0) := rfl
theorem imm (x0 : BitVec 22) : Statement (.imm x0) := rfl
theorem src3 (x0 : BitVec 7) : Statement (.src3 x0) := rfl
theorem guard (x0 : BitVec 3) (x1 : BitVec 1) (x2 : BitVec 3) : Statement (.guard x0 x1 x2) := rfl
theorem join : Statement .join := rfl
theorem prefetch (x0 : BitVec 2) (x1 : BitVec 7) (x2 : BitVec 13) : Statement (.prefetch x0 x1 x2) := rfl
theorem rnd (x0 : BitVec 3) : Statement (.rnd x0) := rfl
theorem tld (x0 : BitVec 4) (x1 : BitVec 3) (x2 : BitVec 4) : Statement (.tld x0 x1 x2) := rfl
theorem tldm (x0 : BitVec 4) (x1 : BitVec 4) (x2 : BitVec 1) (x3 : BitVec 4) : Statement (.tldm x0 x1 x2 x3) := rfl
theorem tst (x0 : BitVec 4) (x1 : BitVec 4) (x2 : BitVec 3) (x3 : BitVec 1) (x4 : BitVec 1) (x5 : BitVec 3) : Statement (.tst x0 x1 x2 x3 x4 x5) := rfl
theorem tcpy (x0 : BitVec 4) (x1 : BitVec 4) (x2 : BitVec 1) (x3 : BitVec 4) : Statement (.tcpy x0 x1 x2 x3) := rfl
theorem tzero (x0 : BitVec 3) (x1 : BitVec 2) : Statement (.tzero x0 x1) := rfl
theorem mma (x0 : BitVec 4) (x1 : BitVec 4) (x2 : BitVec 3) (x3 : BitVec 5) (x4 : BitVec 5) : Statement (.mma x0 x1 x2 x3 x4) := rfl
theorem tscl (x0 : BitVec 3) (x1 : BitVec 7) : Statement (.tscl x0 x1) := rfl
theorem tbias (x0 : BitVec 3) (x1 : BitVec 4) (x2 : BitVec 1) : Statement (.tbias x0 x1 x2) := rfl
theorem tact (x0 : BitVec 3) (x1 : BitVec 2) : Statement (.tact x0 x1) := rfl
theorem txpose (x0 : BitVec 3) : Statement (.txpose x0) := rfl
theorem tcvt (x0 : BitVec 3) (x1 : BitVec 3) : Statement (.tcvt x0 x1) := rfl
theorem tred (x0 : BitVec 3) (x1 : BitVec 1) : Statement (.tred x0 x1) := rfl
theorem gset (x0 : BitVec 3) (x1 : BitVec 7) : Statement (.gset x0 x1) := rfl
theorem gseed (x0 : BitVec 3) (x1 : BitVec 7) (x2 : BitVec 7) : Statement (.gseed x0 x1 x2) := rfl
theorem gorg (x0 : BitVec 3) (x1 : BitVec 7) (x2 : BitVec 7) : Statement (.gorg x0 x1 x2) := rfl
theorem tmov (x0 : BitVec 7) (x1 : BitVec 7) : Statement (.tmov x0 x1) := rfl
theorem tadd (x0 : BitVec 7) (x1 : BitVec 7) (x2 : BitVec 7) : Statement (.tadd x0 x1 x2) := rfl
theorem tsub (x0 : BitVec 7) (x1 : BitVec 7) (x2 : BitVec 7) : Statement (.tsub x0 x1 x2) := rfl
theorem tmul (x0 : BitVec 7) (x1 : BitVec 7) (x2 : BitVec 7) : Statement (.tmul x0 x1 x2) := rfl
theorem tbrnz (x0 : BitVec 4) (x1 : BitVec 14) : Statement (.tbrnz x0 x1) := rfl
theorem tbra (x0 : BitVec 14) : Statement (.tbra x0) := rfl
theorem tbarArv (x0 : BitVec 4) (x1 : BitVec 7) : Statement (.tbarArv x0 x1) := rfl
theorem tbarWt (x0 : BitVec 4) : Statement (.tbarWt x0) := rfl
theorem tend : Statement .tend := rfl
theorem mset (x0 : BitVec 4) (x1 : BitVec 7) (x2 : BitVec 7) : Statement (.mset x0 x1 x2) := rfl
theorem madv (x0 : BitVec 4) (x1 : BitVec 7) (x2 : BitVec 7) : Statement (.madv x0 x1 x2) := rfl
theorem mcpy (x0 : BitVec 4) (x1 : BitVec 7) (x2 : BitVec 2) : Statement (.mcpy x0 x1 x2) := rfl
theorem trecOn (x0 : BitVec 7) (x1 : BitVec 7) (x2 : BitVec 1) (x3 : BitVec 1) : Statement (.trecOn x0 x1 x2 x3) := rfl
theorem trecOff : Statement .trecOff := rfl
theorem trecExt (x0 : BitVec 7) (x1 : BitVec 7) : Statement (.trecExt x0 x1) := rfl
theorem trev (x0 : BitVec 7) (x1 : BitVec 7) (x2 : BitVec 1) (x3 : BitVec 1) (x4 : BitVec 1) : Statement (.trev x0 x1 x2 x3 x4) := rfl
theorem perstNRelease : Statement .perstNRelease := rfl
theorem packageReset : Statement .packageReset := rfl
theorem powerRemoved : Statement .powerRemoved := rfl
theorem junctionOvertemp : Statement .junctionOvertemp := rfl
theorem recovery : Statement .recovery := rfl
theorem firmwareLoad : Statement .firmwareLoad := rfl
theorem attestationRequest : Statement .attestationRequest := rfl
theorem lathRegisterWrite : Statement .lathRegisterWrite := rfl
theorem lathMemoryRead : Statement .lathMemoryRead := rfl
theorem lathMemoryWrite : Statement .lathMemoryWrite := rfl
theorem lathMemoryCas : Statement .lathMemoryCas := rfl
theorem lathAck : Statement .lathAck := rfl
theorem lathNak : Statement .lathNak := rfl
theorem lathResendTimeout : Statement .lathResendTimeout := rfl
theorem colclkWrite : Statement .colclkWrite := rfl
theorem colclkRatioApply : Statement .colclkRatioApply := rfl
theorem qptrTailWrite : Statement .qptrTailWrite := rfl
theorem qctlRetry : Statement .qctlRetry := rfl
theorem qctlCancel : Statement .qctlCancel := rfl
theorem xlatinvPage : Statement .xlatinvPage := rfl
theorem xlatinvAsid : Statement .xlatinvAsid := rfl
theorem xlatinvAll : Statement .xlatinvAll := rfl
theorem xlatinvDone : Statement .xlatinvDone := rfl
theorem swapGo : Statement .swapGo := rfl
theorem swapDone : Statement .swapDone := rfl
theorem xctlPreempt : Statement .xctlPreempt := rfl
theorem xctlRestore : Statement .xctlRestore := rfl
theorem xctlAbort : Statement .xctlAbort := rfl
theorem vgateRequest : Statement .vgateRequest := rfl
theorem vgateGated : Statement .vgateGated := rfl
theorem vgateUngate : Statement .vgateUngate := rfl
theorem vgateUngateDone : Statement .vgateUngateDone := rfl
theorem scrimidWrite : Statement .scrimidWrite := rfl
theorem windowEntryWrite : Statement .windowEntryWrite := rfl
theorem linkstEnClear : Statement .linkstEnClear := rfl
theorem linkstEnSet : Statement .linkstEnSet := rfl
theorem linkTrainingEnd : Statement .linkTrainingEnd := rfl
theorem linkError : Statement .linkError := rfl
theorem pwrlimWrite : Statement .pwrlimWrite := rfl
theorem powerIntervalEnd : Statement .powerIntervalEnd := rfl
theorem dispatcherTakeRecord : Statement .dispatcherTakeRecord := rfl
theorem leasePinAttempt : Statement .leasePinAttempt := rfl
theorem placeTeam : Statement .placeTeam := rfl
theorem translationWalk : Statement .translationWalk := rfl
theorem spawnBinLaunch : Statement .spawnBinLaunch := rfl
theorem roleReassignment : Statement .roleReassignment := rfl
theorem localityWindowEnd : Statement .localityWindowEnd := rfl
theorem loadTokenReturn : Statement .loadTokenReturn := rfl
theorem wfRelease : Statement .wfRelease := rfl
theorem feTimeout : Statement .feTimeout := rfl
theorem spawnStall : Statement .spawnStall := rfl
theorem regsClaimGrant : Statement .regsClaimGrant := rfl
theorem regsTimeout : Statement .regsTimeout := rfl
theorem hodBusy : Statement .hodBusy := rfl
theorem beadBusy : Statement .beadBusy := rfl
theorem vfifoGated : Statement .vfifoGated := rfl
theorem vfifoWaitEnd : Statement .vfifoWaitEnd := rfl
theorem hodCommandRun : Statement .hodCommandRun := rfl
theorem hodChainRecord : Statement .hodChainRecord := rfl
theorem beadOperationRun : Statement .beadOperationRun := rfl
theorem trapEntry : Statement .trapEntry := rfl
theorem snapRelease : Statement .snapRelease := rfl
theorem teamEnd : Statement .teamEnd := rfl
theorem gridEnd : Statement .gridEnd := rfl
theorem graphNodeStart : Statement .graphNodeStart := rfl
theorem graphCopyRetire : Statement .graphCopyRetire := rfl
theorem graphEnd : Statement .graphEnd := rfl
theorem flitForward : Statement .flitForward := rfl
theorem reflectionArrival : Statement .reflectionArrival := rfl
theorem reflectionTimeout : Statement .reflectionTimeout := rfl
theorem collHeaderCheck : Statement .collHeaderCheck := rfl
theorem collChunkStep : Statement .collChunkStep := rfl
theorem collResultWrite : Statement .collResultWrite := rfl
theorem collAbortReceive : Statement .collAbortReceive := rfl
theorem collTimeout : Statement .collTimeout := rfl
theorem verticalRepair : Statement .verticalRepair := rfl
theorem repairFreezeEnd : Statement .repairFreezeEnd := rfl
theorem uncorrectableRead : Statement .uncorrectableRead := rfl
theorem retryReadResult : Statement .retryReadResult := rfl
theorem l1LineAgeExpiry : Statement .l1LineAgeExpiry := rfl

end Sys2Proof.Laws.Coding
end

