-- ==== Sys2Proof/Laws/Traps.lean ====
section
/-! SUPPORT. What taking an exception does: the fields of the trap context, and the state that a trap of the issuing gang leaves
(R8, R364, R365). -/

namespace Sys2Proof.Machine

/-- The low part of a concatenation. -/
theorem extract_low {m n : Nat} (a : BitVec m) (b : BitVec n) : (a ++ b).extractLsb' 0 n = b := by
  ext i hi
  simp [BitVec.getLsbD_append, hi]

/-- A field of a concatenation above its low part. -/
theorem extract_high {m n k w : Nat} (a : BitVec m) (b : BitVec n) : (a ++ b).extractLsb' (n + k) w = a.extractLsb' k w := by
  ext i hi
  simp only [BitVec.getElem_extractLsb', BitVec.getLsbD_append]
  rw [if_neg (by omega)]
  congr 1; omega

/-- A bit of a concatenation above its low part. -/
theorem bit_high {m n k : Nat} (a : BitVec m) (b : BitVec n) : (a ++ b).getLsbD (n + k) = a.getLsbD k := by
  simp [BitVec.getLsbD_append]

/-- A bit of the low part of a concatenation. -/
theorem bit_low {m n k : Nat} (a : BitVec m) (b : BitVec n) (h : k < n) : (a ++ b).getLsbD k = b.getLsbD k := by
  rw [BitVec.getLsbD_append, if_pos h]

/-- The fields of TRAPCTX0 (Table 15.2). -/
theorem trapWord_fields (a : BitVec 32) (b : BitVec 4) (c : BitVec 5) (d e : BitVec 1) (f : BitVec 5) (g : BitVec 16) :
     (a ++ b ++ c ++ d ++ e ++ f ++ g).extractLsb' 0 16 = g ∧ (a ++ b ++ c ++ d ++ e ++ f ++ g).extractLsb' 16 5 = f ∧
     (a ++ b ++ c ++ d ++ e ++ f ++ g).extractLsb' 32 32 = a ∧
     (a ++ b ++ c ++ d ++ e ++ f ++ g).getLsbD 21 = e.getLsbD 0 ∧  (a ++ b ++ c ++ d ++ e ++ f ++ g).getLsbD 22 = d.getLsbD 0 ∧
     (a ++ b ++ c ++ d ++ e ++ f ++ g).extractLsb' 23 5 = c ∧ (a ++ b ++ c ++ d ++ e ++ f ++ g).extractLsb' 28 4 = b := by
  refine ⟨extract_low .., (extract_high (k := 0) ..).trans (extract_low ..), ?_, ?_, ?_, ?_, ?_⟩
  · exact (extract_high (k := 16) ..).trans ((extract_high (k := 11) ..).trans ((extract_high (k := 10) ..).trans ((extract_high (k := 9) ..).trans ((extract_high (k := 4) ..).trans ((extract_high (k := 0) ..).trans (by ext; simp))))))
  · exact (bit_high (k := 5) ..).trans ((bit_high (k := 0) ..).trans (bit_low _ _ (by decide)))
  · exact (bit_high (k := 6) ..).trans ((bit_high (k := 1) ..).trans ((bit_high (k := 0) ..).trans (bit_low _ _ (by decide))))
  · exact (extract_high (k := 7) ..).trans ((extract_high (k := 2) ..).trans ((extract_high (k := 1) ..).trans ((extract_high (k := 0) ..).trans (extract_low ..))))
  · exact (extract_high (k := 12) ..).trans ((extract_high (k := 7) ..).trans ((extract_high (k := 6) ..).trans ((extract_high (k := 5) ..).trans ((extract_high (k := 0) ..).trans (extract_low ..)))))

/-- A gang-wide instruction that a check stops traps and does nothing else (R8). -/
theorem gangWideWith_stopped {j : Instr} {s : State} {c : Issue} {t : Trap} (h1 : s.issuer = .gang c.uid c.gid c.gang)
    (h2 : issueOf s c.uid c.gid c.gang false = some c) (h3 : precheckCore j c = some t) (code pre m whole) :
    gangWideWith j code s pre m whole = .next (c.trapWith t s) := by
  simp [gangWideWith, h1, h2, h3]

/-- An instruction that a check of its own form stops traps and does nothing else (R8). -/
theorem groupInstr_stopped' {j : Instr} {s : State} {c : Issue} {t : Trap} (h1 : s.issuer = .gang c.uid c.gid c.gang)
    (h2 : issueOf s c.uid c.gid c.gang false = some c) (h3 : precheckCore j c = some t) (body : Issue → State → Res) :
    groupInstr j s body = .next (c.trapWith t s) := by
  refine groupInstr_stopped h1 h2 ?_ body
  simp [precheck, h3]

/-- A change of the issuing group alone changes nothing else. -/
theorem groupBecomes_updGroup {s : State} {c : Issue} {hint : Bool} (h : issueOf s c.uid c.gid c.gang hint = some c) (f : Group → Group)
    (hf : ∀ g, (f g).gid = g.gid) : GroupBecomes s (s.updGroup c.uid c.gid f) c (f c.group) := by
  obtain ⟨-, -, -, hg, ht, -⟩ := issueOf_group h
  have hk : c.team.group? c.gid = some c.group := by simpa [groupAt, ht] using hg
  refine ⟨rfl, fun u hu => ?_, ⟨c.team.updGroup c.gid f, ?_, rfl, fun k hk' => ?_, ?_⟩, sameMemory_updGroup _ _ _ _⟩
  · rw [State.updGroup, State.team?_updTeam _ _ _ _ (by simp)]
    cases s.team? u <;> simp [hu]
  · rw [State.updGroup, State.team?_updTeam _ _ _ _ (by simp), ht]; simp
  · rw [Team.group?_updGroup _ _ _ _ hf]
    cases c.team.group? k <;> simp [hk']
  · rw [Team.group?_updGroup _ _ _ _ hf, hk]; simp

/-- A cause that is handled enters the handler (R363, R365). -/
theorem takeCause_handled {s : State} {c : Issue} {hint : Bool} (h : issueOf s c.uid c.gid c.gang hint = some c) (hh : handles c) (w : TrapWords) (save : List Slice) :
    takeCause s c.uid c.gid w save =
      s.updGroup c.uid c.gid fun g => trapEntry g (BitVec.ofNat 57 (c.grid.gbase + c.grid.handler)) w s.clk save := by
  obtain ⟨-, -, -, hg, ht, hgr⟩ := issueOf_group h
  have hk : c.team.group? c.gid = some c.group := by simpa [groupAt, ht] using hg
  obtain ⟨h1, h2, h3⟩ := hh
  simp [takeCause, ht, hgr, hk, h1, h2, h3]

/-- The program counter of an issue is that of its lead slice. -/
theorem issueOf_fields {s : State} {u k n : Nat} {hint : Bool} {c : Issue} (h : issueOf s u k n hint = some c) :
    c.pc = (c.group.slice (c.slices.headD 0)).pc := by
  unfold issueOf at h
  split at h
  · simp at h
  · split at h
    · simp at h
    · split at h
      · simp at h
      · split at h
        · simp at h
        · simp only [Option.some.injEq] at h
          subst h
          rfl

/-- A trap of the issuing gang, before which no held cause goes, enters the handler as R365 describes it. -/
theorem trapWith_enters {j : Instr} {s : State} {c : Issue} {hint : Bool} (h : issueOf s c.uid c.gid c.gang hint = some c) (hh : handles c)
    (hn : noneHeld c) (x : Trap) (he : Machine.exec j s = .next (c.trapWith x s)) :
    EntersHandler j s c x (x.code == cSoftTrap || x.code == cBreakpoint) := by
  have hpc := issueOf_fields h
  have hsl := issueOf_slices h
  have hno : ¬ (c.mac.isSome = true ∧ c.group.held ≠ [] ∧ (!c.group.privileged) = true) := by
    rcases hn with hn | hn | hn <;> simp [hn]
  simp only [Issue.trapWith, if_neg hno] at he
  rw [takeCause_handled h hh] at he
  refine ⟨_, _, _, he, groupBecomes_updGroup h _ (fun _ => rfl), rfl, rfl, rfl, rfl, fun r => ?_, rfl, rfl, rfl, rfl, rfl, ?_⟩
  · simp only [trapEntry, Group.full_drain]; rfl
  simp only [trapEntry, Group.drain, Group.commit, TrapWords.words, nth, List.getD_cons_zero, List.getD_cons_succ]
  have hw := @trapWord_fields
  refine ⟨?_, ?_, ?_, ?_, ?_, ?_, ?_, trivial, trivial, ?_⟩
  · exact (hw ..).1
  · exact (hw ..).2.1
  · exact (hw ..).2.2.1
  · rw [(hw ..).2.2.2.1]; simp
  · rw [(hw ..).2.2.2.2.1]; cases x.pair <;> simp
  · intro p hp
    simp only [hp]
    exact ⟨(hw ..).2.2.2.2.2.1, (hw ..).2.2.2.2.2.2⟩
  · rw [extract_low, hpc]; rfl
  · intro sl hlt
    have hnew : nth (c.group.slices.map (Slice.inHandler c.group.e (BitVec.ofNat 57 (c.grid.gbase + c.grid.handler)) c.group.maxStep)) sl {} =
       Slice.inHandler c.group.e (BitVec.ofNat 57 (c.grid.gbase + c.grid.handler)) c.group.maxStep (c.group.slice sl) := by
      simp only [nth, Group.slice]
      rw [List.getD_eq_getElem _ _ (by simpa using hlt), List.getD_eq_getElem _ _ hlt, List.getElem_map]
    have hkept : nth (c.savedFor x.code) sl {} =
        if c.slices.contains sl ∧ (x.code = cSoftTrap ∨ x.code = cBreakpoint) then (c.group.slice sl).advance c.step
        else { (c.group.slice sl).rewind with redo := (c.group.inMacro sl).or (c.group.slice sl).redo } := by
      simp only [Issue.savedFor, Group.rewound, nth, Group.slice, List.mapIdx_mapIdx]
      rw [List.getD_eq_getElem _ _ (by simpa using hlt), List.getElem_mapIdx]
      simp only [Function.comp, List.getD_eq_getElem _ _ hlt]
    refine ⟨?_, ?_⟩
    · show (if _ then nth (_ : List Slice) sl {} = _ else (nth (_ : List Slice) sl {}).pc = _ ∧ (nth (_ : List Slice) sl {}).active = _ ∧ (nth (_ : List Slice) sl {}).gang = _ ∧ (nth (_ : List Slice) sl {}).exited = _ ∧ (nth (_ : List Slice) sl {}).stack = _ ∧ (nth (_ : List Slice) sl {}).spilled = _ ∧ (nth (_ : List Slice) sl {}).wait = _)
      rw [hnew]
      simp only [Slice.inHandler]
      split
      · rfl
      · exact ⟨rfl, rfl, rfl, rfl, rfl, rfl, rfl⟩
    · show (nth (c.savedFor x.code) sl {}).active = _ ∧ (nth (c.savedFor x.code) sl {}).exited = _ ∧ (nth (c.savedFor x.code) sl {}).stack = _ ∧ (_ → (nth (c.savedFor x.code) sl {}).wait = _ ∧ (nth (c.savedFor x.code) sl {}).pc = _ ∧ (nth (c.savedFor x.code) sl {}).stall = _ ∧ (nth (c.savedFor x.code) sl {}).redo = _)
      rw [hkept]
      have hafter : (x.code == cSoftTrap || x.code == cBreakpoint) = true ↔ x.code = cSoftTrap ∨ x.code = cBreakpoint := by simp
      by_cases hc : sl ∈ c.slices <;> by_cases ha : x.code = cSoftTrap ∨ x.code = cBreakpoint
      · have hb := hafter.2 ha
        simp only [List.contains_iff_mem, hc, ha, hb, and_self, if_true]
        exact ⟨rfl, rfl, rfl, fun _ => ⟨rfl, rfl, rfl, rfl⟩⟩
      · have hb : (x.code == cSoftTrap || x.code == cBreakpoint) = false := Bool.eq_false_iff.2 fun h => ha (hafter.1 h)
        simp only [List.contains_iff_mem, hc, ha, hb, and_false, if_false]
        refine ⟨rfl, rfl, rfl, fun _ => ⟨?_, rfl, rfl, rfl⟩⟩
        have hm : sl ∈ c.group.gangSlices c.gang := by rw [← hsl.1]; exact hc
        simp only [Group.gangSlices, List.mem_filter, Bool.and_eq_true] at hm
        simp only [Slice.rewind]
        revert hm; cases (c.group.slice sl).wait <;> simp
      · simp only [List.contains_iff_mem, hc, false_and, if_false]
        exact ⟨rfl, rfl, rfl, fun h => absurd h id⟩
      · simp only [List.contains_iff_mem, hc, false_and, if_false]
        exact ⟨rfl, rfl, rfl, fun h => absurd h id⟩

end Sys2Proof.Machine
end

