-- ==== Sys2Proof/Tests/Slice0.lean ====
section
/-! SUPPORT. The model's own tests: the words of the opcode table decoded, the checks of well-formedness, the worked
examples of the spec, and for each statement a state that meets its hypotheses.

Decoding: each word is written out from the opcode layout of the spec (R99, and the encodings of each chapter), field by field. -/

set_option Elab.async false
set_option maxRecDepth 100000

namespace Sys2Proof.Tests

open Sys2Proof.Machine

/-! ## A small state -/

/-- A slice with the given active pairs, on a slice of one member slot; its other pairs have exited. -/
def oneSlice (active : BitVec 64) : Slice := { active := active, exited := 0xF &&& ~~~active }

/-- A slice that has finished. -/
def doneSlice : Slice := { wait := .finished, exited := 0xF }

/-- A group of one member slot whose slices are `x` and seven that have finished. -/
def smallGroup (x : Slice) (regs : List (Loc × Word)) : Group :=
  { probeGroup with slices := x :: List.replicate 7 doneSlice, regs := regs }

/-- The state with one team of the group `g`, changed by `t`, on a grid changed by `r`; the group's gang 0 issues. -/
def stateOf (g : Group) (t : Team → Team := id) (r : Grid → Grid := id) : State :=
  { State.reset with
    level := 3, teams := [t { probeTeam with groups := [g] }], grids := [r probeGrid], issuer := .gang 0 0 0, tick := 1 }

/-- The state whose one pair, lane 0 of slot 0, holds the registers. -/
def one (regs : List (Loc × Word)) : State := stateOf (smallGroup (oneSlice 1) regs)

/-- The state after a step that answers one. -/
def after (o : Host.Outcome State Fault Refusal) : State := match o with
  | .next t => t
  | _ => State.reset

/-- The register of lane 0 after an instruction. -/
def result (j : Instr) (s : State) (n : Nat) : Word := cell (after (exec j s)) 0 0 (.v n 0 0)
/-- The flags of slot 0 after an instruction. -/
def flagsOf (j : Instr) (s : State) : Word := cell (after (exec j s)) 0 0 (.fpm 0) &&& 0x1F

theorem test_decode_major_00 :
    decodeTableWord 32 0b000000_0001_0000000000000100111111 = some (.bra 1 319) := by decide

theorem test_decode_major_01 :
    decodeTableWord 32 0b000001_0001_0000000000000100111111 = some (.call 1 319) := by decide

theorem test_decode_major_02 :
    decodeTableWord 32 0b000010_0000_0000000000000100010111 = some (.rpush 279) := by decide

theorem test_decode_major_03 :
    decodeTableWord 32 0b000011_000000000000_1110010_0000000 = some (.bri 114) ∧
    decodeTableWord 32 0b000011_00001_1110010_0011010_0000000 = some (.calli 114 26) ∧
    decodeTableWord 32 0b000011_000100000000_1110010_0000000 = some (.ret 114) ∧
    decodeTableWord 32 0b000011_00011000000000000000000000 = some .regang ∧
    decodeTableWord 32 0b000011_00100000000000000000000000 = some .exit ∧
    decodeTableWord 32 0b000011_00101000000000000000000000 = some .brk ∧
    decodeTableWord 32 0b000011_00110000000000000000000000 = some .nop := by decide

theorem test_decode_major_04 :
    decodeTableWord 32 0b000100_00000000000000_000010101001 = some (.trap 169) := by decide

theorem test_decode_major_05 :
    decodeTableWord 32 0b000101_1110010_0000000_000011010001 = some (.mfs 114 209) := by decide

theorem test_decode_major_06 :
    decodeTableWord 32 0b000110_0000000_1110010_000011010001 = some (.mts 114 209) := by decide

theorem test_decode_major_07 :
    decodeTableWord 32 0b000111_000000000000_1110010_0000000 = some (.mstld 114) ∧
    decodeTableWord 32 0b000111_00001000000000000000000000 = some .hret := by decide

theorem test_decode_major_09 :
    decodeTableWord 32 0b00100_1_00000_0011010_0111100_1100100 = some (.add 1 26 60 100) ∧
    decodeTableWord 32 0b00100_1_00001_0011010_0111100_1100100 = some (.sub 1 26 60 100) ∧
    decodeTableWord 32 0b00100_1_0001_1_0111100_1100100_0000110 = some (.addsat 1 1 60 100 6) ∧
    decodeTableWord 32 0b00100_1_0010_1_0111100_1100100_0000110 = some (.subsat 1 1 60 100 6) ∧
    decodeTableWord 32 0b00100_1_0011_1_0111100_1100100_0000110 = some (.min 1 1 60 100 6) ∧
    decodeTableWord 32 0b00100_1_0100_1_0111100_1100100_0000110 = some (.max 1 1 60 100 6) ∧
    decodeTableWord 32 0b00100_1_01010_0011010_0111100_0000000 = some (.abs 1 26 60) ∧
    decodeTableWord 32 0b00100_1_01011_0011010_0111100_0000000 = some (.neg 1 26 60) ∧
    decodeTableWord 32 0b00100_1_01100_0011010_0111100_0000000 = some (.mov 1 26 60) := by decide

theorem test_decode_major_0A :
    decodeTableWord 32 0b001010_1110010_0011010_000011110011 = some (.addi 114 26 243) := by decide

theorem test_decode_major_0B :
    decodeTableWord 32 0b001011_00000_1110010_0011010_0111100 = some (.and 114 26 60) ∧
    decodeTableWord 32 0b001011_00001_1110010_0011010_0111100 = some (.or 114 26 60) ∧
    decodeTableWord 32 0b001011_00010_1110010_0011010_0111100 = some (.xor 114 26 60) ∧
    decodeTableWord 32 0b001011_00011_1110010_0011010_0111100 = some (.andn 114 26 60) ∧
    decodeTableWord 32 0b001011_00100_1110010_0011010_0111100 = some (.orn 114 26 60) ∧
    decodeTableWord 32 0b001011_00101_1110010_0011010_0000000 = some (.not 114 26) ∧
    decodeTableWord 32 0b001011_00110_1110010_0011010_0111100 = some (.shl 114 26 60) ∧
    decodeTableWord 32 0b001011_00111_1110010_0011010_0111100 = some (.shrU 114 26 60) ∧
    decodeTableWord 32 0b001011_01000_1110010_0011010_0111100 = some (.shrS 114 26 60) ∧
    decodeTableWord 32 0b001011_01001_1110010_0011010_0111100 = some (.rol 114 26 60) ∧
    decodeTableWord 32 0b001011_01010_1110010_0011010_0111100 = some (.ror 114 26 60) ∧
    decodeTableWord 32 0b001011_01011_1110010_0011010_0111100 = some (.shl64 114 26 60) ∧
    decodeTableWord 32 0b001011_01100_1110010_0011010_0111100 = some (.shr64U 114 26 60) ∧
    decodeTableWord 32 0b001011_01101_1110010_0011010_0111100 = some (.shr64S 114 26 60) ∧
    decodeTableWord 32 0b001011_01110_1110010_0011010_0000000 = some (.popc 114 26) ∧
    decodeTableWord 32 0b001011_01111_1110010_0011010_0000000 = some (.clz 114 26) ∧
    decodeTableWord 32 0b001011_10000_1110010_0011010_0000000 = some (.ctz 114 26) ∧
    decodeTableWord 32 0b001011_10001_1110010_0011010_0000000 = some (.brev 114 26) ∧
    decodeTableWord 32 0b001011_10010_1110010_0011010_0111100 = some (.fldxU 114 26 60) ∧
    decodeTableWord 32 0b001011_10011_1110010_0011010_0111100 = some (.fldxS 114 26 60) ∧
    decodeTableWord 32 0b001011_10100_1110010_0011010_0111100 = some (.fldi 114 26 60) ∧
    decodeTableWord 32 0b001011_10101_1110010_0011010_0111100 = some (.bysel 114 26 60) := by decide

theorem test_decode_major_0C :
    decodeTableWord 32 0b001100_00000_1110010_0011010_0111100 = some (.mul 114 26 60) ∧
    decodeTableWord 32 0b001100_00001_1110010_0011010_0111100 = some (.mulhiS 114 26 60) ∧
    decodeTableWord 32 0b001100_00010_1110010_0011010_0111100 = some (.mulhiU 114 26 60) ∧
    decodeTableWord 32 0b001100_00011_1110010_0011010_0111100 = some (.mulwS 114 26 60) ∧
    decodeTableWord 32 0b001100_00100_1110010_0011010_0111100 = some (.mulwU 114 26 60) ∧
    decodeTableWord 32 0b001100_00101_1110010_0011010_0111100 = some (.mad 114 26 60) ∧
    decodeTableWord 32 0b001100_00110_1110010_0011010_0111100 = some (.mul64 114 26 60) ∧
    decodeTableWord 32 0b001100_00111_1110010_0011010_0111100 = some (.mulhi64S 114 26 60) ∧
    decodeTableWord 32 0b001100_01000_1110010_0011010_0111100 = some (.mulhi64U 114 26 60) ∧
    decodeTableWord 32 0b001100_01001_1110010_0011010_0111100 = some (.divS 114 26 60) ∧
    decodeTableWord 32 0b001100_01010_1110010_0011010_0111100 = some (.divU 114 26 60) ∧
    decodeTableWord 32 0b001100_01011_1110010_0011010_0111100 = some (.remS 114 26 60) ∧
    decodeTableWord 32 0b001100_01100_1110010_0011010_0111100 = some (.remU 114 26 60) ∧
    decodeTableWord 32 0b001100_01101_1110010_0011010_0111100 = some (.div64S 114 26 60) ∧
    decodeTableWord 32 0b001100_01110_1110010_0011010_0111100 = some (.div64U 114 26 60) ∧
    decodeTableWord 32 0b001100_01111_1110010_0011010_0111100 = some (.rem64S 114 26 60) ∧
    decodeTableWord 32 0b001100_10000_1110010_0011010_0111100 = some (.rem64U 114 26 60) := by decide

theorem test_decode_major_0D :
    decodeTableWord 32 0b001101_11_110_0000_111_1100100_0000110 = some (.icmp 3 6 7 100 6) := by decide

theorem test_decode_major_0E :
    decodeTableWord 32 0b001110_11100_0011010_0111100_1100100 = some (.lea 28 26 60 100) := by decide

theorem test_decode_major_10 :
    decodeTableWord 32 0b010000_000000000_110_000_1_111_000_1_010 = some (.pand 6 1 7 1 2) ∧
    decodeTableWord 32 0b010000_000010000_110_000_1_111_000_1_010 = some (.por 6 1 7 1 2) ∧
    decodeTableWord 32 0b010000_000100000_110_000_1_111_000_1_010 = some (.pxor 6 1 7 1 2) ∧
    decodeTableWord 32 0b010000_000110000_110_000_1_111_0000000 = some (.pmov 6 1 7) ∧
    decodeTableWord 32 0b010000_00100_1110010_000_1_111_0000000 = some (.ptov 114 1 7) ∧
    decodeTableWord 32 0b010000_001010000_110_0011010_0000000 = some (.vtop 6 26) := by decide

theorem test_decode_major_11 :
    decodeTableWord 32 0b010001_00000_1110010_0011010_0111100 = some (.lxgSel 114 26 60) ∧
    decodeTableWord 32 0b010001_00001_1110010_0011010_0111100 = some (.lxgBelow 114 26 60) ∧
    decodeTableWord 32 0b010001_00010_1110010_0011010_0111100 = some (.lxgAbove 114 26 60) ∧
    decodeTableWord 32 0b010001_00011_1110010_0011010_0111100 = some (.lxgFlip 114 26 60) ∧
    decodeTableWord 32 0b010001_001000000_110_000_1_111_0000000 = some (.ltestAll 6 1 7) ∧
    decodeTableWord 32 0b010001_001010000_110_000_1_111_0000000 = some (.ltestAny 6 1 7) ∧
    decodeTableWord 32 0b010001_001100000_110_000_1_111_0000000 = some (.ltestSame 6 1 7) ∧
    decodeTableWord 32 0b010001_00111_1110010_000_1_111_0000000 = some (.pgath 114 1 7) ∧
    decodeTableWord 32 0b010001_01000_1110010_0011010_0000000 = some (.leqm 114 26) ∧
    decodeTableWord 32 0b010001_01001_1110010_0011010_0000000 = some (.lfoldAdd 114 26) ∧
    decodeTableWord 32 0b010001_0101_1_0011010_0111100_0000000 = some (.lfoldMin 1 26 60) ∧
    decodeTableWord 32 0b010001_0110_1_0011010_0111100_0000000 = some (.lfoldMax 1 26 60) := by decide

theorem test_decode_major_12 :
    decodeTableWord 32 0b010010_00000_1110010_00000000000000 = some (.mmaskr 114) ∧
    decodeTableWord 32 0b010010_000010000000_1110010_0000000 = some (.mmaskw 114) ∧
    decodeTableWord 32 0b010010_000100000_110_000_1_111_0000000 = some (.mtestAll 6 1 7) ∧
    decodeTableWord 32 0b010010_000110000_110_000_1_111_0000000 = some (.mtestAny 6 1 7) ∧
    decodeTableWord 32 0b010010_00100_1110010_0011010_0111100 = some (.mpick 114 26 60) ∧
    decodeTableWord 32 0b010010_001010000000_1110010_0000000 = some (.regroup 114) := by decide

theorem test_decode_major_13 :
    decodeTableWord 32 0b010011_000000000000_1110010_0000000 = some (.role 114) ∧
    decodeTableWord 32 0b010011_000010000000_1110010_0011010 = some (.regsGive 114 26) ∧
    decodeTableWord 32 0b010011_000100000000_1110010_0000000 = some (.regsClaim 114) := by decide

theorem test_decode_major_17 :
    decodeTableWord 32 0b0101_11_00_110_0111100_1100100_0000110 = some (.fadd 3 6 60 100 6) ∧
    decodeTableWord 32 0b0101_11_01_110_0111100_1100100_0000110 = some (.fsub 3 6 60 100 6) ∧
    decodeTableWord 32 0b0101_11_10_110_0111100_1100100_0000110 = some (.fmul 3 6 60 100 6) ∧
    decodeTableWord 32 0b0101_11_11_110_0111100_1100100_0000110 = some (.fma 3 6 60 100 6) := by decide

theorem test_decode_major_18 :
    decodeTableWord 32 0b011000_000_11_0011010_0111100_1100100 = some (.fmin 3 26 60 100) ∧
    decodeTableWord 32 0b011000_001_11_0011010_0111100_1100100 = some (.fmax 3 26 60 100) ∧
    decodeTableWord 32 0b011000_010_11_0011010_0111100_0000000 = some (.fabs 3 26 60) ∧
    decodeTableWord 32 0b011000_011_11_0011010_0111100_0000000 = some (.fneg 3 26 60) ∧
    decodeTableWord 32 0b011000_100_11_0011010_0111100_1100100 = some (.fcpys 3 26 60 100) ∧
    decodeTableWord 32 0b011000_101_11_0011010_0111100_0000000 = some (.fclass 3 26 60) ∧
    decodeTableWord 32 0b011000_110_11_0011010_0111100_1100100 = some (.fscale 3 26 60 100) := by decide

theorem test_decode_major_19 :
    decodeTableWord 32 0b011001_110_11_0000_111_1100100_0000110 = some (.fcmp 6 3 7 100 6) := by decide

theorem test_decode_major_1A :
    decodeTableWord 32 0b011010_0_0001_0011010_0111100_0011_010 = some (.cvt 1 26 60 3 2) := by decide

theorem test_decode_major_1B :
    decodeTableWord 32 0b011011_0000_1_0011010_0111100_0000_111 = some (.packMx8 1 26 60 7) ∧
    decodeTableWord 32 0b011011_00010_1110010_0011010_0000_111 = some (.packMx4 114 26 7) ∧
    decodeTableWord 32 0b011011_00011_1110010_0011010_0000_111 = some (.packTb4 114 26 7) ∧
    decodeTableWord 32 0b011011_0010_1_0011010_0111100_0000_111 = some (.unpkMx8 1 26 60 7) ∧
    decodeTableWord 32 0b011011_00110_1110010_0011010_0000_111 = some (.unpkMx4 114 26 7) ∧
    decodeTableWord 32 0b011011_00111_1110010_0011010_0000_111 = some (.unpkTb4 114 26 7) := by decide

theorem test_decode_major_1C :
    decodeTableWord 32 0b011100_00000_1110010_0011010_0000_111 = some (.rcp 114 26 7) ∧
    decodeTableWord 32 0b011100_00001_1110010_0011010_0000_111 = some (.rsq 114 26 7) ∧
    decodeTableWord 32 0b011100_00010_1110010_0011010_0000_111 = some (.sqrt 114 26 7) ∧
    decodeTableWord 32 0b011100_00011_1110010_0011010_0000_111 = some (.exp2 114 26 7) ∧
    decodeTableWord 32 0b011100_00100_1110010_0011010_0000_111 = some (.log2 114 26 7) ∧
    decodeTableWord 32 0b011100_00101_1110010_0011010_0000_111 = some (.sinpi 114 26 7) ∧
    decodeTableWord 32 0b011100_00110_1110010_0011010_0000_111 = some (.cospi 114 26 7) := by decide

theorem test_decode_major_20 :
    decodeTableWord 32 0b100000_000_11_00000_11_0111100_0000000 = some (.lacAdd 3 3 60) ∧
    decodeTableWord 32 0b100000_0010000000_11_00000000000000 = some (.lacClr 3) ∧
    decodeTableWord 32 0b100000_0010000000_11_0011010_0000001 = some (.lacClrBind 3 26) ∧
    decodeTableWord 32 0b100000_0010100000_11_00000_11_0000000 = some (.lacMrg 3 3) ∧
    decodeTableWord 32 0b100000_00110_1110010_00000_11_1011_111 = some (.lacRnd 114 3 11 7) ∧
    decodeTableWord 32 0b100000_0011100000_11_0011010_0000000 = some (.lacLd 3 26) ∧
    decodeTableWord 32 0b100000_0100000000_11_0011010_0000000 = some (.lacSt 3 26) := by decide

theorem test_decode_major_21 :
    decodeTableWord 32 0b100001_00_110_0011010_0111100_1100100 = some (.maxi 6 26 60 100) ∧
    decodeTableWord 32 0b100001_01_110_0011010_0111100_1100100 = some (.mini 6 26 60 100) ∧
    decodeTableWord 32 0b100001_10_110_0011010_0111100_1100100 = some (.topk 6 26 60 100) ∧
    decodeTableWord 32 0b100001_11_110_0011010_0111100_1100100 = some (.topkm 6 26 60 100) := by decide

theorem test_decode_major_22 :
    decodeTableWord 32 0b100010_00000_1110010_0011010_000_1_111 = some (.estatMean 114 26 1 7) ∧
    decodeTableWord 32 0b100010_00001_1110010_0011010_000_1_111 = some (.estatSprd 114 26 1 7) ∧
    decodeTableWord 32 0b100010_00010_1110010_0011010_000_1_000 = some (.estatRank 114 26 1) ∧
    decodeTableWord 32 0b100010_00011_1110010_0011010_000_1_000 = some (.estatQnt 114 26 1) := by decide

theorem test_decode_major_24 :
    decodeTableWord 32 0b100100_110_0011010_0111100_011111010 = some (.ld 6 26 60 250) := by decide

theorem test_decode_major_25 :
    decodeTableWord 32 0b100101_110_0011010_0111100_011111010 = some (.st 6 26 60 250) := by decide

theorem test_decode_major_26 :
    decodeTableWord 32 0b100110_110_0011010_0111100_111_111011 = some (.ldAcq 6 26 60 7 59) := by decide

theorem test_decode_major_27 :
    decodeTableWord 32 0b100111_110_0011010_0111100_111_111011 = some (.stRel 6 26 60 7 59) := by decide

theorem test_decode_major_28 :
    decodeTableWord 32 0b101000_110_0011010_0111100_00_1100100 = some (.ldh 6 26 60 100) ∧
    decodeTableWord 32 0b101000_110_0011010_0111100_01_1100100 = some (.ldhWfKeep 6 26 60 100) ∧
    decodeTableWord 32 0b101000_110_0011010_0111100_10_1100100 = some (.ldhWfClr 6 26 60 100) := by decide

theorem test_decode_major_29 :
    decodeTableWord 32 0b101001_110_0011010_0111100_00_1100100 = some (.sth 6 26 60 100) ∧
    decodeTableWord 32 0b101001_110_0011010_0111100_01_1100100 = some (.sthF 6 26 60 100) := by decide

theorem test_decode_major_2A :
    decodeTableWord 32 0b101010_0000_1_0011010_0111100_1100100 = some (.atomAdd 1 26 60 100) ∧
    decodeTableWord 32 0b101010_0001_1_0011010_0111100_1100100 = some (.atomMinS 1 26 60 100) ∧
    decodeTableWord 32 0b101010_0010_1_0011010_0111100_1100100 = some (.atomMinU 1 26 60 100) ∧
    decodeTableWord 32 0b101010_0011_1_0011010_0111100_1100100 = some (.atomMaxS 1 26 60 100) ∧
    decodeTableWord 32 0b101010_0100_1_0011010_0111100_1100100 = some (.atomMaxU 1 26 60 100) ∧
    decodeTableWord 32 0b101010_0101_1_0011010_0111100_1100100 = some (.atomExch 1 26 60 100) ∧
    decodeTableWord 32 0b101010_0110_1_0011010_0111100_1100100 = some (.atomCas 1 26 60 100) ∧
    decodeTableWord 32 0b101010_0111_1_0011010_0111100_1100100 = some (.atomAnd 1 26 60 100) ∧
    decodeTableWord 32 0b101010_1000_1_0011010_0111100_1100100 = some (.atomOr 1 26 60 100) ∧
    decodeTableWord 32 0b101010_1001_1_0011010_0111100_1100100 = some (.atomXor 1 26 60 100) ∧
    decodeTableWord 32 0b101010_1010_1_0011010_0111100_1100100 = some (.atomFadd 1 26 60 100) := by decide

theorem test_decode_major_2B :
    decodeTableWord 32 0b101011_0000_1_0011010_0111100_0000000 = some (.lr 1 26 60) ∧
    decodeTableWord 32 0b101011_0001_1_0011010_0111100_1100100 = some (.sc 1 26 60 100) := by decide

theorem test_decode_major_2C :
    decodeTableWord 32 0b101100_00000_1110010_0011010_0111100 = some (.ldbMx8 114 26 60) ∧
    decodeTableWord 32 0b101100_00001_1110010_0011010_0111100 = some (.ldbMx4 114 26 60) ∧
    decodeTableWord 32 0b101100_00010_1110010_0011010_0111100 = some (.ldbTb4 114 26 60) ∧
    decodeTableWord 32 0b101100_00011_1110010_0011010_0111100 = some (.stbMx8 114 26 60) ∧
    decodeTableWord 32 0b101100_00100_1110010_0011010_0111100 = some (.stbMx4 114 26 60) ∧
    decodeTableWord 32 0b101100_00101_1110010_0011010_0111100 = some (.stbTb4 114 26 60) ∧
    decodeTableWord 32 0b101100_00110_1110010_0011010_00000_01 = some (.ldhbMx8 114 26 1) ∧
    decodeTableWord 32 0b101100_00111_1110010_0011010_00000_01 = some (.ldhbMx4 114 26 1) ∧
    decodeTableWord 32 0b101100_01000_1110010_0011010_00000_01 = some (.ldhbTb4 114 26 1) ∧
    decodeTableWord 32 0b101100_01001_1110010_0011010_00000_01 = some (.sthbMx8 114 26 1) ∧
    decodeTableWord 32 0b101100_01010_1110010_0011010_00000_01 = some (.sthbMx4 114 26 1) ∧
    decodeTableWord 32 0b101100_01011_1110010_0011010_00000_01 = some (.sthbTb4 114 26 1) := by decide

theorem test_decode_major_2D :
    decodeTableWord 32 0b101101_00_110_000000000000000000000 = some (.fence 6) ∧
    decodeTableWord 32 0b101101_01_110_00000000_001111_0_110001 = some (.fenceX 6 15 49) ∧
    decodeTableWord 32 0b101101_10000000000000000000000000 = some .fenceW ∧
    decodeTableWord 32 0b101101_110000000000_1110010_0000000 = some (.cwbL1 114) ∧
    decodeTableWord 32 0b101101_110010000000_1110010_0000000 = some (.cinvL1 114) ∧
    decodeTableWord 32 0b101101_110100000000_1110010_0000000 = some (.cwbL2 114) ∧
    decodeTableWord 32 0b101101_110110000000_1110010_0000000 = some (.prefL1 114) ∧
    decodeTableWord 32 0b101101_111000000000_1110010_0000000 = some (.prefL2 114) := by decide

theorem test_decode_major_2E :
    decodeTableWord 32 0b101110_110_0011010_0111100_011111010 = some (.wst 6 26 60 250) := by decide

theorem test_decode_major_30 :
    decodeTableWord 32 0b110000_000000000000_1110010_0011010 = some (.hod 114 26) ∧
    decodeTableWord 32 0b110000_000010000000_1110010_0000000 = some (.hodChain 114) ∧
    decodeTableWord 32 0b110000_00010000_11_00_0011010_0000000 = some (.bead 3 26) := by decide

theorem test_decode_major_31 :
    decodeTableWord 32 0b110001_000000000000_1110010_0000000 = some (.vsend 114) ∧
    decodeTableWord 32 0b110001_00001_1110010_00000000000000 = some (.vrecv 114) := by decide

theorem test_decode_major_32 :
    decodeTableWord 32 0b110010_000000000000_1110010_0011010 = some (.spawn 114 26) ∧
    decodeTableWord 32 0b110010_00001_1110010_0011010_0111100 = some (.launch 114 26 60) ∧
    decodeTableWord 32 0b110010_000100000000_1110010_0011010 = some (.cwset 114 26) := by decide

theorem test_decode_major_33 :
    decodeTableWord 32 0b110011_00000000_0001_0011010_0000000 = some (.barArv 1 26) ∧
    decodeTableWord 32 0b110011_00001000_0001_00000000000000 = some (.barWt 1) ∧
    decodeTableWord 32 0b110011_00010000_0001_0011010_0000000 = some (.barSync 1 26) ∧
    decodeTableWord 32 0b110011_00011000_0001_0011010_0111100 = some (.barSyncm 1 26 60) ∧
    decodeTableWord 32 0b110011_00100000_0001_00000000000000 = some (.snap 1) := by decide

theorem test_decode_major_34 :
    decodeTableWord 32 0b110100_00000_0001_110_000_1011_0000000 = some (.tld 1 6 11) ∧
    decodeTableWord 32 0b110100_00001000_0001_000_1001_00_1_0011 = some (.tldm 1 9 1 3) ∧
    decodeTableWord 32 0b110100_00010000_0001_1001_111_00_1_1_010 = some (.tst 1 9 7 1 1 2) ∧
    decodeTableWord 32 0b110100_00011000_0001_000_1001_00_1_0011 = some (.tcpy 1 9 1 3) ∧
    decodeTableWord 32 0b110100_001000000_110_00000_11_0000000 = some (.tzero 6 3) := by decide

theorem test_decode_major_35 :
    decodeTableWord 32 0b110101_0_0001_1001_111_00_01110_00_10000 = some (.mma 1 9 7 14 16) := by decide

theorem test_decode_major_36 :
    decodeTableWord 32 0b110110_000000000_110_0011010_0000000 = some (.tscl 6 26) ∧
    decodeTableWord 32 0b110110_000010000_110_000_1001_000000_1 = some (.tbias 6 9 1) ∧
    decodeTableWord 32 0b110110_000100000_110_00000_11_0000000 = some (.tact 6 3) ∧
    decodeTableWord 32 0b110110_000110000_110_00000000000000 = some (.txpose 6) ∧
    decodeTableWord 32 0b110110_001000000_110_0000_110_0000000 = some (.tcvt 6 6) ∧
    decodeTableWord 32 0b110110_001010000_110_000000_1_0000000 = some (.tred 6 1) := by decide

theorem test_decode_major_37 :
    decodeTableWord 32 0b110111_000000000_110_0011010_0000000 = some (.gset 6 26) ∧
    decodeTableWord 32 0b110111_000010000_110_0011010_0111100 = some (.gseed 6 26 60) ∧
    decodeTableWord 32 0b110111_000100000_110_0011010_0111100 = some (.gorg 6 26 60) := by decide

theorem test_decode_major_38 :
    decodeTableWord 32 0b111000_00000_1110010_0011010_0000000 = some (.tmov 114 26) ∧
    decodeTableWord 32 0b111000_00001_1110010_0011010_0111100 = some (.tadd 114 26 60) ∧
    decodeTableWord 32 0b111000_00010_1110010_0011010_0111100 = some (.tsub 114 26 60) ∧
    decodeTableWord 32 0b111000_00011_1110010_0011010_0111100 = some (.tmul 114 26 60) ∧
    decodeTableWord 32 0b111000_00100000_0001_00000011100111 = some (.tbrnz 1 231) ∧
    decodeTableWord 32 0b111000_001010000000_00000010111111 = some (.tbra 191) ∧
    decodeTableWord 32 0b111000_00110000_0001_0011010_0000000 = some (.tbarArv 1 26) ∧
    decodeTableWord 32 0b111000_00111000_0001_00000000000000 = some (.tbarWt 1) ∧
    decodeTableWord 32 0b111000_01000000000000000000000000 = some .tend := by decide

theorem test_decode_major_39 :
    decodeTableWord 32 0b111001_00000000_0001_0011010_0111100 = some (.mset 1 26 60) ∧
    decodeTableWord 32 0b111001_00001000_0001_0011010_0111100 = some (.madv 1 26 60) ∧
    decodeTableWord 32 0b111001_00010000_0001_0011010_00000_01 = some (.mcpy 1 26 1) := by decide

theorem test_decode_major_3A :
    decodeTableWord 32 0b111010_00000_1110010_0011010_00000_1_1 = some (.trecOn 114 26 1 1) ∧
    decodeTableWord 32 0b111010_00001000000000000000000000 = some .trecOff ∧
    decodeTableWord 32 0b111010_00010_1110010_0011010_0000000 = some (.trecExt 114 26) ∧
    decodeTableWord 32 0b111010_00011_1110010_0011010_0000_1_1_1 = some (.trev 114 26 1 1 1) := by decide

theorem test_decode_major_3C :
    decodeTableWord 32 0b111100_01111101_001111_110001_011001 = some (.runMacro 125 15 49 25) := by decide

theorem test_decode_major_3F :
    decodeTableWord 32 0b111111_00000_000000000000100001100 = some (.stall 268) ∧
    decodeTableWord 32 0b111111_0001_0000000000000100010111 = some (.imm 279) ∧
    decodeTableWord 32 0b111111_0010000000000000000_1110010 = some (.src3 114) ∧
    decodeTableWord 32 0b111111_0011000000000000000_110_1_111 = some (.guard 6 1 7) ∧
    decodeTableWord 32 0b111111_01000000000000000000000000 = some .join ∧
    decodeTableWord 32 0b111111_0101_11_0011010_0000011111110 = some (.prefetch 3 26 254) ∧
    decodeTableWord 32 0b111111_01100000000000000000000_110 = some (.rnd 6) := by decide


/-! ## Words the spec works out -/

/-- The example words of R99, R154, R158, R160, R172, R190, R191, R239, R242 and R278. -/
theorem test_decode_examples :
    decodeTableWord 32 0x02400005 = some (.bra 9 5) ∧ decodeTableWord 32 0x00400005 = some (.bra 1 5) ∧
    decodeTableWord 32 0x0CC00000 = some .nop ∧ decodeTableWord 32 0x0C3D8100 = some (.calli 0x76 2) ∧
    decodeTableWord 32 0x34404103 = some (.icmp 0 2 1 2 3) ∧ decodeTableWord 32 0x65004103 = some (.fcmp 2 0 1 2 3) ∧
    decodeTableWord 32 0x68614209 = some (.cvt 3 5 4 1 1) ∧ decodeTableWord 32 0xA2080304 = some (.ldhWfClr 4 8 1 4) ∧
    decodeTableWord 32 0xA8010105 = some (.atomAdd 0 4 2 5) ∧ decodeTableWord 32 0xFC4000FE = some (.imm 0xFE) := by decide

/-- The unassigned majors, the data majors 0x3D and 0x3E, and unlisted values of assigned majors are no instruction (R123). -/
theorem test_decode_refuses :
    decodeTableWord 32 0x3C000000 = none ∧ decodeTableWord 32 0x74000000 = none ∧ decodeTableWord 32 0x7C000000 = none ∧
    decodeTableWord 32 0x8C000000 = none ∧ decodeTableWord 32 0xBC000000 = none ∧ decodeTableWord 32 0xEC000000 = none ∧
    decodeTableWord 32 0xF8000000 = none ∧ decodeTableWord 32 0xF4000000 = none ∧ decodeTableWord 32 0x0CC00001 = none ∧
    decodeTableWord 32 0x23A00000 = none ∧ decodeTableWord 32 0xB4E00001 = none := by decide

/-! ## Well-formedness: each check refuses an ill-formed term -/

/-- Operand codes: a pair at an odd register, a group past the end of its kind, a literal where a destination or a wide source
stands, zero and literal where they are legal (R102, R103). -/
theorem test_wf_operands :
    Machine.legal (.add 1 3 4 6) = false ∧ Machine.legal (.add 1 4 4 6) = true ∧ Machine.legal (.ld 6 94 4 0) = false ∧
    Machine.legal (.ld 6 92 4 0) = true ∧ Machine.legal (.add 0 0x7F 1 2) = false ∧ Machine.legal (.add 0 0x7E 0x7F 2) = true ∧
    Machine.legal (.st 4 0x7F 4 0) = false ∧ Machine.legal (.bri 0x77) = false ∧ Machine.legal (.bri 0x76) = true ∧
    Machine.legal (.add 1 0x7D 0x78 0x78) = false := by decide

/-- Control, system and integer fields (R99, R104, R105, R122, R167, R172). -/
theorem test_wf_fields :
    Machine.legal (.bra 8 1) = false ∧ Machine.legal (.call 8 1) = false ∧ Machine.legal (.mfs 4 0x15) = false ∧
    Machine.legal (.mts 4 0x11) = false ∧ Machine.legal (.mstld 4) = false ∧ Machine.legal (.mstld 0x7A) = true ∧
    Machine.legal (.icmp 0 6 1 2 3) = false ∧ Machine.legal (.lea 10 2 4 6) = false := by decide

/-- Rounding fields, formats and selections (R187, R191 to R195, R197, R201, R204). -/
theorem test_wf_rounding :
    Machine.legal (.fadd 0 6 1 2 3) = false ∧ Machine.legal (.fsub 0 7 1 2 3) = false ∧ Machine.legal (.fmul 0 6 1 2 3) = false ∧
    Machine.legal (.fma 0 6 1 2 3) = false ∧ Machine.legal (.cvt 7 1 2 0 1) = false ∧ Machine.legal (.cvt 1 1 2 1 1) = false ∧
    Machine.legal (.cvt 8 1 2 9 1) = false ∧ Machine.legal (.cvt 1 1 2 8 6) = false ∧ Machine.legal (.cvt 2 1 2 1 6) = true ∧
    Machine.legal (.packMx8 0 1 2 7) = false ∧ Machine.legal (.packMx4 1 2 7) = false ∧ Machine.legal (.packTb4 1 2 7) = false ∧
    Machine.legal (.unpkMx8 0 1 2 6) = false ∧ Machine.legal (.unpkMx4 1 2 6) = false ∧ Machine.legal (.unpkTb4 1 2 6) = false ∧
    Machine.legal (.rcp 1 2 6) = false ∧ Machine.legal (.cospi 1 2 7) = false ∧ Machine.legal (.lacRnd 1 0 4 1) = false ∧
    Machine.legal (.lacRnd 1 0 1 6) = false ∧ Machine.legal (.maxi 6 2 4 5) = false ∧ Machine.legal (.topk 0 0x7E 4 5) = false ∧
    Machine.legal (.estatMean 1 2 1 6) = false ∧ Machine.legal (.estatSprd 1 2 1 7) = false := by decide

/-- Memory, fence, FIFO and Trowel fields (R234, R238 to R240, R247, R254, R261). -/
theorem test_wf_memory :
    Machine.legal (.ld 7 1 2 0) = false ∧ Machine.legal (.ldAcq 4 1 2 7 0) = false ∧ Machine.legal (.st 5 1 2 0) = false ∧
    Machine.legal (.stRel 2 1 2 7 0) = false ∧ Machine.legal (.wst 5 1 2 0) = false ∧ Machine.legal (.ldh 7 1 2 0) = false ∧
    Machine.legal (.ldhWfClr 7 1 2 0) = false ∧ Machine.legal (.sthF 5 1 2 0) = false ∧ Machine.legal (.ldhbMx8 1 2 3) = false ∧
    Machine.legal (.sthbTb4 1 2 2) = false ∧ Machine.legal (.fence 7) = false ∧ Machine.legal (.fenceX 0 3 1) = false ∧
    Machine.legal (.fenceX 0 1 2) = true ∧ Machine.legal (.vsend 0x70) = false ∧ Machine.legal (.vrecv 0x7E) = false ∧
    Machine.legal (.prefetch 3 2 0) = false ∧ Machine.legal (.tst 0 0 0 0 0 6) = false ∧ Machine.legal (.tzero 0 3) = false ∧
    Machine.legal (.mma 0 0 0 24 0) = false ∧ Machine.legal (.tact 0 3) = false ∧ Machine.legal (.tcvt 0 6) = false ∧
    Machine.legal (.tmov 0x10 0) = false ∧ Machine.legal (.tmov 0 0x25) = false ∧ Machine.legal (.tadd 0x20 0x0F 0x24) = true := by
  decide

/-! ## Steps: the worked examples of the spec -/

/-- The divides of Table 7.4. -/
theorem test_divide :
    result (.divS 3 1 2) (one [(.v 1 0 0, 7), (.v 2 0 0, -2)]) 3 = 0xFFFFFFFD ∧
    result (.remS 3 1 2) (one [(.v 1 0 0, -7), (.v 2 0 0, 2)]) 3 = 0xFFFFFFFF ∧
    result (.divU 3 1 2) (one [(.v 1 0 0, -7), (.v 2 0 0, 2)]) 3 = 0x7FFFFFFC ∧
    result (.divS 3 1 2) (one [(.v 1 0 0, 5), (.v 2 0 0, 0)]) 3 = 0xFFFFFFFF ∧
    result (.remU 3 1 2) (one [(.v 1 0 0, 5), (.v 2 0 0, 0)]) 3 = 5 ∧
    result (.divS 3 1 2) (one [(.v 1 0 0, 0x80000000), (.v 2 0 0, -1)]) 3 = 0x80000000 ∧
    result (.remS 3 1 2) (one [(.v 1 0 0, 0x80000000), (.v 2 0 0, -1)]) 3 = 0 := by decide

/-- ADDI sign-extends its immediate and wraps (R166); a result is complete two issue steps on (R115). -/
theorem test_addi : result (.addi 1 1 (-1)) (one [(.v 1 0 0, 0)]) 1 = 0xFFFFFFFF := by decide

/-- ADD.64 carries into the high register (R102, R165). -/
theorem test_add64_carry :
    result (.add 1 4 2 6) (one [(.v 2 0 0, 0xFFFFFFFF), (.v 6 0 0, 1)]) 5 = 1 ∧
    result (.add 1 4 2 6) (one [(.v 2 0 0, 0xFFFFFFFF), (.v 6 0 0, 1)]) 4 = 0 := by decide

/-- The most negative number is its own magnitude, and saturating sums stop at the bounds (Table 7.1). -/
theorem test_abs_addsat :
    result (.abs 0 3 1) (one [(.v 1 0 0, 0x80000000)]) 3 = 0x80000000 ∧
    result (.addsat 0 0 3 1 2) (one [(.v 1 0 0, 0x7FFFFFFF), (.v 2 0 0, 1)]) 3 = 0x7FFFFFFF ∧
    result (.subsat 0 1 3 1 2) (one [(.v 1 0 0, 1), (.v 2 0 0, 2)]) 3 = 0 := by decide

/-- Shifts of the width and more, and a field past the top of a word (R168, R169). -/
theorem test_shift_field :
    result (.shl 3 1 2) (one [(.v 1 0 0, 1), (.v 2 0 0, 32)]) 3 = 0 ∧
    result (.shrS 3 1 2) (one [(.v 1 0 0, 0x80000000), (.v 2 0 0, 40)]) 3 = 0xFFFFFFFF ∧
    result (.fldxS 3 1 2) (one [(.v 1 0 0, 0xF0), (.v 2 0 0, 0x0404)]) 3 = 0xFFFFFFFF ∧
    result (.fldxU 3 1 2) (one [(.v 1 0 0, 0xF0000000), (.v 2 0 0, 0x081C)]) 3 = 0xF := by decide

/-- The conversions of Table 2.6. -/
theorem test_convert_table :
    result (.cvt 4 3 1 1 1) (one [(.v 1 0 0, 0x3F800000)]) 3 = 0x38 ∧
    result (.cvt 3 3 1 1 1) (one [(.v 1 0 0, 0x3DCCCCCD)]) 3 = 0x3DCD ∧
    result (.cvt 3 3 1 1 2) (one [(.v 1 0 0, 0x3DCCCCCD)]) 3 = 0x3DCC ∧
    result (.cvt 4 3 1 1 1) (one [(.v 1 0 0, 0x43EB0000)]) 3 = 0x7F ∧
    result (.cvt 4 3 1 1 2) (one [(.v 1 0 0, 0x43EB0000)]) 3 = 0x7E ∧
    result (.cvt 4 3 1 1 3) (one [(.v 1 0 0, 0x3A800000)]) 3 = 0x01 ∧
    result (.cvt 6 3 1 1 1) (one [(.v 1 0 0, 0x40A00000)]) 3 = 0x6 ∧
    result (.cvt 6 3 1 1 5) (one [(.v 1 0 0, 0x40A00000)]) 3 = 0x7 ∧
    result (.cvt 5 3 1 1 1) (one [(.v 1 0 0, 0x47C35000)]) 3 = 0x7C := by decide

/-- −0.4 converted to N32 is 0 with NX under RNE and 0 with NV under RDN (R45). -/
theorem test_convert_unsigned :
    result (.cvt 9 3 1 1 1) (one [(.v 1 0 0, 0xBECCCCCD)]) 3 = 0 ∧ flagsOf (.cvt 9 3 1 1 1) (one [(.v 1 0 0, 0xBECCCCCD)]) = 1 ∧
    flagsOf (.cvt 9 3 1 1 4) (one [(.v 1 0 0, 0xBECCCCCD)]) = 16 := by decide


/-- The branch of R133's example: members 0 and 1 of a slice, T = 0x86. -/
def branchState : State :=
  stateOf { smallGroup { pc := 0x1008, active := 0xFF, exited := 0 } [(.p 1 0 1, 1), (.p 1 0 2, 1), (.p 1 1 3, 1)] with e := 2 }

/-- The pairs of T are deferred to 0x1020, and the others fall through with 0x79 (R130, R133). -/
theorem test_branch_divides :
    let x := sliceAt (after (exec (.bra 1 6) branchState)) 0 0 0
    x.pc = 0x100C ∧ x.active = 0x79 ∧ x.stack = [{ mask := 0x86, deferred := true, addr := 0x1020 }] := by decide

/-- With lane 0 of member 0 exited, the JOIN of R133's example restores 0xFE and goes on after it. -/
theorem test_join_region :
    let x := sliceAt (after (exec .join (stateOf { smallGroup { pc := 0x1040, active := 0x86, exited := 1, stack := [{ mask := 0xFF, deferred := false, addr := 0x1040 }] } [] with e := 2 }))) 0 0 0
    x.pc = 0x1044 ∧ x.active = 0xFE ∧ x.stack = [] := by decide +kernel

/-- A lane exchange reads before it writes: LXG.FLIP by 1 swaps neighbours (R174). -/
theorem test_flip_swaps :
    let s := after (exec (.lxgFlip 1 1 2) (stateOf (smallGroup (oneSlice 3) [(.v 1 0 0, 5), (.v 1 0 1, 6), (.v 2 0 0, 1), (.v 2 0 1, 1)])))
    cell s 0 0 (.v 1 0 0) = 6 ∧ cell s 0 0 (.v 1 0 1) = 5 := by decide +kernel

/-- +0 and −0 compare equal, and a NaN is not less, with NV (R190). -/
theorem test_fcmp :
    cell (after (exec (.fcmp 0 0 1 2 3) (one [(.v 2 0 0, 0x80000000)]))) 0 0 (.p 1 0 0) = 1 ∧
    cell (after (exec (.fcmp 2 0 1 2 3) (one [(.v 2 0 0, 0x7FC00000)]))) 0 0 (.p 1 0 0) = 0 ∧
    flagsOf (.fcmp 2 0 1 2 3) (one [(.v 2 0 0, 0x7FC00000)]) = 16 := by decide

/-- The addends 2^900, 2^−900 and −2^900 leave 2^174 in a long accumulator (R50). -/
theorem test_lacc_exact :
    ((({} : Lacc).add (.fin false 1 900)).add (.fin false 1 (-900)) |>.add (.fin true 1 900)).n = BitVec.twoPow 2176 174 := by
  decide +kernel

/-- PACK.TB4 of R192's example: lane 0 holds 0x8001, lane 7 holds 0x8004, and UF and NX are set. -/
theorem test_pack_tb4 :
    let s := after (exec (.packTb4 6 4 1) (stateOf { probeGroup with
      slices := { active := 0xF } :: { active := 0xF } :: List.replicate 6 doneSlice
      regs := [(.v 4 0 0, 0x3F400000), (.v 4 0 1, 0xC0400000), (.v 4 0 2, 0x3FC00000), (.v 4 0 3, 0x41400000),
        (.v 4 0 5, 0x3E800000), (.v 4 0 6, 0xC1400000), (.v 4 0 7, 0x40900000)] }))
    cell s 0 0 (.v 6 0 0) = 0x8001 ∧ cell s 0 0 (.v 6 0 1) = 0x800B ∧ cell s 0 0 (.v 6 0 7) = 0x8004 ∧
      cell s 0 0 (.fpm 0) &&& 0x1F = 3 := by decide +kernel

/-- The router of R203's example: the three most preferred of eight logits. -/
theorem test_topk :
    let s := after (exec (.topk 0 8 2 3) (stateOf { probeGroup with
      slices := { active := 0xF, src3 := some 0x7F, imm := [3] } :: { active := 0xF, src3 := some 0x7F, imm := [3] } :: List.replicate 6 doneSlice
      regs := [(.v 2 0 0, 0x3F000000), (.v 2 0 1, 0x40000000), (.v 2 0 2, 0x7FC00000), (.v 2 0 3, 0x40000000), (.v 2 0 4, 0xBF800000),
        (.v 2 0 5, 0x40600000), (.v 2 0 6, 0x3E800000), (.v 2 0 7, 0x80000000), (.v 3 0 1, 1), (.v 3 0 2, 2), (.v 3 0 3, 3), (.v 3 0 4, 4),
        (.v 3 0 5, 5), (.v 3 0 6, 6), (.v 3 0 7, 7)] }))
    cell s 0 0 (.v 8 0 0) = 0x40600000 ∧ cell s 0 0 (.v 9 0 0) = 5 ∧ cell s 0 0 (.v 9 0 1) = 1 ∧ cell s 0 0 (.v 9 0 2) = 3 ∧
      cell s 0 0 (.v 9 0 3) = 0xFFFFFFFF := by decide +kernel

/-- The state of R205's example: eight members of one sibling, in lane 0. -/
def ensemble : State :=
  stateOf { smallGroup { active := 0x11111111, exited := 0xEEEEEEEE } [(.v 1 0 0, 0x40000000), (.v 1 1 0, 0x40800000), (.v 1 2 0, 0x40800000),
    (.v 1 3 0, 0x40800000), (.v 1 4 0, 0x40A00000), (.v 1 5 0, 0x40A00000), (.v 1 6 0, 0x40E00000), (.v 1 7 0, 0x41100000)] with e := 8 }

/-- The mean and the spread of R205's example. -/
theorem test_ensemble :
    result (.estatMean 3 1 1 1) ensemble 3 = 0x40A00000 ∧ result (.estatSprd 3 1 1 1) ensemble 3 = 0x40000000 := by decide +kernel

/-- The arrival of group 0 in R323's example, after two engine arrivals. -/
theorem test_barrier_example :
    let b : Barrier := { phase := 0, expect := 0, arrived := 2 }
    (arrivedAt b 3 (.group 0) 7).phase = 1 ∧ (arrivedAt b 3 (.group 0) 7).arrived = 0 ∧ (arrivedAt b 3 (.group 0) 7).expect = 0 := by decide

/-! ## Witnesses: for the hypotheses of each statement a state that meets them -/

/-- The issue of gang 0 of the one group meets a check. -/
def meets (s : State) (hint : Bool) (p : Issue → Bool) : Bool := match issueOf s 0 0 0 hint with
  | some c => decide (c.uid = 0 ∧ c.gid = 0 ∧ c.gang = 0) && p c
  | none => false

theorem of_meets {s : State} {hint : Bool} {p : Issue → Bool} (h : meets s hint p = true) :
    ∃ c : Issue, issueOf s c.uid c.gid c.gang hint = some c ∧ (c.uid = 0 ∧ c.gid = 0 ∧ c.gang = 0) ∧ p c = true := by
  unfold meets at h
  split at h
  · rename_i c hc
    simp only [Bool.and_eq_true, decide_eq_true_eq] at h
    obtain ⟨⟨h1, h2, h3⟩, hp⟩ := h
    exact ⟨c, by rw [h1, h2, h3]; exact hc, ⟨h1, h2, h3⟩, hp⟩
  · exact absurd h Bool.false_ne_true

/-- An instruction that no check stops. -/
theorem issues_of {j : Instr} {s : State} {P : Issue → Prop} [DecidablePred P] (h0 : s.issuer = .gang 0 0 0)
    (h : meets s false (fun c => decide (precheck j c = none) && decide (P c)) = true) : ∃ c, Issues j s c ∧ P c := by
  obtain ⟨c, h1, ⟨ha, hb, hc⟩, h2⟩ := of_meets h
  simp only [Bool.and_eq_true, decide_eq_true_eq] at h2
  exact ⟨c, ⟨by rw [ha, hb, hc]; exact h0, h1, h2.1⟩, h2.2⟩

/-- Every instruction of a list is one that no check stops, on issues that meet `P`. -/
theorem all_issue {l : List Instr} {s : State} {P : Issue → Prop} [DecidablePred P] (h0 : s.issuer = .gang 0 0 0)
    (h : l.all (fun j => meets s false (fun c => decide (precheck j c = none) && decide (P c))) = true) :
    ∀ j ∈ l, ∃ c, Issues j s c ∧ P c := fun j hj => issues_of h0 (List.all_eq_true.1 h j hj)

/-- A gang whose issue meets `P`, whatever the checks say. -/
theorem gang_of {s : State} {hint : Bool} {P : Issue → Prop} [DecidablePred P] (h0 : s.issuer = .gang 0 0 0)
    (h : meets s hint (fun c => decide (P c)) = true) :
    ∃ c : Issue, s.issuer = .gang c.uid c.gid c.gang ∧ issueOf s c.uid c.gid c.gang hint = some c ∧ P c := by
  obtain ⟨c, h1, ⟨ha, hb, hc⟩, h2⟩ := of_meets h
  exact ⟨c, by rw [ha, hb, hc]; exact h0, h1, of_decide_eq_true h2⟩

/-- A slice waits at the word `a`, in no microprogram. -/
def waitsThere (a : VAddr) (x : Slice) : Bool :=
  decide (x.wait = .parked) && match x.park with
    | some p => decide (p.addr = a) && decide (p.run = none)
    | none => false

/-- A slice stands whole at a gang-wide instruction, or waits there, or has finished. -/
def wholeSlice (c : Issue) (sl : Nat) : Bool :=
  if c.slices.contains sl then decide (allHere c sl)
  else decide ((c.group.slice sl).wait = .finished) || waitsThere c.pc (c.group.slice sl)

/-- The gang is the whole of its group at a gang-wide instruction. -/
def whole (j : Instr) (c : Issue) : Bool :=
  decide (precheckCore j c = none) && (decide (c.group.mac = []) && (decide (c.group.slices.length = 8) && (List.range 8).all (wholeSlice c)))

theorem waitsThere_waitsAt {a : VAddr} {x : Slice} (h : waitsThere a x = true) : waitsAt a x := by
  unfold waitsThere at h
  split at h
  · rename_i p hp
    simp only [Bool.and_eq_true, decide_eq_true_eq] at h
    exact ⟨h.1, p, hp, h.2⟩
  · simp at h

/-- A whole group at a gang-wide instruction. -/
theorem whole_of {j : Instr} {s : State} {P : Issue → Prop} [DecidablePred P] (h0 : s.issuer = .gang 0 0 0)
    (h : meets s false (fun c => whole j c && decide (P c)) = true) : ∃ c, WholeGroup j s c ∧ P c := by
  obtain ⟨c, h1, ⟨ha, hb, hc⟩, h2⟩ := of_meets h
  simp only [whole, Bool.and_eq_true, decide_eq_true_eq, List.all_eq_true, List.mem_range] at h2
  refine ⟨c, ⟨⟨by rw [ha, hb, hc]; exact h0, h1, h2.1.1⟩, h2.1.2.1, h2.1.2.2.1, fun sl hsl => ?_⟩, h2.2⟩
  have h3 := h2.1.2.2.2 sl hsl
  unfold wholeSlice at h3
  split at h3 <;> rename_i hc2
  · rw [if_pos hc2]
    exact of_decide_eq_true h3
  · rw [if_neg hc2]
    simp only [Bool.or_eq_true, decide_eq_true_eq] at h3
    exact h3.imp id waitsThere_waitsAt

/-- A whole group at each gang-wide instruction of a list. -/
theorem all_whole {l : List Instr} {s : State} {P : Issue → Prop} [DecidablePred P] (h0 : s.issuer = .gang 0 0 0)
    (h : l.all (fun j => meets s false (fun c => whole j c && decide (P c))) = true) :
    ∀ j ∈ l, ∃ c, WholeGroup j s c ∧ P c := fun j hj => whole_of h0 (List.all_eq_true.1 h j hj)

/-- The grid with a field of its record raised by `v`. -/
def field (off : Nat) (v : Int) (g : Grid) : Grid := { g with record := g.record + BitVec.ofInt 2048 (v * 2 ^ (8 * off)) }

/-- The grid with a trap handler at 0x100. -/
def withHandler (g : Grid) : Grid := field 0x10 (0x100 - 0xFFFFFFFF) g

/-- A slice with a literal, and a third source that is that literal. -/
def withThird (x : Slice) : Slice := { x with imm := [3], src3 := some 0x7F }

/-- Bytes of memory from an address up. -/
def withBytes (a : Nat) (bs : List Byte) (s : State) : State := { s with mem := bytesSet s.mem a bs }

theorem witness_IntegerAndLogicResults :
    ∀ j ∈ [Instr.add 0 1 2 3, .add 1 2 4 6, .sub 0 1 2 3, .addsat 1 0 2 4 6, .subsat 0 1 1 2 3, .min 0 1 1 2 3, .max 1 0 2 4 6, .abs 0 1 2, .neg 1 2 4,
      .mov 0 0x7E 0x78, .addi 0x60 0x70 7, .and 1 2 3, .or 1 2 3, .xor 1 2 3, .andn 1 2 3, .orn 1 2 3, .not 1 2, .shl 1 2 3, .shrU 1 2 3, .shrS 1 2 3,
      .rol 1 2 3, .ror 1 2 3, .shl64 2 4 3, .shr64U 2 4 3, .shr64S 2 4 3], ∃ c, Issues j (one []) c ∧ c.live ≠ [] :=
  all_issue rfl (by decide +kernel)

theorem witness_FieldMultiplyDivideResults :
    ∀ j ∈ [Instr.popc 1 2, .clz 1 2, .ctz 1 2, .brev 1 2, .fldxU 1 2 3, .fldxS 1 2 3, .fldi 1 2 3, .bysel 1 2 3, .mul 1 2 3, .mulhiS 1 2 3, .mulhiU 1 2 3,
      .mad 1 2 3, .mulwS 2 4 5, .mulwU 2 4 5, .mul64 2 4 6, .mulhi64S 2 4 6, .mulhi64U 2 4 6, .divS 1 2 3, .divU 1 2 3, .remS 1 2 3, .remU 1 2 3,
      .div64S 2 4 6, .div64U 2 4 6, .rem64S 2 4 6, .rem64U 2 4 6], ∃ c, Issues j (one []) c ∧ c.live ≠ [] :=
  all_issue rfl (by decide +kernel)

theorem witness_CompareAndPredicateResults :
    ∀ j ∈ [Instr.icmp 0 0 1 2 3, .icmp 3 5 0 4 6, .lea 9 2 4 5, .pand 1 0 2 1 3, .por 1 0 2 1 3, .pxor 1 0 2 1 3, .pmov 1 1 2, .ptov 3 1 2, .vtop 1 2],
      ∃ c, Issues j (one []) c ∧ c.live ≠ [] :=
  all_issue rfl (by decide +kernel)

theorem witness_FloatArithmeticResults :
    ∀ j ∈ [Instr.fadd 0 1 1 2 3, .fsub 1 0 2 4 6, .fmul 2 2 1 2 3, .fma 3 3 1 2 3, .fmin 0 1 2 3, .fmax 1 2 4 6, .fabs 2 1 2, .fneg 3 1 2, .fcpys 0 1 2 3,
      .fclass 1 1 2, .fscale 0 1 2 3, .fcmp 7 0 1 2 3], ∃ c, Issues j (one []) c ∧ c.live ≠ [] :=
  all_issue rfl (by decide +kernel)

/-- The third source of FMA, MAD and FLDI where it is bound. -/
theorem witness_FloatArithmeticResults_third_source :
    ∀ j ∈ [Instr.fma 0 1 1 2 3, .mad 1 2 3, .fldi 1 2 3],
      ∃ c, Issues j (stateOf (smallGroup (withThird (oneSlice 1)) [])) c ∧ c.live ≠ [] :=
  all_issue rfl (by decide +kernel)

/-- 3 × 2^−150, which lies between two subnormals of binary32: rounded down it is the pattern 1, with UF and NX. -/
theorem witness_RoundingChoosesANeighbour :
    (fmtF32.round .rtz 0 false false 3 (-150)).2 &&& flagOF = 0 ∧ (fmtF32.round .rtz 0 false false 3 (-150)).1 = 1 ∧
      (fmtF32.round .rne 0 false false 3 (-150)).1 = 2 ∧ 1 < fmtF32.signBit := by decide +kernel

/-- A signalling NaN, two infinities, zero times infinity, and x − x, in binary32; finite operands whose sum is 2 and whose
difference is 0; the order of two patterns; and a number to scale. -/
theorem witness_FloatSpecialCases :
    ((fmtF32.value 0x7F800001).isNan ∧ fmtF32.value 0x7F800000 = .inf false ∧ fmtF32.value 0xFF800000 = .inf true ∧ (fmtF32.value 0).isZero ∧
      (fmtF32.value 0x7F800000).isInf ∧ fmtF32.value 0x3F800000 = .fin false 0x800000 (-23) ∧
      fmtF32.value 0xBF800000 = .fin true 0x800000 (-23)) ∧
    (exactValue (.fin false 0x800000 (-23)) = some 1 ∧ exactValue (.fin true 0x800000 (-23)) = some (-1) ∧ (1 + 1 : ℚ) = ratOf false 1 1) ∧
    (keyBefore fmtF32 0x80000000 0 ∧ ¬ keyBefore fmtF32 0 0x80000000 ∧ 0xFFFFFFFF < 2 * fmtF32.signBit) := by
  refine ⟨by decide +kernel, ⟨?_, ?_, ?_⟩, ?_⟩
  · norm_num [exactValue]
  · norm_num [exactValue]
  · norm_num [ratOf]
  · simp [keyBefore, Fmt.signBit, fmtF32]

theorem witness_ConversionAndUnaryResults :
    ∀ j ∈ [Instr.cvt 3 5 4 1 1, .cvt 0 2 4 9 0, .cvt 14 2 4 1 2, .packMx8 0 1 2 6, .packMx4 1 2 1, .packTb4 1 2 1, .unpkMx8 1 1 2 1, .unpkMx4 1 2 1, .unpkTb4 1 2 1,
      .rcp 1 2 1, .rsq 1 2 1, .sqrt 1 2 1, .exp2 1 2 1, .log2 1 2 1, .sinpi 1 2 1, .cospi 1 2 1], ∃ c, Issues j (one []) c ∧ c.live ≠ [] :=
  all_issue rfl (by decide +kernel)

/-- Operands of CVT: a NaN, an infinity, 2.5, and integers below and above the range of a byte; the integer 300. -/
theorem witness_ConversionAndUnaryResults_cvt :
    (cvtValue 1 0x7FC00000).isNan ∧ cvtValue 1 0xFF800000 = .inf true ∧ cvtValue 1 0x40200000 = .fin false 0xA00000 (-22) ∧
      exactValue (.fin false 0xA00000 (-22)) = some (5 / 2) ∧ cvtValue 9 300 = .fin false 44 0 ∧ cvtValue 8 0xFF = .fin true 1 0 := by
  refine ⟨by decide +kernel, by decide +kernel, by decide +kernel, ?_, by decide +kernel, by decide +kernel⟩
  norm_num [exactValue]

/-- The block of the one value 1.0: its scale exponent in E4M3 is −8 (256 fits, 512 does not), its TB4 scale pattern 22 (132/128);
a block with an infinity is bad. -/
theorem witness_ConversionAndUnaryResults_packs :
    blockMax [0x3F800000] = 1 ∧ mxScale fmtE4M3 .rne 1 (-8) ∧ ([0x3F800000].any fun a => (fmtF32.value a).isNan || (fmtF32.value a).isInf) = false ∧
      ([0x3F800000, 0x7F800000].any fun a => (fmtF32.value a).isNan || (fmtF32.value a).isInf) = true ∧
      (1 ≤ 6 * magnitude fmtE3M5 22 ∧ ∀ i < 22, 6 * magnitude fmtE3M5 i < 1) := by
  have hv : fmtF32.value 0x3F800000 = .fin false 0x800000 (-23) := by decide +kernel
  have hm : ∀ i : Nat, i < 32 → magnitude fmtE3M5 i = i * 2 ^ (-7 : Int) := by
    intro i hi
    have h0 : i / 2 ^ fmtE3M5.mb = 0 := Nat.div_eq_of_lt hi
    have h1 : i % 2 ^ fmtE3M5.mb = i := Nat.mod_eq_of_lt hi
    simp only [magnitude, h0, h1, if_true]
    rfl
  refine ⟨?_, ⟨by norm_num, by norm_num, ?_⟩, by decide +kernel, by decide +kernel, ?_, fun i hi => ?_⟩
  · simp only [blockMax, List.filterMap, hv, exactValue, List.foldl]
    norm_num
  · simp only [one_ne_zero, if_false]
    refine ⟨.inl ?_, fun y _ hy h => ?_⟩
    · simp only [fitsUnbounded, elemTop, if_true]
      norm_num
    · simp only [fitsUnbounded, elemTop, if_true, one_mul] at h
      have h9 : (2 : ℚ) ^ (9 : Int) ≤ 2 ^ (-y) := zpow_le_zpow_right₀ (by norm_num) (by omega)
      norm_num at h9 h
      linarith
  · rw [hm 22 (by decide)]
    norm_num
  · rw [hm i (by omega)]
    have : (i : ℚ) ≤ 21 := by exact_mod_cast (by omega : i ≤ 21)
    norm_num
    linarith

/-- The operands 2, which is a power of two, and 0.5, half past an integer; the scales 1 of E8M0 and of E3M5. -/
theorem witness_ConversionAndUnaryResults_unary :
    fmtF32.value 0x40000000 = .fin false 0x800000 (-22) ∧ exactValue (.fin false 0x800000 (-22)) = some 2 ∧ (2 : ℚ) = ((2 : Int) : ℚ) ∧ (2 : ℚ) = 2 ^ (1 : Int) ∧
      fmtF32.value 0x3F000000 = .fin false 0x800000 (-24) ∧ exactValue (.fin false 0x800000 (-24)) = some (1 / 2) ∧
      e8m0 127 = some (.fin false 1 0) ∧ fmtE2M1.value 1 = .fin false 1 (-1) := by
  refine ⟨by decide +kernel, ?_, by norm_num, by norm_num, by decide +kernel, ?_, by decide +kernel, by decide +kernel⟩ <;> norm_num [exactValue]

/-! ### Control flow and traps -/

theorem witness_BranchAndCallMoveSlices :
    ∀ j ∈ [Instr.bra 1 6, .call 1 6], ∃ c, Issues j branchState c ∧ ∀ sl ∈ c.slices, roomFor 1 (c.group.slice sl) :=
  all_issue rfl (by decide +kernel)

/-- Two lanes of a slice with targets 0x20 and 0x10. -/
def splitState : State :=
  stateOf (smallGroup (oneSlice 3) [(.v 2 0 0, 0x20), (.v 2 0 1, 0x10)])

theorem witness_IndirectBranchesMoveSlices :
    ∀ j ∈ [Instr.bri 2, .ret 2], ∃ c, Issues j splitState c ∧ (∀ p ∈ c.live, targetOk c.grid (c.src64 2 p)) ∧
      ∀ sl ∈ c.slices, roomFor (c.targets 2 sl).length (c.group.slice sl) :=
  all_issue rfl (by decide +kernel)

/-- The page 0 of memory mapped with every permission, in a lease with every permission; code and data of one page. -/
def mapped0 (s : State) : State :=
  { s with
    cores := [(0, { tlb := [{ asid := 0, shift := 16, vpn := 0, frame := 0, r := true, w := true, x := true, d := true, leaf := 0x10000 }] })]
    grids := s.grids.map fun g => { g with leases := [⟨0, 65536, true, true, true⟩] } }

/-- A JOIN stands after the call, and a header that declares a budget of 16 before its one target. -/
def callState : State :=
  let s := mapped0 (stateOf (smallGroup (oneSlice 3) [(.v 2 0 0, 0x20), (.v 2 0 1, 0x20)]))
  l2WriteBytes (l2WriteBytes s 4 (bytesOfNat 4 0xFD000000)) 0x1C (bytesOfNat 4 0xF8800000)

theorem witness_IndirectBranchesMoveSlices_calli : ∃ c, Issues (.calli 4 2) callState c ∧
    ((∀ p ∈ c.live, targetOk c.grid (c.src64 2 p)) ∧ (∀ sl ∈ c.slices, roomFor (c.targets 2 sl).length (c.group.slice sl)) ∧
      (codeWord callState c.team.core c.grid (c.pc + 4).toNat).bind decodeRaw = some .join ∧
      ∀ p ∈ c.live, headerVbud callState c.team.core c.grid (c.src64 2 p).toNat ≤ c.group.regbud) :=
  issues_of rfl (by decide +kernel)

theorem witness_IndirectBranchesMoveSlices_BadTargetTraps :
    ∀ j ∈ [Instr.bri 2, .ret 2], ∃ c, Issues j (one [(.v 2 0 0, 0x22)]) c ∧ ∃ p ∈ c.live, ¬ targetOk c.grid (c.src64 2 p) :=
  all_issue rfl (by decide +kernel)

theorem witness_RegionsArePushedAndJoined_rpush : ∃ c, Issues (.rpush 4) (one []) c ∧ (c.mac = none ∧ ∀ sl ∈ c.slices, roomFor 1 (c.group.slice sl)) :=
  issues_of rfl (by decide +kernel)

/-- A slice at the JOIN of its region, with a deferred entry all of whose pairs have exited between. -/
def joinState : State :=
  stateOf (smallGroup { oneSlice 1 with pc := 0x40, stack := [{ mask := 2, deferred := true, addr := 8 }, { mask := 1, deferred := false, addr := 0x40 }] } [])

theorem witness_RegionsArePushedAndJoined_join : ∃ c : Issue, joinState.issuer = .gang c.uid c.gid c.gang ∧ issueOf joinState c.uid c.gid c.gang true = some c ∧
    (∀ sl ∈ c.slices, (c.group.slice sl).pfx = none ∧ (c.group.slice sl).park = none ∧ (c.group.slice sl).spilled = 0 ∧
      (c.group.slice sl).stack.length ≤ 32 ∧ (∀ e ∈ (c.group.slice sl).stack, !e.bad) ∧
      (∃ e ∈ (c.group.slice sl).stack, e.mask &&& ~~~(c.group.slice sl).exited ≠ 0) ∧
      ((c.group.slice sl).stack.head?.all fun e => e.deferred || e.addr == (c.group.slice sl).pc) = true) :=
  gang_of rfl (by decide +kernel)

theorem witness_ExitAndRegang_exit_goes_on : ∃ c, Issues .exit (stateOf (smallGroup { oneSlice 1 with exited := 0xC, stack := [{ mask := 3, deferred := false, addr := 0x40 }] } [])) c ∧
    (c.group.privileged = false ∧ ∀ sl ∈ c.slices, (c.group.slice sl).park = none ∧ (c.group.slice sl).spilled = 0 ∧
      (c.group.slice sl).stack.length ≤ 32 ∧ (∀ e ∈ (c.group.slice sl).stack, !e.bad) ∧
      ∃ e ∈ (c.group.slice sl).stack, e.mask &&& ~~~((c.group.slice sl).exited ||| (c.group.slice sl).active) ≠ 0) :=
  issues_of rfl (by decide +kernel)

theorem witness_ExitAndRegang_exit_ends : ∃ c, Issues .exit (one []) c ∧
    (c.group.privileged = false ∧ (∀ sl ∈ c.slices, (c.group.slice sl).park = none ∧ (c.group.slice sl).spilled = 0) ∧
      ∀ sl < c.group.slices.length, (c.group.slice sl).wait = .finished ∨
        (c.slices.contains sl ∧ ∀ e ∈ (c.group.slice sl).stack, e.mask &&& ~~~((c.group.slice sl).exited ||| (c.group.slice sl).active) = 0)) :=
  issues_of rfl (by decide +kernel)

/-- A slice that waits at REGANG, and the issuing one, the last. -/
def regangState : State :=
  stateOf { probeGroup with slices := oneSlice 1 :: { oneSlice 1 with gang := 1, wait := .regang } :: List.replicate 6 doneSlice }

theorem witness_ExitAndRegang_regang : ∃ c, Issues .regang regangState c ∧ (c.group.slices.length = 8 ∧
    ∀ sl < 8, (c.group.slice sl).wait = .finished ∨ ((c.group.slice sl).pc = c.pc ∧ (c.slices.contains sl ∨ (c.group.slice sl).wait = .regang) ∧
      stackShape c.grid c.team c.group sl = stackShape c.grid c.team c.group (c.slices.headD 0))) :=
  issues_of rfl (by decide +kernel)

theorem witness_MicroprogramAndHintResults_nop : ∃ c, Issues .nop (one []) c ∧ c.live ≠ [] := issues_of rfl (by decide +kernel)

/-- A group with a handler at 0x100. -/
def handled : State := stateOf (smallGroup (oneSlice 1) []) id withHandler

theorem witness_SoftwareTrapsEnterTheHandler : ∀ j ∈ [Instr.trap 7, .brk], ∃ c, Issues j handled c ∧ (handles c ∧ c.live ≠ [] ∧ noneHeld c) :=
  all_issue rfl (by decide +kernel)

theorem witness_SoftwareTrapsEnterTheHandler_SoftwareTraps_unhandled : ∀ j ∈ [Instr.trap 7, .brk], ∃ c, Issues j (one []) c ∧ (¬ handles c ∧ c.live ≠ [] ∧ noneHeld c) :=
  all_issue rfl (by decide +kernel)

/-- A slice that REGROUP has left no pair. -/
def emptied : State := stateOf (smallGroup (oneSlice 0) [])

theorem witness_SoftwareTrapsEnterTheHandler_no_live_pair : ∀ j ∈ [Instr.trap 7, .brk], ∃ c, Issues j emptied c ∧ c.live = [] :=
  all_issue rfl (by decide +kernel)

/-- An odd pair is no legal operand: ADD.64 v1 traps ILLEGAL_INSTR. -/
theorem witness_PreciseTraps : ∃ c : Issue, handled.issuer = .gang c.uid c.gid c.gang ∧ issueOf handled c.uid c.gid c.gang false = some c ∧
    (groupStream (.add 1 1 2 4) = true ∧ precheckCore (.add 1 1 2 4) c = some { code := 0x0101 } ∧ noneHeld c ∧ handles c) :=
  gang_of rfl (by decide +kernel)

theorem witness_PreciseTraps_UnhandledTraps : ∃ c : Issue, (one []).issuer = .gang c.uid c.gid c.gang ∧ issueOf (one []) c.uid c.gid c.gang false = some c ∧
    (precheckCore (.add 1 1 2 4) c = some { code := 0x0101 } ∧ noneHeld c ∧ ¬ handles c) :=
  gang_of rfl (by decide +kernel)

theorem witness_PrivilegeIsChecked : ∃ c : Issue, (one []).issuer = .gang c.uid c.gid c.gang ∧ issueOf (one []) c.uid c.gid c.gang false = some c ∧
    (c.mac = none ∧ legal .hret ∧ c.group.privileged = false ∧ c.live ≠ [] ∧ ∀ sl ∈ c.slices,
      bindingOk .hret false (c.group.immOf sl) (c.group.src3Of sl) (c.group.rndOf sl) (c.group.dupOf sl) ∧ (c.group.slice sl).guardWin = none) :=
  gang_of rfl (by decide +kernel)

theorem witness_PrivilegeIsChecked_no_live_pair : ∃ c : Issue, emptied.issuer = .gang c.uid c.gid c.gang ∧
    issueOf emptied c.uid c.gid c.gang false = some c ∧
    (c.mac = none ∧ legal (.add 0 1 2 3) ∧ c.live = []) :=
  gang_of rfl (by decide +kernel)

/-- Outside the handler's instructions, a register past the budget is the one cause left: REG_BUDGET. -/
theorem witness_PrivilegeIsChecked_PrivilegeIsNotMet : ∃ c : Issue, (stateOf { smallGroup (oneSlice 1) [] with regbud := 8 }).issuer = .gang c.uid c.gid c.gang ∧
    issueOf (stateOf { smallGroup (oneSlice 1) [] with regbud := 8 }) c.uid c.gid c.gang false = some c ∧
    precheckCore (.add 0 9 1 2) c = some { code := 0x0103 } :=
  gang_of rfl (by decide +kernel)

/-- A group in its handler, with the slices that entry saved. -/
def inHandler (depths : List Nat) : State :=
  let x : Slice := { oneSlice 1 with pc := 0x40 }
  stateOf { smallGroup { oneSlice 1 with pc := 0x104 } [] with
    privileged := true
    saved := some { slices := x :: List.replicate 7 doneSlice, left := [], depths := depths, clk := 0, trw := false, cause := 0x0110 } } id withHandler

theorem witness_HandlerReturnRestoresSlices : ∃ c, Issues .hret (inHandler (List.replicate 8 0)) c ∧
    (c.live ≠ [] ∧ (c.group.saved.map fun v => v.trw) = some false ∧ (c.group.saved.map fun v => v.depths) = some (c.group.slices.map fun x => x.stack.length + x.spilled) ∧
      (c.group.saved.map fun v => v.slices.length) = some c.group.slices.length) :=
  issues_of rfl (by decide +kernel)

theorem witness_HandlerReturnRestoresSlices_HandlerReturn_depth : ∃ c, Issues .hret (inHandler (1 :: List.replicate 7 0)) c ∧
    (c.live ≠ [] ∧ (c.group.saved.map fun v => v.trw) = some false ∧
      (c.group.saved.map fun v => v.depths) ≠ some (c.group.slices.map fun x => x.stack.length + x.spilled)) :=
  issues_of rfl (by decide +kernel)

/-! ### Memory -/

/-- One pair with the address 0x40 in v2:v3, its page mapped, and 4 KiB of Hawk and of column. -/
def dataState : State :=
  mapped0 (stateOf (smallGroup (oneSlice 1) [(.v 2 0 0, 0x40), (.v 4 0 0, 0x100), (.v 6 0 0, 0x200)]) id fun g => field 0x28 4096 (field 0x2C 4096 g))

/-- The same with a Hod command, a Bead operation and a reflection of the group still on their way. -/
def commandedState : State :=
  { dataState with
    teams := dataState.teams.map fun m => { m with hods := [⟨0, 0, 0, 0, 0x400⟩], beads := [⟨0, 0, 0, 0, 0⟩] }
    undelivered := [(0, 0, 0)] }

/-- The L1 holds the line 1 with a dirty byte and, bound to it, the line 2. -/
def boundState : State :=
  dataState.updCore 0 fun x => { x with l1 := [{ line := 1, bytes := [(0, 5, true)], bond := [1, 2] }, { line := 2, bytes := [(3, 6, true)], bond := [1, 2] }] }

/-- The checks of a global access of `w` bytes at v2:v3 pass. -/
abbrev goodAccess (s : State) (perm : Perm) (w : Nat) (c : Issue) : Prop :=
  c.live ≠ [] ∧ hasToken s c ∧ accessOk s c c.live perm w w (fun p => c.src64 2 p)

/-- A core that holds no line of an access meets it with nothing to fetch again. -/
theorem steady_of_notHeld {s : State} {k : Nat} {pas : List Nat} (h : notHeld s k pas) : steady s k pas := by
  intro a ha e he
  rw [h a ha] at he
  exact absurd he (by simp)

theorem witness_GlobalLoadResults :
    (∀ j ∈ [Instr.ld 0 8 2 0, .ld 1 8 2 0, .ld 2 8 2 0, .ld 3 8 2 0, .ld 4 8 2 0, .ld 5 8 2 0, .ld 6 8 2 0, .ldAcq 4 8 2 1 0, .ldAcq 6 8 2 3 0],
      ∃ c, Issues j dataState c ∧ goodAccess dataState .r 16 c) ∧
    ∀ j ∈ [Instr.ld 6 8 2 0, .ldAcq 6 8 2 1 0, .ldAcq 6 8 2 4 0], ∃ c, Issues j dataState c ∧ (goodAccess dataState .r 16 c ∧
      fits dataState c.team.core (c.live.flatMap fun p => physAt dataState c 16 (c.src64 2 p) p) ∧
      steady dataState c.team.core (c.live.flatMap fun p => physAt dataState c 16 (c.src64 2 p) p)) :=
  ⟨all_issue rfl (by decide +kernel), fun j hj => (all_issue (P := fun c => goodAccess dataState .r 16 c ∧
      fits dataState c.team.core (c.live.flatMap fun p => physAt dataState c 16 (c.src64 2 p) p) ∧
      notHeld dataState c.team.core (c.live.flatMap fun p => physAt dataState c 16 (c.src64 2 p) p)) rfl (by decide +kernel) j hj).imp
    fun _ h => ⟨h.1, h.2.1, h.2.2.1, steady_of_notHeld h.2.2.2⟩⟩

theorem witness_GlobalStoreResults :
    (∀ j ∈ [Instr.st 0 8 2 0, .st 1 8 2 0, .st 2 8 2 0, .st 3 8 2 0, .st 4 8 2 0, .stRel 2 8 2 2 0, .stRel 4 8 2 3 0, .stRel 2 8 2 6 0],
      ∃ c, Issues j dataState c ∧ (goodAccess dataState .w 16 c ∧ memWf dataState)) ∧
    ∀ j ∈ [Instr.st 4 8 2 0, .stRel 4 8 2 2 0, .stRel 4 8 2 3 0], ∃ c, Issues j dataState c ∧ (goodAccess dataState .w 16 c ∧ memWf dataState ∧ fits dataState c.team.core (c.live.flatMap fun p => physAt dataState c 16 (c.src64 2 p) p)) :=
  ⟨all_issue rfl (by decide +kernel), all_issue rfl (by decide +kernel)⟩

/-- The address 0x42 is misaligned for a word, and 0x10040 lies in no lease. -/
theorem witness_AccessChecksAndWaits_GlobalAccessChecks :
    (∀ j ∈ [Instr.ld 4 8 2 0, .st 2 8 2 0], ∃ c, Issues j (one [(.v 2 0 0, 0x42)]) c ∧
      c.live.find? (fun p => decide ((c.src64 2 p + 0).toNat % 4 ≠ 0)) = some (0, 0)) ∧
    ∀ j ∈ [Instr.ld 4 8 2 0, .st 2 8 2 0], ∃ c, Issues j (one [(.v 2 0 0, 0x10040)]) c ∧
      (c.live.find? (fun p => decide ((c.src64 2 p).toNat % 4 ≠ 0)) = none ∧
        ∃ p ∈ c.live, ¬ leaseOk c.grid (some (c.group.memberId p.1)) .r (c.src64 2 p).toNat 4) :=
  ⟨all_issue rfl (by decide +kernel), all_issue rfl (by decide +kernel)⟩

/-- One pair with the local offset 0x40 in v2, whose granule is full, and 0x50 in v4, whose granule is empty. -/
def localState : State :=
  mapped0 (stateOf (smallGroup (oneSlice 1) [(.v 2 0 0, 0x40), (.v 4 0 0, 0x50), (.v 6 0 0, 0x400040)]) (fun t => { t with hawkFull := [4] })
    fun g => field 0x28 4096 (field 0x2C 4096 g))

abbrev goodLocal (s : State) (b : BitVec 7) (w : Nat) (c : Issue) : Prop :=
  c.live ≠ [] ∧ hasToken s c ∧ (∀ p ∈ c.live, (c.src b p).toNat % w = 0 ∧ localOk c.grid (c.src b p).toNat w) ∧
    frozenAt s c.team.core (c.live.map fun p => ((c.src b p).toNat : Int)) = false

theorem witness_LocalAccessResults_LocalLoadResults :
    (∀ j ∈ [Instr.ldh 0 8 2 0, .ldh 3 8 2 0, .ldh 6 8 2 0, .ldhWfKeep 4 8 2 0, .ldhWfClr 6 8 2 0],
      ∃ c, Issues j localState c ∧ (goodLocal localState 2 16 c ∧ ∀ a ∈ c.live.flatMap fun p => granules (c.src 2 p).toNat 16, c.team.full a)) ∧
    ∃ c, Issues (.ldhWfClr 6 8 2 0) localState c ∧
      c.wfGo ⟨true, c.live.flatMap fun p => granules (c.src 2 p).toNat 16⟩ (takeToken localState c.team.core c.uid c.gid).1 :=
  ⟨all_issue rfl (by decide +kernel), issues_of rfl (by decide +kernel)⟩

theorem witness_LocalAccessResults_LocalStoreResults :
    ∀ j ∈ [Instr.sth 0 8 6 0, .sth 4 8 6 0, .sthF 2 8 6 0], ∃ c, Issues j localState c ∧ (goodLocal localState 6 16 c ∧ teamMemWf c.team) :=
  all_issue rfl (by decide +kernel)

theorem witness_AccessChecksAndWaits_FullEmptyWaits :
    ∀ j ∈ [Instr.ldhWfKeep 4 8 4 0, .ldhWfClr 4 8 4 0], ∃ c, Issues j localState c ∧
      (goodLocal localState 4 4 c ∧ ∃ p ∈ c.live, ∃ a ∈ granules (c.src 4 p).toNat 4, c.team.full a = false) :=
  all_issue rfl (by decide +kernel)

theorem witness_AtomicResults :
    ∀ j ∈ [Instr.atomAdd 0 8 2 6, .atomMinS 1 8 2 6, .atomMinU 0 8 2 6, .atomMaxS 0 8 2 6, .atomMaxU 1 8 2 6, .atomExch 0 8 2 6, .atomAnd 0 8 2 6,
      .atomOr 1 8 2 6, .atomXor 0 8 2 6, .atomFadd 0 8 2 6, .atomFadd 1 8 2 6],
      ∃ c, Issues j dataState c ∧ (c.live ≠ [] ∧ accessOk dataState c c.live .rw 8 8 (fun p => c.src64 2 p)) :=
  all_issue rfl (by decide +kernel)

/-- A compare-and-swap with its third source bound. -/
theorem witness_AtomicResults_cas : ∃ c, Issues (.atomCas 0 8 2 6) (mapped0 (stateOf (smallGroup (withThird (oneSlice 1)) [(.v 2 0 0, 0x40)]))) c ∧
    (c.live ≠ [] ∧ accessOk (mapped0 (stateOf (smallGroup (withThird (oneSlice 1)) [(.v 2 0 0, 0x40)]))) c c.live .rw 4 4 (fun p => c.src64 2 p)) :=
  issues_of rfl (by decide +kernel)

/-- The pair holds the line of 0x40 reserved, or not. -/
def reserving (r : SMap Nat) : State := mapped0 (stateOf { smallGroup (oneSlice 1) [(.v 2 0 0, 0x40)] with resv := r })

theorem witness_ReservationResults :
    (∃ c, Issues (.lr 1 8 2) (reserving []) c ∧ (c.live = [(0, 0)] ∧ hasToken (reserving []) c ∧
      accessOk (reserving []) c c.live .rw 8 8 (fun p => c.src64 2 p) ∧
      notHeld (reserving []) c.team.core (physAt (reserving []) c 8 (c.src64 2 (0, 0)) (0, 0)))) ∧
    (∃ c, Issues (.sc 1 8 2 6) (reserving [(0, 1)]) c ∧ (c.live = [(0, 0)] ∧ memWf (reserving [(0, 1)]) ∧ mapRising c.group.resv ∧
      (physAt (reserving [(0, 1)]) c 8 (c.src64 2 (0, 0)) (0, 0)).headD 0 / 64 = 1 ∧ mapGet c.group.resv 0 = some 1 ∧
      (physAt (reserving [(0, 1)]) c 8 (c.src64 2 (0, 0)) (0, 0)).Nodup)) ∧
    (∃ c, Issues (.sc 0 8 2 6) (reserving [(0, 2)]) c ∧ (mapRising c.group.resv ∧ mapGet c.group.resv 0 ≠ some 1)) ∧
    fits (reserving [(0, 1)]) 0 [0x40] :=
  ⟨issues_of rfl (by decide +kernel), issues_of rfl (by decide +kernel), issues_of rfl (by decide +kernel), by decide +kernel⟩

theorem witness_BlockAccessResults :
    (∀ x ∈ [(Instr.ldbMx8 8 2 4, (⟨32, 1⟩ : BlockForm)), (.ldbMx4 8 2 4, ⟨16, 1⟩), (.ldbTb4 8 2 4, ⟨16, 4⟩)],
      ∃ c, Issues x.1 dataState c ∧ (c.live ≠ [] ∧ hasToken dataState c ∧ (∀ p ∈ c.live, p.2 < 32) ∧ blockReady dataState c x.2 2 4 .r ∧ blockWhole dataState c x.2 2 4)) ∧
    (∀ x ∈ [(Instr.stbMx8 8 2 4, (⟨32, 1⟩ : BlockForm)), (.stbMx4 8 2 4, ⟨16, 1⟩), (.stbTb4 8 2 4, ⟨16, 4⟩)],
      ∃ c, Issues x.1 dataState c ∧ (c.live ≠ [] ∧ (∀ p ∈ c.live, p.2 < 32) ∧ memWf dataState ∧ teamMemWf c.team ∧ c.slots = [0] ∧ blockReady dataState c x.2 2 4 .w ∧
        (physAt dataState c x.2.elems (c.src64 2 (c.memberPair 0)) (c.memberPair 0) ++
          physAt dataState c x.2.scales (c.src64 4 (c.memberPair 0)) (c.memberPair 0)).Nodup)) ∧
    (∀ x ∈ [(Instr.ldhbMx8 8 2 0, (⟨32, 1⟩ : BlockForm)), (.ldhbMx4 8 2 0, ⟨16, 1⟩), (.ldhbTb4 8 2 0, ⟨16, 4⟩), (.sthbMx8 8 2 0, ⟨32, 1⟩),
        (.sthbMx4 8 2 1, ⟨16, 1⟩), (.sthbTb4 8 2 1, ⟨16, 4⟩)],
      ∃ c, Issues x.1 localState c ∧ (c.live ≠ [] ∧ (∀ p ∈ c.live, p.2 < 32) ∧ memWf localState ∧ teamMemWf c.team ∧ blockReadyLocal localState c x.2 2 ∧ c.slots = [0] ∧
        (c.reg 2 1 (c.memberPair 0)).toNat + x.2.scales ≤ (c.reg 2 0 (c.memberPair 0)).toNat)) ∧
    ∃ c, Issues (.ldhbMx4 8 2 2) (mapped0 (stateOf (smallGroup (oneSlice 1) [(.v 2 0 0, 0x40), (.v 3 0 0, 0x40)]) (fun t => { t with hawkFull := [4] })
        fun g => field 0x28 4096 g)) c ∧
      c.wfGo ⟨true, c.blockCells ⟨16, 1⟩ 2⟩ (takeToken localState c.team.core c.uid c.gid).1 :=
  ⟨fun x hx => by
    have h : ∃ c, Issues x.1 dataState c ∧ ((c.live ≠ [] ∧ hasToken dataState c ∧ (∀ p ∈ c.live, p.2 < 32) ∧ blockReady dataState c x.2 2 4 .r) ∧
        ∀ p ∈ blockPairs c, ∀ y ∈ physAt dataState c x.2.elems (c.src64 2 p) p ++ physAt dataState c x.2.scales (c.src64 4 p) p,
          (dataState.core c.team.core).line? (y / 64) = none) := by
      fin_cases hx <;> exact issues_of rfl (by decide +kernel)
    exact h.imp fun c h => ⟨h.1, h.2.1.1, h.2.1.2.1, h.2.1.2.2.1, h.2.1.2.2.2, .inl h.2.2⟩, fun x hx => by
    fin_cases hx <;> exact issues_of rfl (by decide +kernel), fun x hx => by
    fin_cases hx <;> exact issues_of rfl (by decide +kernel), issues_of rfl (by decide +kernel)⟩

/-- What the group has commanded on the path `p` is done. -/
abbrev quietPath (s : State) (c : Issue) (p : BitVec 6) : Prop :=
  (p = 2 → (∀ h ∈ c.team.hods, h.gid ≠ c.gid) ∧ ¬ (c.team.hodch.busy ∧ c.team.hodch.gid = c.gid)) ∧
    (p = 4 → ∀ b ∈ c.team.beads, b.gid ≠ c.gid) ∧ (p = 32 → ∀ x ∈ s.undelivered, ¬ (x.1 = c.uid ∧ x.2.1 = c.gid))

theorem witness_FencesAndLines :
    (∀ j ∈ [Instr.fence 0, .fence 2, .fence 3, .fence 6, .fenceX 4 1 2, .fenceX 4 2 1, .fenceX 2 1 1, .fenceX 4 1 1, .fenceX 4 2 4, .fenceX 4 32 1,
        .fenceW, .cwbL1 0x7E, .cinvL1 0x7E],
      ∃ c, Issues j dataState c ∧ (c.live ≠ [] ∧ memWf dataState ∧ l1Wf (dataState.core c.team.core) ∧
        quietPath dataState c 2 ∧ quietPath dataState c 4 ∧ quietPath dataState c 32)) ∧
    (∀ j ∈ [Instr.fenceX 4 2 1, .fenceX 4 4 1, .fenceX 4 32 2, .fenceW], ∃ c, Issues j commandedState c ∧ (c.live ≠ [] ∧ memWf commandedState ∧
      l1Wf (commandedState.core c.team.core) ∧ ¬ quietPath commandedState c 2 ∧ ¬ quietPath commandedState c 4 ∧ ¬ quietPath commandedState c 32)) ∧
    ∀ j ∈ [Instr.cwbL1 2, .cinvL1 2, .cwbL2 2, .prefL1 2, .prefL2 2], ∃ c, Issues j dataState c ∧
      (c.lead = some (0, 0) ∧ accessOk dataState c [(0, 0)] .r 64 1 (fun p => c.src64 2 p) ∧ fits dataState c.team.core [0x40] ∧
        steady dataState c.team.core [0x40]) :=
  ⟨all_issue rfl (by decide +kernel), all_issue rfl (by decide +kernel), fun j hj => (all_issue (P := fun c =>
      c.lead = some (0, 0) ∧ accessOk dataState c [(0, 0)] .r 64 1 (fun p => c.src64 2 p) ∧ fits dataState c.team.core [0x40] ∧
        notHeld dataState c.team.core [0x40]) rfl (by decide +kernel) j hj).imp
    fun _ h => ⟨h.1, h.2.1, h.2.2.1, h.2.2.2.1, steady_of_notHeld h.2.2.2.2⟩⟩

/-- A line written back, alone and with the line that holds the rest of its block. -/
theorem witness_FencesAndLines_bond : memWf boundState ∧ l1Wf (boundState.core 0) ∧
    (∃ e x, (boundState.core 0).line? 1 = some e ∧ (boundState.core 0).line? 2 = some x ∧ e.bond = [min 1 2, max 1 2] ∧ x.bond = e.bond) ∧
    (boundState.core 0).line? 3 = none :=
  ⟨by decide +kernel, by decide +kernel, ⟨_, _, rfl, rfl, rfl, rfl⟩, rfl⟩

/-! ### Lanes, members, roles, accumulators, selection -/

/-- A whole group of one slice with two live lanes. -/
def wideState : State := stateOf (smallGroup (oneSlice 3) [(.v 1 0 0, 5), (.v 2 0 0, 1)])

theorem witness_LaneAndMemberResults :
    ∀ j ∈ [Instr.lxgSel 3 1 2, .lxgBelow 3 1 2, .lxgAbove 3 1 2, .lxgFlip 3 1 2, .ltestAll 1 0 2, .ltestAny 1 1 2, .ltestSame 1 0 2, .pgath 3 0 1, .leqm 3 1,
      .lfoldAdd 3 1, .lfoldMin 0 3 1, .lfoldMin 1 3 1, .lfoldMax 0 3 1, .lfoldMax 1 3 1, .mtestAll 1 0 2, .mtestAny 1 0 2, .mpick 3 1 2],
      ∃ c, WholeGroup j wideState c ∧ (wideOf c).live ≠ [] :=
  all_whole rfl (by decide +kernel)

/-- The same with a second slice that waits parked at the instruction. -/
def waitingState : State := stateOf { smallGroup (oneSlice 3) [] with
  slices := oneSlice 3 :: { active := 1, exited := 0xE, gang := 1, wait := .parked, park := some { addr := 0, instr := .leqm 3 1, mask := 1, off := 0 } }
    :: List.replicate 6 doneSlice }

theorem witness_LaneAndMemberResults_waiting : ∃ c, WholeGroup (.leqm 3 1) waitingState c ∧ ((wideOf c).slices = [0, 1] ∧ (wideOf c).live.length = 3) :=
  whole_of rfl (by decide +kernel)

/-- The gang-wide instructions, those that take a third source apart. -/
def gangWideList : Bool → List Instr
  | false => [.lxgSel 3 1 2, .lxgBelow 3 1 2, .lxgAbove 3 1 2, .lxgFlip 3 1 2, .ltestAll 1 0 2, .ltestAny 1 1 2, .ltestSame 1 0 2, .pgath 3 0 1,
      .leqm 3 1, .lfoldAdd 3 1, .lfoldMin 0 3 1, .lfoldMax 1 3 1, .mtestAll 1 0 2, .mtestAny 1 0 2, .mpick 3 1 2, .regroup 2, .estatMean 3 1 1 1,
      .estatSprd 3 1 1 1]
  | true => [.topk 0 8 2 3, .topkm 2 8 2 3, .estatRank 3 1 1, .estatQnt 3 1 1]

/-- A slice with a literal as its third source, or without one. -/
def bound (third : Bool) (x : Slice) : Slice := if third then withThird x else x

/-- A group of which slice 0 has reached a gang-wide instruction and slice 1, another gang, has not. -/
def partState (spawned third : Bool) : State :=
  stateOf { probeGroup with
    spawned := spawned, slices := bound third { active := 0xF } :: List.replicate 7 { pc := 4, active := 0xF, gang := 1 } }

/-- A group of which slice 0, the only one, has reached it with pair 0, and pair 1 deferred before it. -/
def deferState (third : Bool) : State :=
  stateOf (smallGroup (bound third { oneSlice 1 with exited := 0xC, stack := [{ mask := 2, deferred := true, addr := 0x10 }] }) [])

/-- The slices of a gang that has reached a gang-wide instruction before the rest of its group. -/
def partSlice (c : Issue) (sl : Nat) : Bool :=
  let x := c.group.slice sl
  if c.slices.contains sl then decide (x.park = none) && (decide (x.pc = c.pc) &&
    if x.topDeferred then decide (x.spilled = 0) && x.stack.head?.all (fun e => !e.bad && decide (e.mask &&& ~~~x.exited ≠ 0))
    else decide (x.active = participants c.grid c.team c.group sl))
  else decide (x.wait = .finished) || (decide (x.wait = .ready) || waitsThere c.pc x)

theorem gangWideList_all : ∀ third, (gangWideList third).all actsGangWide = true := by decide

theorem witness_GangWideWaitsForTheGroup :
    (∀ spawned third, ∀ j ∈ gangWideList third, ∃ c : Issue, (partState spawned third).issuer = .gang c.uid c.gid c.gang ∧
      issueOf (partState spawned third) c.uid c.gid c.gang false = some c ∧
      (precheckCore j c = none ∧ c.group.mac = [] ∧ c.group.slices.length = 8 ∧ (List.range 8).all (partSlice c) = true ∧
        ∃ sl < 8, ¬ c.slices.contains sl ∧ (c.group.slice sl).wait = .ready)) ∧
    ∀ third, ∀ j ∈ gangWideList third, ∃ c : Issue, (deferState third).issuer = .gang c.uid c.gid c.gang ∧
      issueOf (deferState third) c.uid c.gid c.gang false = some c ∧
      (precheckCore j c = none ∧ c.group.mac = [] ∧ c.group.slices.length = 8 ∧ (List.range 8).all (partSlice c) = true ∧
        ∃ sl ∈ c.slices, (c.group.slice sl).topDeferred = true) := by
  refine ⟨fun sp th j hj => ?_, fun th j hj => ?_⟩
  · cases sp <;> cases th <;> fin_cases hj <;> exact gang_of rfl (by decide +kernel)
  · cases th <;> fin_cases hj <;> exact gang_of rfl (by decide +kernel)

/-- FPM takes RM = 2; RM = 0 and RM = 7 are refused. -/
theorem witness_RegisterAndRoleResults :
    (∀ j ∈ [Instr.mfs 3 0, .mfs 3 0x10, .mfs 4 0x14, .mfs 4 0x100, .mmaskr 3], ∃ c, Issues j (one []) c ∧ c.live ≠ []) ∧
    (∃ c, Issues (.mts 2 0x10) (one [(.v 2 0 0, 0x40)]) c ∧
      ∀ e ∈ c.slots, (c.memberValue 2 e).extractLsb' 5 3 ≠ 0 ∧ (c.memberValue 2 e).extractLsb' 5 3 ≠ 7) ∧
    (∃ c, Issues (.mts 2 0x10) (one [(.v 2 0 0, 0)]) c ∧ ∃ e ∈ c.slots, (c.memberValue 2 e).extractLsb' 5 3 = 0) ∧
    ∃ c, Issues (.mts 2 0x10) (one [(.v 2 0 0, 0xE0)]) c ∧ ∃ e ∈ c.slots, (c.memberValue 2 e).extractLsb' 5 3 = 7 :=
  ⟨all_issue rfl (by decide +kernel), issues_of rfl (by decide +kernel), issues_of rfl (by decide +kernel), issues_of rfl (by decide +kernel)⟩

/-- A team of a grid of 3 × 2 × 1 teams, and a lease of it. -/
theorem witness_RegisterAndRoleResults_special :
    ∃ c, Issues (.mfs 3 4) (stateOf (smallGroup (oneSlice 1) []) (fun t => { t with teamid := 4 })
        fun g => { field 0x18 2 (field 0x1C 1 g) with leases := [⟨0, 65536, true, true, true⟩] }) c ∧
      (1 < c.grid.field 0x18 4 ∧ 1 < c.grid.field 0x1C 4 ∧ c.team.teamid = 1 + c.grid.field 0x18 4 * (1 + c.grid.field 0x1C 4 * 0) ∧
        c.grid.leases[1]? = none ∧ (c.grid.leases[0]?).map (fun l => decide (l.len < 2 ^ 40)) = some true) :=
  issues_of rfl (by decide +kernel)

/-- Member slot 1 of two is masked out, in a region; and with a mask of both, none is. -/
theorem witness_RegisterAndRoleResults_MemberMaskWrites : ∃ c, Issues (.mmaskw 2)
      (stateOf { smallGroup { active := 0x11, exited := 0xEE, stack := [{ mask := 0x11, deferred := false, addr := 0x80 }] } [(.v 2 0 0, 1), (.v 2 1 0, 1)] with e := 2 }) c ∧
    (c.live ≠ [] ∧ sliceMask (c.live.filter fun p => !(c.src 2 p).getLsbD p.1) 0 = 0x10 ∧
      ∀ sl ∈ c.slices, roomFor 1 (c.group.slice sl) ∧
        (c.group.slice sl).active &&& ~~~sliceMask (c.live.filter fun p => !(c.src 2 p).getLsbD p.1) sl ≠ 0 ∧
        ((c.group.slice sl).stack.find? (fun x => !x.deferred)).isSome) :=
  issues_of rfl (by decide +kernel)

/-- A role of 2; 8 registers given to role 0 by a group that keeps 8; and 8 claimed from a pool that holds them. -/
theorem witness_RegisterAndRoleResults_RoleAndBudgetResults :
    (∃ c, Issues (.role 2) (one [(.v 2 0 0, 2)]) c ∧ (c.live ≠ [] ∧ (c.groupValue 2).toNat ≤ 2 ∧
      (siblingsOf c.team c.grid c.group).length ≤ 1 ∧ c.grid.ctl 3 1 = 0)) ∧
    (∃ c, Issues (.regsGive 2 3) (stateOf { smallGroup (oneSlice 1) [(.v 2 0 0, 8)] with regbud := 16 }) c ∧ (c.live ≠ [] ∧
      (c.groupValue 3).toNat ≤ 2 ∧ (c.groupValue 2).toNat % 8 = 0 ∧ 8 ≤ (c.groupValue 2).toNat ∧ (c.groupValue 2).toNat + 8 ≤ c.group.regbud)) ∧
    ∃ c, Issues (.regsClaim 2) (stateOf { smallGroup (oneSlice 1) [(.v 2 0 0, 8)] with regbud := 88 } fun t => { t with pools := [0, 1, 0] }) c ∧
      (c.live ≠ [] ∧ (c.groupValue 2).toNat % 8 = 0 ∧ 8 ≤ (c.groupValue 2).toNat ∧ c.group.regbud + (c.groupValue 2).toNat ≤ 96 ∧
        (c.groupValue 2).toNat / 8 ≤ nth c.team.pools c.group.role.toNat 0 ∧ c.team.claims c.group.role = [] ∧
        mapGet c.team.lastClaims c.group.role.toNat = none) :=
  ⟨issues_of rfl (by decide +kernel), issues_of rfl (by decide +kernel), issues_of rfl (by decide +kernel)⟩

/-- The regrouping of R142's example: members 1 and 6 of eight, in two siblings, hold key 1; the second sibling waits parked. -/
def regroupState : State :=
  let slice : Slice := { active := 0x1111, exited := 0xEEEE }
  let group (k : Nat) (key : Nat) (x : Slice) : Group :=
    { smallGroup x [(.v 2 key 0, 1)] with gid := k, sibling := k, e := 4, members := (List.range 4).map fun e => (e, 4 * k + e) }
  let parked : Slice := { slice with wait := .parked, park := some { addr := 0, instr := .regroup 2, mask := 0x1111, off := 0 } }
  let s := stateOf probeGroup (fun t => { t with groups := [group 0 1 slice, group 1 2 parked] }) (fun g => field 0x24 1 (field 0x27 8 g))
  s

/-- The members of R142's example after REGROUP: sibling 0 holds 0, 2, 3 and 4, sibling 1 holds 5, 7, 1 and 6. -/
theorem test_regroup :
    let s := after (exec (.regroup 2) regroupState)
    ((groupAt s 0 0).map fun g => (List.range 4).map g.memberId) = some [0, 2, 3, 4] ∧
      ((groupAt s 0 1).map fun g => (List.range 4).map g.memberId) = some [5, 7, 1, 6] := by decide +kernel

/-- The sibling set of the gang has wholly gathered. -/
def wholeSet (c : Issue) : Bool :=
  let set := siblingsOf c.team c.grid c.group
  decide ((set.map fun b => b.gid).Nodup) && (decide (∃ b ∈ set, b.gid = c.gid) &&
    (((List.range 8).all fun sl => set.all fun b => decide (stackShape c.grid c.team b sl = stackShape c.grid c.team c.group sl)) &&
      set.all fun b => decide (b.gid = c.gid) || (decide (b.slices.length = 8) && (decide (b.mac = []) && (decide (b.lostAt c.pc = false) &&
        (List.range 8).all fun sl => decide ((b.slice sl).wait = .finished) || waitsThere c.pc (b.slice sl))))))

/-- A sibling set gathered at one instruction. -/
theorem together_of {j : Instr} {s : State} {P : Issue → Prop} [DecidablePred P] (h0 : s.issuer = .gang 0 0 0)
    (h : meets s false (fun c => whole j c && decide (wholeSet c = true ∧ P c)) = true) :
    ∃ c, Together j s c (siblingsOf c.team c.grid c.group) ∧ P c := by
  obtain ⟨c, h1, h2, h3⟩ := whole_of h0 h
  simp only [wholeSet, Bool.and_eq_true, decide_eq_true_eq, List.all_eq_true, List.mem_range, Bool.or_eq_true] at h2
  refine ⟨c, ⟨h1, rfl, h2.1, h2.2.1, fun b hb hn => ?_, h2.2.2.1⟩, h3⟩
  have h4 := (h2.2.2.2 b hb).resolve_left hn
  exact ⟨h4.1, h4.2.1, h4.2.2.1, fun sl hsl => (h4.2.2.2 sl hsl).imp id waitsThere_waitsAt⟩

/-- Two siblings, the second wholly gathered, and the order of R142's example. -/
theorem witness_RegroupMovesContexts : ∃ c, Together (.regroup 2) regroupState c (siblingsOf c.team c.grid c.group) ∧
    ((siblingsOf c.team c.grid c.group).map (fun b => b.gid) = [0, 1] ∧
      (∀ b ∈ siblingsOf c.team c.grid c.group, b.regbud = c.group.regbud ∧ b.e = c.group.e) ∧ 0 < c.group.e ∧
      [0, 2, 3, 4, 5, 7, 1, 6].Perm (List.range 8) ∧
      [0, 2, 3, 4, 5, 7, 1, 6].Pairwise fun x y =>
        let rank (n : Nat) : Nat :=
          let k := issueFor c (nth (siblingsOf c.team c.grid c.group) (n / 4) c.group)
          if k.slots.contains (n % 4) then (k.memberValue 2 (n % 4)).toNat % 4 else 4
        rank x < rank y ∨ (rank x = rank y ∧ x < y)) :=
  together_of rfl (by decide +kernel)

/-- The set of R142's example whose second sibling has not reached REGROUP yet. -/
def aloneState : State :=
  { regroupState with teams := regroupState.teams.map fun m => { m with groups := m.groups.map fun g =>
      if g.gid = 1 then { g with slices := g.slices.map fun x => { x with wait := if x.wait = .finished then .finished else .ready, pc := 8, park := none } } else g } }

theorem witness_GangWideWaitsForTheGroup_siblings : gathersSiblings (.regroup 2) = true ∧ ∃ c, WholeGroup (.regroup 2) aloneState c ∧
    ((∀ b ∈ siblingsOf c.team c.grid c.group, b.gid ≠ c.gid → b.lostAt c.pc = false) ∧
      ∃ b ∈ siblingsOf c.team c.grid c.group, b.gid ≠ c.gid ∧ b.gatheredAt c.pc = false) :=
  ⟨rfl, whole_of rfl (by decide +kernel)⟩

/-- One member context whose bindings 0 and 1 name entries of the pool. -/
def accState : State :=
  mapped0 (stateOf (smallGroup (oneSlice 1) [(.v 2 0 0, 0x40), (.v 4 0 0, 3)]))

theorem witness_LongAccumulators :
    (∀ j ∈ [Instr.lacAdd 1 0 6, .lacClr 0, .lacMrg 0 1, .lacClrBind 0 4, .lacRnd 6 0 0 1],
      ∃ c, Issues j accState c ∧ (c.slots = [0] ∧ mapGet c.group.xbind 0 = some 0 ∧ mapGet c.group.xbind 1 = some 1 ∧
        1 < 4 * c.grid.launched ∧ (c.memberValue 4 0).toNat < 4 * c.grid.launched)) ∧
    ∀ j ∈ [Instr.lacLd 0 2, .lacSt 0 2], ∃ c, Issues j accState c ∧
      (c.slots = [0] ∧ mapGet c.group.xbind 0 = some 0 ∧ accessOk accState c [c.memberPair 0] .rw 32 288 (fun p => c.src64 2 p) ∧ memWf accState ∧
        fits accState c.team.core (physAt accState c 288 (c.src64 2 (c.memberPair 0)) (c.memberPair 0)) ∧
        steady accState c.team.core (physAt accState c 288 (c.src64 2 (c.memberPair 0)) (c.memberPair 0))) :=
  ⟨all_issue rfl (by decide +kernel), fun j hj => (all_issue (P := fun c =>
      c.slots = [0] ∧ mapGet c.group.xbind 0 = some 0 ∧ accessOk accState c [c.memberPair 0] .rw 32 288 (fun p => c.src64 2 p) ∧ memWf accState ∧
        fits accState c.team.core (physAt accState c 288 (c.src64 2 (c.memberPair 0)) (c.memberPair 0)) ∧
        notHeld accState c.team.core (physAt accState c 288 (c.src64 2 (c.memberPair 0)) (c.memberPair 0))) rfl (by decide +kernel) j hj).imp
    fun _ h => ⟨h.1, h.2.1, h.2.2.1, h.2.2.2.1, h.2.2.2.2.1, h.2.2.2.2.2.1, steady_of_notHeld h.2.2.2.2.2.2⟩⟩

/-- 2^−1074 and −1 as addends. -/
theorem witness_LongAccumulators_LongAccumulatorIsExact :
    fmtF64.value 1 = .fin false 1 (-1074) ∧ fmtF64.value 0xBFF0000000000000 = .fin true (2 ^ 52) (-52) := by decide +kernel

/-- Each row of Table 2.8: an overflow, both infinities, a NaN, zero, and a finite sum. -/
theorem witness_LongAccumulators_readOut :
    let inf (neg : Bool) : Lacc := ({} : Lacc).add (.inf neg)
    let both := (inf false).add (.inf true)
    let bad := ({} : Lacc).add (fmtF64.value 0x7FF8000000000000)
    let one := ({} : Lacc).add (fmtF64.value 0x3FF0000000000000)
    both.nan = false ∧ both.pinf ∧ both.ninf ∧ bad.ovf = false ∧ bad.nan ∧
      (one.ovf = false ∧ one.nan = false ∧ one.pinf = false ∧ one.ninf = false ∧ one.n ≠ 0) ∧ ({} : Lacc).n = 0 := by decide +kernel

theorem witness_SelectionAndStatistics :
    (∀ j ∈ [Instr.maxi 0 8 2 3, .mini 1 8 2 4], ∃ c, Issues j (one []) c ∧ c.live ≠ []) ∧
    (∀ j ∈ [Instr.topk 0 8 2 3, .topkm 2 8 2 3],
      ∃ c, WholeGroup j (stateOf (smallGroup (withThird (oneSlice 1)) [])) c ∧ (wideOf c).live ≠ []) ∧
    (∀ j ∈ [Instr.estatMean 3 1 1 1, .estatSprd 3 1 1 2], ∃ c, Together j ensemble c (siblingsOf c.team c.grid c.group) ∧
      (membersAt c (siblingsOf c.team c.grid c.group) 0).length = 8) ∧
    ∀ j ∈ [Instr.estatRank 3 1 1, .estatQnt 3 1 1],
      ∃ c, Together j (stateOf (smallGroup (withThird (oneSlice 1)) [])) c (siblingsOf c.team c.grid c.group) ∧
        (membersAt c (siblingsOf c.team c.grid c.group) 0).length = 1 := by
  refine ⟨all_issue rfl (by decide +kernel), all_whole rfl (by decide +kernel), fun j hj => ?_, fun j hj => ?_⟩ <;>
    fin_cases hj <;> exact together_of rfl (by decide +kernel)

/-- Entries for each rule of R200: an empty one, two numbers in order, a NaN, and two of one value. -/
theorem witness_SelectionAndStatistics_preferred :
    (⟨0x3F800000, 0xFFFFFFFF⟩ : SelEntry).index = 0xFFFFFFFF ∧ (fmtF32.value 0x3F800000).isNan = false ∧ (fmtF32.value 0x7FC00000).isNan = true ∧
      keyBefore fmtF32 0x3F800000 0x40000000 ∧ 0x7FC00000 < 2 * fmtF32.signBit := by
  refine ⟨rfl, by decide +kernel, by decide +kernel, ?_, by decide +kernel⟩
  simp [keyBefore, Fmt.signBit, fmtF32]

/-- Ensembles with a NaN, with infinities of one sign and of both, with a sum and a spread of zero, and with neither. -/
theorem witness_SelectionAndStatistics_statistics :
    let vs (bits : List Nat) := bits.map fmtF32.value
    (vs [0x7FC00000, 0]).any Machine.Num.isNan = true ∧
      ((vs [0x7F800000, 0]).any Machine.Num.isNan = false ∧ .inf false ∈ vs [0x7F800000, 0] ∧ .inf true ∉ vs [0x7F800000, 0] ∧
        .inf true ∈ vs [0x7F800000, 0xFF800000]) ∧
      (((vs [0, 0]).filterMap exactValue).sum = 0 ∧ ((vs [0x3F800000, 0]).filterMap exactValue).length = 2 ∧
        ((vs [0x3F800000, 0]).filterMap exactValue).sum = 1 ∧
        2 * (((vs [0x3F800000, 0]).filterMap exactValue).map fun x => x * x).sum - (1 : ℚ) * 1 = 1) ∧
      ([1, 0].Perm (List.range 2) ∧ keyBefore fmtF32 0 0x3F800000) := by
  have h1 : fmtF32.value 0x3F800000 = .fin false 0x800000 (-23) := by decide +kernel
  have h0 : exactValue (fmtF32.value 0) = some 0 := by
    have : fmtF32.value 0 = .fin false 0 (-149) := by decide +kernel
    rw [this]
    norm_num [exactValue]
  have h2 : exactValue (fmtF32.value 0x3F800000) = some 1 := by
    rw [h1]
    norm_num [exactValue]
  refine ⟨by decide +kernel, ⟨by decide +kernel, by decide +kernel, by decide +kernel, by decide +kernel⟩, ⟨?_, ?_, ?_, ?_⟩, by decide, ?_⟩
  · simp [h0]
  · simp [h0, h2]
  · simp [h0, h2]
  · simp [h0, h2]
    norm_num
  · simp [keyBefore, Fmt.signBit, fmtF32]

/-! ### Barriers, engines, work, hint words -/

/-- A grid of four barriers. -/
def withBars (g : Grid) : Grid := field 0x35 4 g

/-- Barrier 2 as given, the group's arrival record as given, a count in v3 and a mask of every lane in v2. -/
def barState (x : Barrier) (r : ArrRec) (count : Word) : State :=
  stateOf { smallGroup (oneSlice 1) [(.v 2 0 0, 0xFFFFFFFF), (.v 3 0 0, count)] with arrivals := [(2, r)] } (fun t => { t with barriers := [(2, x)] }) withBars

/-- What every clause about an arrival of group 0 at barrier 2 asks. -/
abbrev arrReady (c : Issue) : Prop := c.live ≠ [] ∧ (c.team.groups.map fun g => g.gid).Nodup

/-- A decidable form of an arrival that meets no cause, at a barrier no arrival has reached before. -/
abbrev arrives (c : Issue) (b k : Nat) : Prop :=
  b < c.grid.ctl 8 5 ∧ 1 ≤ k ∧ k ≤ 4096 ∧ ((c.team.barrier b).expect = 0 ∨ (c.team.barrier b).expect.toNat = k) ∧ (c.team.barrier b).last = none

theorem mayArrive_of {s : State} {c : Issue} {b k : Nat} (h : arrives c b k) : mayArrive s c b k :=
  ⟨h.1, h.2.1, h.2.2.1, h.2.2.2.1, fun r hr => by rw [h.2.2.2.2] at hr; exact absurd hr (by simp)⟩

/-- Counts of 1 and 4096; barrier 4 of four; counts of 0 and 4097; a count of 3 where 4 are expected; and an arrival of group 2 in the
same clock. -/
theorem witness_BarrierResults_BarrierArrivals :
    (∀ k ∈ [1, 4096], ∃ c, Issues (.barArv 2 3) (barState {} {} k) c ∧ (arrReady c ∧ arrives c 2 (c.groupValue 3).toNat)) ∧
    (∃ c, Issues (.barArv 4 3) (barState {} {} 1) c ∧ (arrReady c ∧ c.grid.ctl 8 5 ≤ 4)) ∧
    (∀ k ∈ [0, 4097], ∃ c, Issues (.barArv 2 3) (barState {} {} k) c ∧
      (arrReady c ∧ 2 < c.grid.ctl 8 5 ∧ ¬ (1 ≤ (c.groupValue 3).toNat ∧ (c.groupValue 3).toNat ≤ 4096))) ∧
    (∃ c, Issues (.barArv 2 3) (barState { expect := 4, arrived := 1 } {} 3) c ∧ (arrReady c ∧ 2 < c.grid.ctl 8 5 ∧ 1 ≤ (c.groupValue 3).toNat ∧
      (c.groupValue 3).toNat ≤ 4096 ∧ (c.team.barrier 2).last = none ∧ (c.team.barrier 2).expect ≠ 0 ∧
      (c.team.barrier 2).expect.toNat ≠ (c.groupValue 3).toNat)) ∧
    ∃ c, Issues (.barArv 2 3) (barState { arrived := 1, last := some (0, 102) } {} 3) c ∧ (arrReady c ∧ 2 < c.grid.ctl 8 5 ∧ 1 ≤ (c.groupValue 3).toNat ∧
      (c.groupValue 3).toNat ≤ 4096 ∧
      decide (∃ x ∈ (c.team.barrier 2).last, x.1 = (barState {} {} 0).clk ∧ (Arriver.group c.gid).rank < x.2) = true) := by
  refine ⟨fun k hk => ?_, issues_of rfl (by decide +kernel), fun k hk => ?_, issues_of rfl (by decide +kernel), issues_of rfl (by decide +kernel)⟩ <;>
    fin_cases hk <;> exact issues_of rfl (by decide +kernel)

/-- Such an arrival is not in its turn. -/
theorem not_inTurn {x : Barrier} {a : Arriver} {clk : Nat} (h : decide (∃ y ∈ x.last, y.1 = clk ∧ a.rank < y.2) = true) : ¬ inTurn x a clk := by
  obtain ⟨y, hy, h1, h2⟩ := of_decide_eq_true h
  intro hn
  have := hn y.2 (by rw [← h1]; exact hy)
  omega

/-- What every clause about a wait at barrier 2 asks. -/
abbrev barReady (c : Issue) : Prop :=
  c.grid.ctl 8 5 > 2 ∧ (wideOf c).live ≠ [] ∧ (c.team.groups.map fun g => g.gid).Nodup

/-- A decidable form of the absence of SNAP waiters. -/
def quiet (t : Team) (b : Nat) : Bool :=
  t.groups.all fun g => (g.slices ++ ((g.saved.map fun v => v.slices).getD [])).all fun x => match x.wait with
    | .barrier b' _ .snap => !decide (b' = b)
    | _ => true

theorem noSnap_of_quiet {t : Team} {b : Nat} (h : quiet t b = true) : noSnap t b := by
  intro g hg x hx target hw
  have := List.all_eq_true.1 (List.all_eq_true.1 h g hg) x hx
  rw [hw] at this
  simp at this

/-- The count of SNAP (R323). -/
abbrev snapAll (c : Issue) : Nat := (c.team.groups.filter fun g => !g.spawned).length + (if c.team.trowel.isSome then 1 else 0)

theorem witness_BarrierResults_BarrierWaits :
    (∃ c, WholeGroup (.barWt 2) (barState { phase := 1 } { arvd := true } 3) c ∧ (barReady c ∧ quiet c.team 2 = true ∧ (c.team.barrier 2).passed 0 = true)) ∧
    (∃ c, WholeGroup (.barWt 2) (barState { phase := 1 } { arvd := false } 3) c ∧ (barReady c ∧ quiet c.team 2 = true ∧ (c.team.barrier 2).passed 1 = false)) ∧
    (∃ c, WholeGroup (.barSync 2 3) (barState { arrived := 2 } {} 3) c ∧ (barReady c ∧ quiet c.team 2 = true ∧
      arrives c 2 ((wideOf c).groupValue 3).toNat ∧
      ((wideOf c).groupValue 3).toNat ≤ (c.team.barrier 2).arrived.toNat + 1)) ∧
    (∃ c, WholeGroup (.barSync 2 3) (barState { arrived := 1, expect := 3 } {} 3) c ∧ (barReady c ∧ quiet c.team 2 = true ∧
      arrives c 2 ((wideOf c).groupValue 3).toNat ∧
      (c.team.barrier 2).arrived.toNat + 1 < ((wideOf c).groupValue 3).toNat)) ∧
    (∃ c, WholeGroup (.barSyncm 2 2 3) (barState { arrived := 2 } {} 3) c ∧ (barReady c ∧ quiet c.team 2 = true ∧ c.syncMask 2 = some (BitVec.allOnes 32) ∧
      arrives c 2 ((wideOf c).groupValue 3).toNat ∧ (wideOf c).syncMask 2 = some (BitVec.allOnes 32) ∧
      ((wideOf c).groupValue 3).toNat ≤ (c.team.barrier 2).arrived.toNat + 1)) ∧
    (∃ c, WholeGroup (.barSyncm 2 2 3) (barState {} {} 3) c ∧ (barReady c ∧ quiet c.team 2 = true ∧ c.syncMask 2 = some (BitVec.allOnes 32) ∧
      arrives c 2 ((wideOf c).groupValue 3).toNat ∧ (wideOf c).syncMask 2 = some (BitVec.allOnes 32) ∧
      (c.team.barrier 2).arrived.toNat + 1 < ((wideOf c).groupValue 3).toNat)) ∧
    (∃ c, WholeGroup (.snap 2) (barState {} {} 3) c ∧ (barReady c ∧ quiet c.team 2 = true ∧ arrives c 2 (snapAll c))) ∧
    (∀ j ∈ [Instr.barSync 2 3, .barSyncm 2 2 3, .snap 2], ∃ c, WholeGroup j (barState { arrived := 1, last := some (0, 102) } {} 3) c ∧
      (barReady c ∧ quiet c.team 2 = true ∧
        decide (∃ x ∈ (c.team.barrier 2).last, x.1 = (barState {} {} 0).clk ∧ (Arriver.group c.gid).rank < x.2) = true)) ∧
    ∀ t : Team, quiet t 2 = true → noSnap t 2 :=
  ⟨whole_of rfl (by decide +kernel), whole_of rfl (by decide +kernel), whole_of rfl (by decide +kernel), whole_of rfl (by decide +kernel),
    whole_of rfl (by decide +kernel), whole_of rfl (by decide +kernel), whole_of rfl (by decide +kernel), all_whole rfl (by decide +kernel),
    fun _ h => noSnap_of_quiet h⟩

/-- A pair whose v2:v3 holds an engine address and v4 a count, a Hod record of COUNT 3 at Hawk 0x40, and busy engines as given. -/
def engState (hi lo count : Word) (t : Team → Team := id) : State :=
  mapped0 (stateOf (smallGroup (oneSlice 1) [(.v 2 0 0, lo), (.v 3 0 0, hi), (.v 4 0 0, count), (.v 5 0 0, 0x40)]) (fun x => t { x with hawk := [(0x58, 3)] })
    fun g => field 0x28 4096 (field 0x2C 4096 g))

/-- The lowest free slot of `n`. -/
abbrev freeSlot (n : Nat) (used : List Nat) : Option Nat := (List.range n).find? fun i => !used.contains i

/-- Three rows of the record at Hawk 0x40 (all of them), and the zero record at address 0x40 of memory; a chain; a Bead descriptor
from named registers and from Hawk; and each engine busy. -/
theorem witness_EngineAndFifoResults_EngineCommandResults :
    (∃ c, Issues (.hod 2 4) (engState 0x40000000 0x40 3) c ∧ (c.lead = some (0, 0) ∧ c.slots = [0] ∧ c.memberPair 0 = (0, 0) ∧
      (c.src64 2 (0, 0)).toNat % 64 = 0 ∧ freeSlot 16 (c.team.hods.map fun h => h.slot) = some 0 ∧ engAddr (c.src64 2 (0, 0)) = .own 0x40 ∧ localOk c.grid 0x40 64 = true ∧
      frozenAt (engState 0x40000000 0x40 3) c.team.core [0x40, 0x40 + 63] = false ∧
      (let r := BitVec.ofNat 512 (natOfBytes (c.team.locals 0x40 64))
       rec512 r 0x30 8 = 0 ∧ rec512 r 0x20 4 = 0 ∧ (c.src 4 (0, 0)).toNat ≤ rec512 r 0x18 4))) ∧
    (∃ c, Issues (.hod 2 4) (engState 0 0x40 0) c ∧ (c.lead = some (0, 0) ∧ c.slots = [0] ∧ c.memberPair 0 = (0, 0) ∧
      (c.src64 2 (0, 0)).toNat % 64 = 0 ∧ freeSlot 16 (c.team.hods.map fun h => h.slot) = some 0 ∧ engAddr (c.src64 2 (0, 0)) = .global 0x40 ∧
      leaseOk c.grid (some (c.group.memberId 0)) .r 0x40 64 ∧ mapped (engState 0 0x40 0) c false 64 0x40 (0, 0) ∧
      (let r := BitVec.ofNat 512 (natOfBytes (l2Reads (writeBackAll (engState 0 0x40 0) c.team.core) (physAt (engState 0 0x40 0) c 64 0x40 (0, 0))))
       rec512 r 0x30 8 = 0 ∧ rec512 r 0x20 4 = 0 ∧ (c.src 4 (0, 0)).toNat ≤ rec512 r 0x18 4))) ∧
    (∃ c, Issues (.hodChain 2) (engState 0 0x40 0) c ∧ (c.lead = some (0, 0) ∧ (c.src64 2 (0, 0)).toNat % 64 = 0 ∧ engAddr (c.src64 2 (0, 0)) = .global 0x40 ∧
      c.team.hodch.busy = false)) ∧
    (∀ a ∈ [0x7E, 5], ∃ c, Issues (.bead 1 a) (engState 0 0x40 0) c ∧ (c.lead = some (0, 0) ∧ freeSlot 4 (c.team.beads.map fun x => x.slot) = some 0 ∧
      (a ≠ 0x7E → (c.src a (0, 0)).toNat % 64 = 0 ∧ (c.src a (0, 0)).toNat + 64 ≤ c.grid.field 0x28 4))) ∧
    (∃ c, Issues (.hodChain 2) (engState 0 0x40 0 fun t => { t with hodch := { busy := true } }) c ∧ (c.lead = some (0, 0) ∧ c.team.hodch.busy = true ∧
      (c.src64 2 (0, 0)).toNat % 64 = 0)) ∧
    ∃ c, Issues (.bead 1 0x7E) (engState 0 0x40 0 fun t => { t with beads := (List.range 4).map fun k => ⟨k, 0, 0, 0, 0⟩ }) c ∧ (c.lead = some (0, 0) ∧
      freeSlot 4 (c.team.beads.map fun x => x.slot) = none) :=
  ⟨issues_of rfl (by decide +kernel), issues_of rfl (by decide +kernel), issues_of rfl (by decide +kernel), all_bead, issues_of rfl (by decide +kernel),
    issues_of rfl (by decide +kernel)⟩
where
  all_bead : ∀ a ∈ [0x7E, 5], ∃ c, Issues (.bead 1 a) (engState 0 0x40 0) c ∧ (c.lead = some (0, 0) ∧ freeSlot 4 (c.team.beads.map fun x => x.slot) = some 0 ∧
      (a ≠ 0x7E → (c.src a (0, 0)).toNat % 64 = 0 ∧ (c.src a (0, 0)).toNat + 64 ≤ c.grid.field 0x28 4)) := by
    intro a ha
    fin_cases ha <;> exact issues_of rfl (by decide +kernel)

/-- A record in the Hawk of the team after the issuing one, on core 1 of the same cluster. -/
theorem witness_EngineAndFifoResults_remote :
    ∃ c, Issues (.hod 2 4) { engState 0x80000004 0x40 3 with teams := (engState 0x80000004 0x40 3).teams ++
        [{ probeTeam with uid := 1, teamid := 1, core := 1, groups := [], hawk := [(0x58, 3)] }] } c ∧
      (c.lead = some (0, 0) ∧ c.slots = [0] ∧ engAddr (c.src64 2 (0, 0)) = .remote 1 0x40 ∧ localOk c.grid 0x40 64 = true ∧
        ((({ engState 0x80000004 0x40 3 with teams := (engState 0x80000004 0x40 3).teams ++
            [{ probeTeam with uid := 1, teamid := 1, core := 1, groups := [], hawk := [(0x58, 3)] }] } : State).teams.filter fun t =>
          decide (t.grid = c.team.grid) && decide ((t.teamid : Int) = c.team.teamid + 1) && decide (t.core ≠ c.team.core) &&
            decide (t.core / 4 = c.team.core / 4)).map fun t => t.locals 0x40 64) = [bytesOfNat 64 (3 * 2 ^ 192)]) :=
  issues_of rfl (by decide +kernel)

/-- Fifteen entries in the FIFO towards the partner, and one of this grid behind one of another in the partner's. -/
def fifoState : State :=
  { one [] with
    base := BitVec.allOnes 64
    cores := [(0, { fifo := List.replicate 15 ⟨0, 0⟩ }), (16, { fifo := [⟨1, 5⟩, ⟨0, 7⟩] })] }

theorem witness_EngineAndFifoResults_VerticalFifoResults :
    (∃ c, Issues (.vsend 2) fifoState c ∧ (c.live ≠ [] ∧ coreOnline fifoState (partner c.team.core) = true ∧ (fifoState.core c.team.core).fifo.length + c.slots.length ≤ 16)) ∧
    ∃ c, Issues (.vrecv 3) fifoState c ∧ (c.live ≠ [] ∧
      c.slots.length ≤ ((fifoState.core (partner c.team.core)).fifo.filter fun x => decide (x.grid = c.grid.uid)).length) :=
  ⟨issues_of rfl (by decide +kernel), issues_of rfl (by decide +kernel)⟩

/-- One pair with the address 0x100 in v2:v3, a queue in v4 and words to store in v6:v7, and queue 1023. -/
def workState (n : Word) (q : Queue) : State :=
  { mapped0 (stateOf (smallGroup (oneSlice 1) [(.v 2 0 0, 0x100), (.v 4 0 0, n), (.v 6 0 0, 9)])) with queues := [(1023, q)] }

/-- The same while the frame of 64 KiB at 0x10000 is exchanged. -/
def swapping (s : State) : State := { withBytes 0x8002 [1] s with lath := { s.lath with swap := some ⟨0x8000, 0x8000, 16⟩ } }

/-- What each clause about LAUNCH asks. -/
abbrev launchReady (s : State) (c : Issue) : Prop :=
  memWf s ∧ c.live = [(0, 0)] ∧ l1Wf (s.core c.team.core) ∧ accessOk s c [(0, 0)] .r 256 256 (fun q => c.src64 2 q)

/-- Two pairs spawn one entry; queue 1024 is none; queue 1023 is off, full with one slot, and has room. -/
theorem witness_WorkAndWindowResults_WorkCreationResults :
    (∃ c, Issues (.spawn 2 4) (stateOf (smallGroup (oneSlice 3) [(.v 2 0 0, 0x40), (.v 2 0 1, 0x40), (.v 4 0 0, 1), (.v 4 0 1, 2)])) c ∧
      (memWf (stateOf (smallGroup (oneSlice 3) [(.v 2 0 0, 0x40), (.v 2 0 1, 0x40), (.v 4 0 0, 1), (.v 4 0 1, 2)])) ∧ (∀ q ∈ c.live, targetOk c.grid (c.src64 2 q)) ∧ (c.group.slice (c.slices.headD 0)).progress = 0 ∧
        enterTasks c.uid 0 (c.live.map fun q => ((c.src64 2 q).setWidth 57, c.src64 4 q)) ((stateOf probeGroup).core c.team.core).bins =
          (c.live.length, [{ team := 0, entry := 0x40, tasks := [1, 2], first := 0 }]))) ∧
    (∃ c, Issues (.launch 8 2 4) (workState 1024 {}) c ∧ (launchReady (workState 1024 {}) c ∧ 1024 ≤ (c.src 4 (0, 0)).toNat)) ∧
    (∃ c, Issues (.launch 8 2 4) (workState 1023 { en := true }) c ∧ (launchReady (workState 1023 { en := true }) c ∧ (c.src 4 (0, 0)).toNat < 1024 ∧
      ¬ (((workState 1023 { en := true }).queue 1023).en ∧ ((workState 1023 { en := true }).queue 1023).prod))) ∧
    (∃ c, Issues (.launch 8 2 4) (workState 1023 { en := true, prod := true, tail := 1 }) c ∧ (launchReady (workState 1023 { en := true, prod := true, tail := 1 }) c ∧
      (c.src 4 (0, 0)).toNat = 1023 ∧
      (let q := (workState 1023 { en := true, prod := true, tail := 1 }).queue 1023
       q.en ∧ q.prod ∧ 2 ^ q.log2n.toNat ≤ (q.tail - q.head).toNat))) ∧
    (∃ c, Issues (.launch 8 2 4) (workState 1023 { en := true, prod := true, log2n := 1, head := 0xFFFF, base := 1 }) c ∧
      (launchReady (workState 1023 { en := true, prod := true, log2n := 1, head := 0xFFFF, base := 1 }) c ∧ (c.src 4 (0, 0)).toNat = 1023 ∧
        (let q := (workState 1023 { en := true, prod := true, log2n := 1, head := 0xFFFF, base := 1 }).queue 1023
         q.en ∧ q.prod ∧ (q.tail - q.head).toNat < 2 ^ q.log2n.toNat))) ∧
    (∃ c, Issues (.launch 8 2 4) (swapping (workState 1023 { base := 0x100 })) c ∧ (launchReady (swapping (workState 1023 { base := 0x100 })) c ∧
      (c.src 4 (0, 0)).toNat = 1023 ∧ rangeLocked (swapping (workState 1023 { base := 0x100 })) 0x10000 256 = true)) ∧
    (rangeLocked (workState 1023 {}) 0 256 = false) ∧
    ∃ c, Issues (.cwset 2 6) (workState 0 {}) c ∧ (memWf (workState 0 {}) ∧ c.live = [(0, 0)] ∧ accessOk (workState 0 {}) c [(0, 0)] .w 8 8 (fun q => c.src64 2 q)) :=
  ⟨issues_of rfl (by decide +kernel), issues_of rfl (by decide +kernel), issues_of rfl (by decide +kernel), issues_of rfl (by decide +kernel),
    issues_of rfl (by decide +kernel), issues_of rfl (by decide +kernel), by decide +kernel, issues_of rfl (by decide +kernel)⟩

/-- A bin of the entry, and none. -/
theorem witness_WorkAndWindowResults_bins :
    let bins : List Bin := [{ team := 0, entry := 0x40, tasks := [1], first := 0 }]
    bins.find? (fun x => decide (x.team = 0) && decide (x.entry = 0x40)) = some { team := 0, entry := 0x40, tasks := [1], first := 0 } ∧
      bins.find? (fun x => decide (x.team = 0) && decide (x.entry = 0x80)) = none := by decide

/-- Window 511 maps the bytes 0x40 to 0x47 of this grid's space. -/
def windowState (va : Word) : State :=
  { mapped0 (stateOf (smallGroup (oneSlice 1) [(.v 2 0 0, va)])) with txw := [(511, BitVec.ofNat 256 (3 + 2 ^ 64 * 0x40 + 2 ^ 128 * 8 + 2 ^ 176 * 5))] }

/-- The same towards this package, which holds as many reflections as it can. -/
def fullState : State :=
  { windowState 0x44 with
    lath := { (windowState 0x44).lath with chipId := 5 }
    heldRefl := List.replicate 4096 (0, 0, { serial := 0, dchip := 5, schip := 0, core := 0, tx := 0, rxIdx := 0, offset := 0, data := [] }) }

/-- An address lies in a window of the grid. -/
abbrev inWindow (c : Issue) (w va : Nat) (e : Nat × BitVec 256) : Prop :=
  e.2.getLsbD 0 ∧ e.2.getLsbD 1 ∧ (e.2.extractLsb' 32 12) = c.grid.asid ∧ (e.2.extractLsb' 64 57).toNat ≤ va ∧
    va + w ≤ (e.2.extractLsb' 64 57).toNat + (e.2.extractLsb' 128 40).toNat

/-- The last word of the window, and the word past it. -/
theorem witness_WorkAndWindowResults_WindowStoreResults :
    (∃ c, Issues (.wst 2 8 2 0) (windowState 0x48) c ∧ (c.live = [(0, 0)] ∧ (c.src64 2 (0, 0)).toNat % 4 = 0 ∧
      ∀ e ∈ (windowState 0x48).txw, ¬ inWindow c 4 (c.src64 2 (0, 0)).toNat e)) ∧
    (∃ c, Issues (.wst 2 8 2 0) (windowState 0x44) c ∧ (c.live = [(0, 0)] ∧
      accessOk (windowState 0x44) c [(0, 0)] .w 4 4 (fun q => c.src64 2 q) ∧ (windowState 0x44).txw.length = 1 ∧
      (∀ e ∈ (windowState 0x44).txw, inWindow c 4 (c.src64 2 (0, 0)).toNat e ∧ e.2.extractLsb' 176 10 ≠ (windowState 0x44).lath.chipId))) ∧
    ∃ c, Issues (.wst 2 8 2 0) fullState c ∧ (c.live = [(0, 0)] ∧ accessOk fullState c [(0, 0)] .w 4 4 (fun q => c.src64 2 q) ∧
      fullState.txw.length = 1 ∧ 4096 ≤ fullState.heldRefl.length ∧
      (∀ e ∈ fullState.txw, inWindow c 4 (c.src64 2 (0, 0)).toNat e ∧ e.2.extractLsb' 176 10 = fullState.lath.chipId)) :=
  ⟨issues_of rfl (by decide +kernel), issues_of rfl (by decide +kernel), issues_of rfl (by decide +kernel)⟩

/-- A group in privileged state with the address 0x40 in q0:q1, an image of one operation word there that binds index 7, and the bindings `m`. -/
def imageState (m : SMap VAddr) : State :=
  withBytes 0x40 (bytesOfNat 8 (0x107 + 2 ^ 32 * 0x30000000)) (mapped0 (stateOf { smallGroup (oneSlice 1) [(.q 0, 0x40)] with privileged := true } fun t => { t with macros := m }))

/-- A microprogram in progress, at step `k` of two, as `f` has left it, on a slice with a literal and its third source. -/
def macroState (k : Nat) (f : MacroRun → MacroRun := id) : State :=
  stateOf { smallGroup (oneSlice 1) [] with
    mac := [f { slices := 1, ops := [0x20000000, 0x20000000], step := k, p0 := 1, p1 := 2, p2 := 3, lit := [], live := [(0, 0)] }] }

/-- The bytes of the image at 0x40 by the TLB of the core. -/
abbrev imageBytes (s : State) (c : Issue) : List Byte :=
  (accessBytes c.grid none 0x40 132).map fun b => coreView s c.team.core (((tlbHit s c b).map fun e => e.pa b).getD 0)

/-- What each clause about MSTLD asks. -/
abbrev mstldReady (s : State) (c : Issue) : Prop :=
  c.lead = some (0, 0) ∧ accessOk s c [(0, 0)] .r 4 132 (fun x => c.src64 0x78 x) ∧
    fits s c.team.core (physAt s c 132 (c.src64 0x78 (0, 0)) (0, 0)) ∧ notHeld s c.team.core (physAt s c 132 (c.src64 0x78 (0, 0)) (0, 0))

/-- The header word of the image the bytes hold. -/
abbrev imageWord (s : State) (c : Issue) : Nat :=
  natOfBytes (((physAt s c 132 (c.src64 0x78 (0, 0)) (0, 0)).map fun x => coreView s c.team.core x).take 4)

/-- The slice of the group has left a MACRO at its second step. -/
def redoState : State :=
  let s := imageState [(7, 0x40)]
  { withBytes 0x40 (bytesOfNat 12 (0x207 + 2 ^ 32 * 0x30000000)) s with teams := s.teams.map fun m => { m with groups := m.groups.map fun g =>
      { g with slices := g.slices.map fun x => { x with
          redo := some { slices := 1, ops := [], step := 1, p0 := 0, p1 := 0, p2 := 0, lit := [], live := [(0, 0)] } } } } }

/-- A good image; none; one of no operation; index 7 unbound; a MACRO at its first step, and resumed at its second; and each step of
a microprogram of two. -/
theorem witness_MicroprogramAndHintResults_MacroResults :
    (∃ c, Issues (.mstld 0x78) (imageState []) c ∧ (mstldReady (imageState []) c ∧ imageWord (imageState []) c = 0x107 ∧
      (((physAt (imageState []) c 132 (c.src64 0x78 (0, 0)) (0, 0)).map fun x => coreView (imageState []) c.team.core x).drop 8).all (fun x => x == 0) = true)) ∧
    (∃ c, Issues (.mstld 0x78) (withBytes 0x41 [0] (imageState [])) c ∧ (mstldReady (withBytes 0x41 [0] (imageState [])) c ∧
      imageWord (withBytes 0x41 [0] (imageState [])) c = 7)) ∧
    (∃ c, Issues (.runMacro 7 1 2 3) (imageState []) c ∧ mapGet c.team.macros 7 = none) ∧
    (∃ c, Issues (.runMacro 7 1 2 3) (imageState [(7, 0x40)]) c ∧ (mapGet c.team.macros 7 = some 0x40 ∧
      (∀ b ∈ accessBytes c.grid none 0x40 132, (tlbHit (imageState [(7, 0x40)]) c b).isSome) ∧ imageOps (imageBytes (imageState [(7, 0x40)]) c) = [0x30000000] ∧
      (c.group.slice (c.slices.headD 0)).redo = none)) ∧
    (∃ c, Issues (.runMacro 7 1 2 3) redoState c ∧ (mapGet c.team.macros 7 = some 0x40 ∧
      (∀ b ∈ accessBytes c.grid none 0x40 132, (tlbHit redoState c b).isSome) ∧ imageOps (imageBytes redoState c) = [0x30000000, 0] ∧
      (c.group.slice (c.slices.headD 0)).redo.map (fun o => o.step) = some 1)) ∧
    ∀ k ∈ [0, 1], ∃ c, Issues (.add 0 1 2 3) (macroState k) c ∧ (c.group.slices.length = 8 ∧
      (c.mac.map fun m => (m.step + 1, m.ops.length)) = some (k + 1, 2)) :=
  ⟨issues_of rfl (by decide +kernel), issues_of rfl (by decide +kernel), issues_of rfl (by decide +kernel), issues_of rfl (by decide +kernel),
    issues_of rfl (by decide +kernel), all_steps⟩
where
  all_steps : ∀ k ∈ [0, 1], ∃ c, Issues (.add 0 1 2 3) (macroState k) c ∧ (c.group.slices.length = 8 ∧
      (c.mac.map fun m => (m.step + 1, m.ops.length)) = some (k + 1, 2)) := by
    intro k hk
    fin_cases hk <;> exact issues_of rfl (by decide +kernel)

/-- Each instruction that gathers in a microprogram, at its first step and its last. -/
theorem witness_MicroprogramAndHintResults_gathering : ∀ k ∈ [0, 1], ∀ x ∈ [(Instr.topk 0 8 2 3, true), (.topkm 0 8 2 3, true), (.estatMean 3 1 1 1, false),
      (.estatSprd 3 1 1 1, false), (.estatRank 3 1 1, true), (.estatQnt 3 1 1, true)],
    ∃ c : Issue, (macroState k fun m => if x.2 then { m with lit := [3], src3 := some 0x7F, imm := [3] } else m).issuer = .gang c.uid c.gid c.gang ∧
      issueOf (macroState k fun m => if x.2 then { m with lit := [3], src3 := some 0x7F, imm := [3] } else m) c.uid c.gid c.gang false = some c ∧
      (precheckCore x.1 c = none ∧ c.mac.isSome ∧ c.group.mac.length = 1 ∧ c.group.slices.length = 8 ∧
        (∀ sl < 8, if c.slices.contains sl then allHere c sl else (c.group.slice sl).wait = .finished) ∧
        (siblingsOf c.team c.grid c.group).map (fun g => g.gid) = [c.gid] ∧ (c.team.groups.map fun g => g.gid).Nodup) := by
  intro k hk x hx
  fin_cases hk <;> fin_cases hx <;> exact gang_of rfl (by decide +kernel)

/-- The pairs of a hint word. -/
abbrev hintPairs (c : Issue) : List (Nat × Nat) := pairsWhere c.group.e c.slices fun sl => (c.group.slice sl).active

theorem witness_MicroprogramAndHintResults_HintWordResults :
    (∃ c : Issue, dataState.issuer = .gang c.uid c.gid c.gang ∧ issueOf dataState c.uid c.gid c.gang true = some c ∧ (c.mac = none ∧
      legal (.src3 0x7F) = true ∧ legal (.rnd 1) = true ∧
      (∀ l ∈ [0, 1, 2, 3], legal (.prefetch l 2 0) = decide (l ≠ 3) ∧ overBudget (.prefetch l 2 0) none false c.group.regbud = false) ∧
      c.grid.ctl 0 1 = 0 ∧ (∀ p ∈ hintPairs c, mapped dataState c false 1 (c.src64 2 p) p) ∧
      fits dataState c.team.core ((hintPairs c).flatMap fun p => physAt dataState c 1 (c.src64 2 p) p) ∧
      notHeld dataState c.team.core ((hintPairs c).flatMap fun p => physAt dataState c 1 (c.src64 2 p) p))) ∧
    ∃ c : Issue, (stateOf { smallGroup (oneSlice 1) [] with regbud := 8 }).issuer = .gang c.uid c.gid c.gang ∧
      issueOf (stateOf { smallGroup (oneSlice 1) [] with regbud := 8 }) c.uid c.gid c.gang true = some c ∧
      (c.mac = none ∧ legal (.prefetch 0 10 0) = true ∧ hintPairs c ≠ [] ∧ overBudget (.prefetch 0 10 0) none false c.group.regbud = true) :=
  ⟨gang_of rfl (by decide +kernel), gang_of rfl (by decide +kernel)⟩

/-- Hint words in a microprogram: at its first step, at its last, and at its last with a literal pending. -/
theorem witness_MicroprogramAndHintResults_hints_in_microprograms : ∀ x ∈ [(0, false), (1, false), (1, true)],
    ∃ c : Issue, (macroState x.1 fun m => if x.2 then { m with imm := [3] } else m).issuer = .gang c.uid c.gid c.gang ∧
      issueOf (macroState x.1 fun m => if x.2 then { m with imm := [3] } else m) c.uid c.gid c.gang true = some c ∧
      (c.group.slices.length = 8 ∧ (c.mac.map fun m => (m.step, m.ops.length)) = some (x.1, 2) ∧
        (c.mac.map fun m => (m.imm, m.src3, m.rnd)) = some (if x.2 then [3] else [], none, none)) := by
  intro x hx
  fin_cases hx <;> exact gang_of rfl (by decide +kernel)

/-! ### The Trowel -/

/-- The Trowel of the team issues with the context `w`, its team changed by `t` and its grid by `r`. -/
def trowelOf (w : Trowel) (t : Team → Team := id) (r : Grid → Grid := id) : State :=
  { mapped0 (stateOf probeGroup (fun x => t { x with trowel := some w }) fun g => r (field 0x28 4096 (field 0x2C 4096 g))) with issuer := .trowel 0 }

/-- The issue of the Trowel meets a check. -/
def meetsT (s : State) (p : TrowelIssue → Bool) : Bool := match trowelIssue s 0 with
  | some c => decide (c.uid = 0) && p c
  | none => false

/-- A Trowel that issues, on an issue that meets `P`, whatever the checks say. -/
theorem trowel_of {s : State} {P : TrowelIssue → Prop} [DecidablePred P] (h0 : s.issuer = .trowel 0) (h : meetsT s (fun c => decide (P c)) = true) :
    ∃ c, s.issuer = .trowel c.uid ∧ trowelIssue s c.uid = some c ∧ P c := by
  unfold meetsT at h
  split at h
  · rename_i c hc
    simp only [Bool.and_eq_true, decide_eq_true_eq] at h
    exact ⟨c, by rw [h.1]; exact h0, by rw [h.1]; exact hc, h.2⟩
  · exact absurd h Bool.false_ne_true

/-- An instruction of the Trowel that no check stops. -/
theorem trowel_issues {j : Instr} {s : State} {P : TrowelIssue → Prop} [DecidablePred P] (h0 : s.issuer = .trowel 0)
    (h : meetsT s (fun c => decide (legal j = true ∧ c.w.bindingOk j = true ∧ P c)) = true) : ∃ c, TrowelIssues j s c ∧ P c := by
  obtain ⟨c, h1, h2, h3, h4, h5⟩ := trowel_of h0 h
  exact ⟨c, ⟨h1, h2, h3, h4⟩, h5⟩

/-- Every instruction of a list. -/
theorem all_trowel {l : List Instr} {s : State} {P : TrowelIssue → Prop} [DecidablePred P] (h0 : s.issuer = .trowel 0)
    (h : l.all (fun j => meetsT s (fun c => decide (legal j = true ∧ c.w.bindingOk j = true ∧ P c))) = true) :
    ∀ j ∈ l, ∃ c, TrowelIssues j s c ∧ P c := fun j hj => trowel_issues h0 (List.all_eq_true.1 h j hj)

/-- t1 holds 63 and t2 holds 64, the greatest TFLAGS takes and the least it does not; t3 holds 0. -/
def scalarState : State := trowelOf { t := [(1, 63), (2, 64)] }

/-- The place a branch names is in the stream. -/
abbrev branchInside (c : TrowelIssue) (o : BitVec 14) : Prop :=
  c.grid.tbase ≤ (BitVec.ofInt 57 (c.w.pc.toNat + 4 * o.toInt)).toNat ∧ (BitVec.ofInt 57 (c.w.pc.toNat + 4 * o.toInt)).toNat < c.grid.tbase + c.grid.tlen

theorem witness_TrowelScalarResults :
    (∀ j ∈ [Instr.tmov 15 1, .tadd 0 1 2, .tsub 3 1 2, .tmul 3 1 2, .tmov 0x7E 1, .tend], ∃ c, TrowelIssues j scalarState c ∧ True) ∧
    (∃ c, TrowelIssues (.tmov 0x20 1) scalarState c ∧ (c.src 1).toNat < 64) ∧ (∃ c, TrowelIssues (.tmov 0x20 2) scalarState c ∧ 64 ≤ (c.src 2).toNat) ∧
    (∃ c, TrowelIssues (.tmov 3 0x7F) (trowelOf { imm := [5] }) c ∧ c.src 0x7F = 5) ∧
    (∃ c, TrowelIssues (.tbrnz 1 4) scalarState c ∧ (branchInside c 4 ∧ (mapGet c.w.t 1).getD 0 ≠ 0)) ∧
    (∃ c, TrowelIssues (.tbrnz 3 4) scalarState c ∧ (branchInside c 4 ∧ (mapGet c.w.t 3).getD 0 = 0)) ∧
    (∃ c, TrowelIssues (.tbrnz 3 (-1)) scalarState c ∧ ¬ branchInside c (-1)) ∧ (∃ c, TrowelIssues (.tbra 0) scalarState c ∧ branchInside c 0) ∧
    ∃ c, TrowelIssues (.tbra (-1)) scalarState c ∧ ¬ branchInside c (-1) :=
  ⟨all_trowel rfl (by decide +kernel), trowel_issues rfl (by decide +kernel), trowel_issues rfl (by decide +kernel), trowel_issues rfl (by decide +kernel),
    trowel_issues rfl (by decide +kernel), trowel_issues rfl (by decide +kernel), trowel_issues rfl (by decide +kernel), trowel_issues rfl (by decide +kernel),
    trowel_issues rfl (by decide +kernel)⟩

/-- Barrier 2 of four as given, and a count in t1. -/
def tbarState (x : Barrier) (k : DWord) : State := trowelOf { t := [(1, k)] } (fun t => { t with barriers := [(2, x)] }) withBars

/-- An arrival's barrier and count are in range. -/
abbrev arriveInRange (c : TrowelIssue) (b k : Nat) : Prop := b < c.grid.ctl 8 5 ∧ 1 ≤ k ∧ k ≤ 4096

theorem witness_TrowelScalarResults_TrowelBarrierResults :
    (∃ c, TrowelIssues (.tbarArv 2 1) (tbarState {} 4096) c ∧ (arriveInRange c 2 (c.src 1).toNat ∧ (c.team.barrier 2).last = none ∧ (c.team.barrier 2).expect = 0)) ∧
    (∃ c, TrowelIssues (.tbarArv 2 1) (tbarState { arrived := 1, last := some (0, 3) } 4096) c ∧ (arriveInRange c 2 (c.src 1).toNat ∧
      decide (∃ y ∈ (c.team.barrier 2).last, y.1 = (tbarState {} 0).clk ∧ Arriver.trowel.rank < y.2) = true)) ∧
    (∃ c, TrowelIssues (.tbarArv 2 1) (tbarState { expect := 3, arrived := 2 } 3) c ∧ (arriveInRange c 2 (c.src 1).toNat ∧ (c.team.barrier 2).last = none ∧ (c.team.barrier 2).expect.toNat = (c.src 1).toNat)) ∧
    (∃ c, TrowelIssues (.tbarArv 4 1) (tbarState {} 1) c ∧ ¬ arriveInRange c 4 (c.src 1).toNat) ∧
    (∃ c, TrowelIssues (.tbarArv 2 1) (tbarState {} 4097) c ∧ ¬ arriveInRange c 2 (c.src 1).toNat) ∧
    (∃ c, TrowelIssues (.tbarArv 2 1) (tbarState { expect := 4 } 3) c ∧ (arriveInRange c 2 (c.src 1).toNat ∧ (c.team.barrier 2).last = none ∧ (c.team.barrier 2).expect ≠ 0 ∧
      (c.team.barrier 2).expect.toNat ≠ (c.src 1).toNat)) ∧
    (∃ c, TrowelIssues (.tbarWt 4) (tbarState {} 3) c ∧ c.grid.ctl 8 5 ≤ 4) ∧
    (∃ c, TrowelIssues (.tbarWt 2) (tbarState {} 3) c ∧ (2 < c.grid.ctl 8 5 ∧ quiet c.team 2 = true ∧ (c.team.barrier 2).passed 0 = false)) ∧
    (∃ c, TrowelIssues (.tbarWt 2) (trowelOf { arrivals := [(2, { arvd := true, aphase := 0 })] } (fun t => { t with barriers := [(2, { phase := 1 })] }) withBars) c ∧
      (2 < c.grid.ctl 8 5 ∧ quiet c.team 2 = true ∧ (c.team.barrier 2).passed (c.w.arrival 2).aphase = true)) ∧
    ∃ c, scalarState.issuer = .trowel c.uid ∧ trowelIssue scalarState c.uid = some c ∧ True :=
  ⟨trowel_issues rfl (by decide +kernel), trowel_issues rfl (by decide +kernel), trowel_issues rfl (by decide +kernel), trowel_issues rfl (by decide +kernel), trowel_issues rfl (by decide +kernel),
    trowel_issues rfl (by decide +kernel), trowel_issues rfl (by decide +kernel), trowel_issues rfl (by decide +kernel), trowel_issues rfl (by decide +kernel),
    trowel_of rfl (by decide +kernel)⟩

/-- A control word of a generator that GSET admits. -/
abbrev admitted (x : DWord) : Prop :=
  (x.extractLsb' 12 4).toNat ≤ 7 ∧ (x.extractLsb' 8 4).toNat ≤ 8 ∧ (x.extractLsb' 8 4).toNat ≠ 7 ∧
    ¬ ((x.extractLsb' 8 4).toNat = 6 ∧ ((x.extractLsb' 12 4).toNat = 3 ∨ (x.extractLsb' 12 4).toNat = 4)) ∧ x.extractLsb' 0 5 = 0

/-- The offset, or the control word, in t1. -/
def regState (v : DWord) : State := trowelOf { t := [(1, v), (2, 0xFFFFFFF)] }

/-- MCPY into m15 of two registers, at an offset of 8, past Hawk, and within; GSET of kind 7 format 6, of kind 3 format 6, and of kind 8. -/
theorem witness_TrowelScalarResults_DescriptorAndGeneratorResults :
    (∀ j ∈ [Instr.mset 15 1 2, .madv 0 1 2, .gseed 7 1 2, .gorg 0 1 2], ∃ c, TrowelIssues j (regState 7) c ∧ True) ∧
    (∃ c, TrowelIssues (.mcpy 15 1 1) (regState 0) c ∧ 16 < 15 + 2) ∧ (∃ c, TrowelIssues (.mcpy 14 1 1) (regState 8) c ∧ (c.src 1).toNat % 16 ≠ 0) ∧
    (∃ c, TrowelIssues (.mcpy 14 1 1) (regState 4080) c ∧ ((c.src 1).toNat % 16 = 0 ∧ localOk c.grid (c.src 1).toNat (16 * 2) = false)) ∧
    (∃ c, TrowelIssues (.mcpy 14 1 1) (regState 4064) c ∧ ((c.src 1).toNat % 16 = 0 ∧ localOk c.grid (c.src 1).toNat (16 * 2) = true ∧
      frozenAt (regState 4064) c.team.core [((c.src 1).toNat : Int), ((c.src 1).toNat : Int) + 16 * 2 - 1] = false)) ∧
    (∃ c, TrowelIssues (.gset 7 1) (regState 0x7620) c ∧ admitted (c.src 1)) ∧ (∃ c, TrowelIssues (.gset 7 1) (regState 0x3600) c ∧ ¬ admitted (c.src 1)) ∧
    ∃ c, TrowelIssues (.gset 7 1) (regState 0x8000) c ∧ ¬ admitted (c.src 1) :=
  ⟨all_trowel rfl (by decide +kernel), trowel_issues rfl (by decide +kernel), trowel_issues rfl (by decide +kernel), trowel_issues rfl (by decide +kernel),
    trowel_issues rfl (by decide +kernel), trowel_issues rfl (by decide +kernel), trowel_issues rfl (by decide +kernel), trowel_issues rfl (by decide +kernel)⟩

/-- TXPOSE in a gang; ADD and STALL in the Trowel; a Trowel word with an odd tile slot operand code; and a literal that TEND does not take. -/
theorem witness_StreamsAreKeptApart :
    (∃ c : Issue, (one []).issuer = .gang c.uid c.gid c.gang ∧ issueOf (one []) c.uid c.gid c.gang false = some c ∧ isTrowel (.txpose 0) = true) ∧
    (∃ c, scalarState.issuer = .trowel c.uid ∧ trowelIssue scalarState c.uid = some c ∧ groupStream (.add 0 1 2 3) = true) ∧
    (isHint (.stall 0) = true ∧ ∀ v, Instr.stall 0 ≠ .imm v) ∧ (∃ c, scalarState.issuer = .trowel c.uid ∧ trowelIssue scalarState c.uid = some c ∧
      (isTrowel (.tmov 0x30 1) = true ∧ legal (.tmov 0x30 1) = false)) ∧
    ∃ c, (trowelOf { imm := [5] }).issuer = .trowel c.uid ∧ trowelIssue (trowelOf { imm := [5] }) c.uid = some c ∧ (isTrowel .tend = true ∧ c.w.bindingOk .tend = false) :=
  ⟨gang_of rfl (by decide +kernel), trowel_of rfl (by decide +kernel), ⟨rfl, fun _ h => Instr.noConfusion h⟩, trowel_of rfl (by decide +kernel), trowel_of rfl (by decide +kernel)⟩

/-- A descriptor of a format at an offset, lines 0x100 bytes apart, block scales at `off + 0x40`, band scales at `off + 0x80`. -/
def descAt (fmt off : Nat) : BitVec 128 :=
  BitVec.ofNat 128 (fmt * 2 ^ 8 + (off + 0x80) * 2 ^ 20 + (off + 0x40) * 2 ^ 48 + 0x100 * 2 ^ 76 + off * 2 ^ 100)

/-- t1 holds VR = 2, VC = 8, VK = 4; m1 describes one format at 0, m2 another at 0x400; the tiles as given. -/
def tileState (fa fb : Nat) (ts : List Tile) (w : Trowel → Trowel := id) : State :=
  trowelOf (w { t := [(1, 0x0000000400080002), (2, 0x101)], tiles := ts }) fun t => { t with mregs := [(1, descAt fa 0), (2, descAt fb 0x400)] }

/-- An element of a tile, to tell rows from columns. -/
def aTile (slot : Nat) (m : TileMode) : Tile := { slot := slot, mode := m, cells := [(1, { a := 0x40000000 })] }

/-- What a tile instruction of slot `sl` asks. -/
abbrev tileGo (c : TrowelIssue) (sl : Nat) : Prop :=
  c.w.tape.mode ≠ .recording ∧ (namedTile c.w.tiles sl).any tileWf = true

/-- TZERO of each mode at its greatest slot and at one its mode does not admit; TLD of a format each mode takes, of one it does not; counts out of range; and a slot that
names no tile. -/
theorem witness_TileLoadsAndStores_TileLoadResults :
    (∀ j ∈ [Instr.tzero 7 0, .tzero 6 1, .tzero 4 2], ∃ c, TrowelIssues j (tileState 1 1 []) c ∧ c.w.tape.mode ≠ .recording) ∧
    (∀ j ∈ [Instr.tzero 7 1, .tzero 6 2], ∃ c, TrowelIssues j (tileState 1 1 []) c ∧ True) ∧
    (∀ x ∈ [(1, TileMode.f32), (2, .f32), (0, .f64), (7, .exact)], ∃ c, TrowelIssues (.tld 1 4 1) (tileState x.1 1 [aTile 4 x.2]) c ∧ (tileGo c 4 ∧ countsOk ((mapGet c.w.t 1).getD 0) ∧
      c.descFault (tileState x.1 1 [aTile 4 x.2]) ((mapGet c.team.mregs 1).getD 0) (fun f => match x.2 with
        | .f64 => decide (f = 0)
        | .f32 => decide (f = 1 ∨ f = 2 ∨ f = 3)
        | .exact => decide (f = 7)) 2 8 false = none ∧
      c.descFrozen (tileState x.1 1 [aTile 4 x.2]) ((mapGet c.team.mregs 1).getD 0) 2 8 = false)) ∧
    (∃ c, TrowelIssues (.tld 1 4 1) (tileState 0 1 [aTile 4 .f32]) c ∧ (tileGo c 4 ∧
      c.descFault (tileState 0 1 [aTile 4 .f32]) ((mapGet c.team.mregs 1).getD 0) (fun f => decide (f = 1 ∨ f = 2 ∨ f = 3)) 2 8 false = some 0x0204)) ∧
    (∃ c, TrowelIssues (.tld 2 4 1) (tileState 1 1 [aTile 4 .f32]) c ∧ ¬ countsOk ((mapGet c.w.t 2).getD 0)) ∧
    ∃ c, TrowelIssues (.tld 1 5 1) (tileState 1 1 [aTile 4 .f64]) c ∧ namedTile c.w.tiles 5 = none :=
  ⟨all_trowel rfl (by decide +kernel), all_trowel rfl (by decide +kernel), fun x hx => by
    fin_cases hx <;> exact trowel_issues rfl (by decide +kernel), trowel_issues rfl (by decide +kernel), trowel_issues rfl (by decide +kernel), trowel_issues rfl (by decide +kernel)⟩

theorem witness_TileLoadsAndStores_TileStoreResults :
    (∀ x ∈ [(1, TileMode.f32), (5, .f32), (0, .f64), (2, .exact)], ∃ c, TrowelIssues (.tst 1 1 4 1 0 0) (tileState x.1 1 [aTile 4 x.2]) c ∧ (tileGo c 4 ∧ teamMemWf c.team ∧
      countsOk ((mapGet c.w.t 1).getD 0) ∧ c.descFault (tileState x.1 1 [aTile 4 x.2]) ((mapGet c.team.mregs 1).getD 0) (tstAccepts (aTile 4 x.2)) 2 8 true = none ∧
      c.descFrozen (tileState x.1 1 [aTile 4 x.2]) ((mapGet c.team.mregs 1).getD 0) 2 8 = false)) ∧
    ∀ x ∈ [(1, Instr.tcpy 2 1 1 1), (12, .tldm 2 1 1 1), (12, .tcpy 2 1 0 1)], ∃ c, TrowelIssues x.2 (tileState x.1 x.1 []) c ∧ (c.w.tape.mode ≠ .recording ∧ teamMemWf c.team ∧
      countsOk ((mapGet c.w.t 1).getD 0) ∧ copyCountOk x.1 8 = true ∧ c.descFault (tileState x.1 x.1 []) ((mapGet c.team.mregs 1).getD 0) (fun _ => true) 2 8 false = none ∧
      c.descFault (tileState x.1 x.1 []) ((mapGet c.team.mregs 2).getD 0) (fun n => decide (n = x.1)) 2 8 true = none ∧
      c.descFrozen (tileState x.1 x.1 []) ((mapGet c.team.mregs 1).getD 0) 2 8 = false ∧ c.descFrozen (tileState x.1 x.1 []) ((mapGet c.team.mregs 2).getD 0) 2 8 = false) :=
  ⟨fun x hx => by fin_cases hx <;> exact trowel_issues rfl (by decide +kernel), fun x hx => by fin_cases hx <;> exact trowel_issues rfl (by decide +kernel)⟩

/-- An operand is a side, not a fault. -/
def isSide : Operand → Bool
  | .side .. => true
  | .fault _ => false

/-- A binary32 form, a saturating integer form, and a block form with band scales; and an EXACT tile whose chain is of another class. -/
theorem witness_MatrixProducts_MmaResults :
    (∀ x ∈ [((14 : BitVec 4), (1 : Nat), TileMode.f32), (4, 8, .exact), (11, 12, .exact), (15, 0, .f64)],
      ∃ c, TrowelIssues (.mma x.1 1 4 1 2) (tileState x.2.1 x.2.1 [aTile 4 x.2.2]) c ∧ (tileGo c 4 ∧ countsOk ((mapGet c.w.t 1).getD 0) ∧
        vkOf ((mapGet c.w.t 1).getD 0) ≤ (mmaForm x.1.toNat).2.2 ∧ x.2.2 = mmaMode x.1.toNat ∧
        isSide (c.operand (tileState x.2.1 x.2.1 [aTile 4 x.2.2]) 1 (mmaForm x.1.toNat).1 true true 2 4 (mmaForm x.1.toNat).2.2) = true ∧
        isSide (c.operand (tileState x.2.1 x.2.1 [aTile 4 x.2.2]) 2 (mmaForm x.1.toNat).2.1 false true 8 4 (mmaForm x.1.toNat).2.2) = true ∧
        c.operandFrozen (tileState x.2.1 x.2.1 [aTile 4 x.2.2]) 1 true 2 4 = false ∧ c.operandFrozen (tileState x.2.1 x.2.1 [aTile 4 x.2.2]) 2 true 8 4 = false)) ∧
    ∃ c, TrowelIssues (.mma 4 1 4 1 2) (tileState 8 8 [{ aTile 4 .exact with first := false, cls := .float }]) c ∧ (tileGo c 4 ∧ countsOk ((mapGet c.w.t 1).getD 0) ∧
      vkOf ((mapGet c.w.t 1).getD 0) ≤ (mmaForm 4).2.2 ∧ mmaClass 4 ≠ .float) :=
  ⟨fun x hx => by fin_cases hx <;> exact trowel_issues rfl (by decide +kernel), trowel_issues rfl (by decide +kernel)⟩

/-- 1 × 2^0 and −(2^95 − 1) fit at weight 2^0: their sum is −(2^95 − 2). -/
theorem witness_MatrixProducts_ExactElementsAreExact :
    (({ a := 1 } : Elem).enter (-(2 ^ 95 - 1)) 0).2 = 0 ∧ -(2 ^ 95) ≤ (-(2 ^ 95 - 2) : Int) ∧ (-(2 ^ 95 - 2) : Int) < 2 ^ 95 := by decide +kernel

/-- The products of 1 and 2 in an EXACT and in a float form. -/
theorem witness_MatrixProducts_sums :
    let side (fmt x : Nat) : Side := { fmt := fmt, elems := [[x]] }
    (mmaForm 14).1 = 1 ∧ (mmaForm 14).2.1 = 1 ∧ 1 ≤ (mmaForm 14).2.2 ∧ exactValue ((side 1 0x3F800000).value 0 0) = some 1 ∧
      exactValue ((side 1 0x40000000).value 0 0) = some 2 ∧ exactValue ((mmaMode 14).fmt.value ({ a := 0x3F800000 } : Elem).bits) = some 1 ∧
      (mmaForm 4).1 = 8 ∧ exactValue ((side 8 1).value 0 0) = some 1 := by
  have h1 : ({ fmt := 1, elems := [[0x3F800000]] } : Side).value 0 0 = .fin false 0x800000 (-23) := by decide +kernel
  have h2 : ({ fmt := 1, elems := [[0x40000000]] } : Side).value 0 0 = .fin false 0x800000 (-22) := by decide +kernel
  have h3 : (mmaMode 14).fmt.value ({ a := 0x3F800000 } : Elem).bits = .fin false 0x800000 (-23) := by decide +kernel
  have h4 : ({ fmt := 8, elems := [[1]] } : Side).value 0 0 = .fin false 1 0 := by decide +kernel
  refine ⟨by decide, by decide, by decide, ?_, ?_, ?_, by decide, ?_⟩
  · rw [h1]; norm_num [exactValue]
  · rw [h2]; norm_num [exactValue]
  · rw [h3]; norm_num [exactValue]
  · rw [h4]; norm_num [exactValue]

theorem witness_ElementwiseResults :
    (∀ j ∈ [Instr.tscl 4 1, .tbias 4 1 0, .tbias 4 1 1, .tact 4 0, .tact 4 1, .tact 4 2, .txpose 4, .tred 4 0, .tred 4 1],
      ∃ c, TrowelIssues j (tileState 1 1 [aTile 4 .f32]) c ∧ (tileGo c 4 ∧ c.descFault (tileState 1 1 [aTile 4 .f32]) ((mapGet c.team.mregs 1).getD 0) (fun f => decide (f = 1)) 1 256 false = none ∧
        c.descFrozen (tileState 1 1 [aTile 4 .f32]) ((mapGet c.team.mregs 1).getD 0) 1 256 = false)) ∧
    (∀ j ∈ [Instr.tscl 4 1, .tbias 4 1 0, .tbias 4 1 1, .tact 4 0, .tact 4 2, .txpose 4, .tcvt 4 0, .tred 4 0],
      ∃ c, TrowelIssues j (tileState 0 1 [aTile 4 .f64]) c ∧ (tileGo c 4 ∧ c.descFault (tileState 0 1 [aTile 4 .f64]) ((mapGet c.team.mregs 1).getD 0) (fun f => decide (f = 0)) 1 256 false = none ∧
        c.descFrozen (tileState 0 1 [aTile 4 .f64]) ((mapGet c.team.mregs 1).getD 0) 1 256 = false)) ∧
    (∀ j ∈ [Instr.txpose 4, .tcvt 4 0, .tred 4 1], ∃ c, TrowelIssues j (tileState 0 1 [aTile 4 .exact]) c ∧ tileGo c 4) ∧
    ∀ j ∈ [Instr.tscl 5 1, .tbias 5 1 0, .tact 5 0, .txpose 5, .tcvt 5 0, .tred 5 0], ∃ c, TrowelIssues j (tileState 1 1 [aTile 4 .f64]) c ∧ namedTile c.w.tiles 5 = none :=
  ⟨all_trowel rfl (by decide +kernel), all_trowel rfl (by decide +kernel), all_trowel rfl (by decide +kernel), all_trowel rfl (by decide +kernel)⟩

/-- An exact element with a NaN, with both infinities, and with the value 3; the band scale 1; a line of it; and an operand of SiLU. -/
theorem witness_ElementwiseResults_values :
    let x : Elem := { a := 3 }
    x.nan = false ∧ x.pinf = false ∧ x.ninf = false ∧ (∃ p, exactValue (fmtBF16.value 0x3F80) = some p ∧ (x.a.toInt * (2 : ℚ) ^ x.f * p * p) = ratOf false 3 0) ∧
      (lineSum .exact [x]).2 = 0 ∧
      ((lineSum .f32 [{ a := 0x3F800000 }]).2 = 0 ∧ exactValue (TileMode.f32.fmt.value ({ a := 0x3F800000 } : Elem).bits) = some 1) ∧
      ∃ q, exactValue (fmtF32.value (fpArith fmtF32 .add .rne 0x3F800000
        (elemResult .exp2 .rne ((fpArith fmtF32 .mul .rne 0x3F800000 0x3FB8AA3B 0).1 ^^^ 2 ^ 31)).1 0).1) = some q := by
  have h1 : fmtBF16.value 0x3F80 = .fin false 0x80 (-7) := by decide +kernel
  have h2 : TileMode.f32.fmt.value ({ a := 0x3F800000 } : Elem).bits = .fin false 0x800000 (-23) := by decide +kernel
  have h3 : fmtF32.value (fpArith fmtF32 .add .rne 0x3F800000
      (elemResult .exp2 .rne ((fpArith fmtF32 .mul .rne 0x3F800000 0x3FB8AA3B 0).1 ^^^ 2 ^ 31)).1 0).1 = .fin false 11474604 (-23) := by decide +kernel
  refine ⟨rfl, rfl, rfl, ⟨1, ?_, ?_⟩, by decide +kernel, ⟨by decide +kernel, ?_⟩, ?_⟩
  · rw [h1]; norm_num [exactValue]
  · have : (3 : BitVec 96).toInt = 3 := by decide
    simp only [this]
    norm_num [ratOf]
  · rw [h2]; norm_num [exactValue]
  · rw [h3]
    exact ⟨_, rfl⟩


/-- A tape region of 4 KiB at 0x1000. -/
def withTape (g : Grid) : Grid := field 0x68 0x1000 (field 0x70 0x1000 g)

/-- A tape in a mode, with PTR, LIMIT and LAST as given. -/
def tapeState (w : Trowel) : State := trowelOf w id withTape

/-- Every instruction of a list, on an issue that meets what is asked of that instruction. -/
theorem all_trowelP {l : List Instr} {s : State} {P : Instr → TrowelIssue → Prop} [∀ j c, Decidable (P j c)] (h0 : s.issuer = .trowel 0)
    (h : l.all (fun j => meetsT s (fun c => decide (legal j = true ∧ c.w.bindingOk j = true ∧ P j c))) = true) :
    ∀ j ∈ l, ∃ c, TrowelIssues j s c ∧ P j c := fun j hj => trowel_issues h0 (List.all_eq_true.1 h j hj)

/-- The tile instructions, on operands they complete on. -/
def tileOps : List Instr :=
  [.tzero 4 0, .tld 1 4 1, .tst 1 1 4 0 0 0, .tcpy 2 1 0 1, .tldm 2 1 0 1, .mma 14 1 4 1 2, .tscl 4 1, .tbias 4 1 0, .tact 4 0, .txpose 4, .tcvt 0 0,
    .tred 4 0]

/-- A recording with PTR and LIMIT as given, t1, m1 and m2 as the tile statements have them, an F32 tile in slot 4 and an F64 tile in slot 0,
all slots started, and operands saved as told. -/
def recState (ptr limit : VAddr) (polm : Bool := false) : State :=
  trowelOf { t := [(1, 0x0000000400080002)], tiles := [aTile 0 .f64, aTile 4 .f32],
             tape := { mode := .recording, polm := polm, ptr := ptr, limit := limit, seg := 0x1000, started := 0xFF } }
    (fun t => { t with mregs := [(1, descAt 1 0), (2, descAt 1 0x400)] }) withTape

/-- The Trowel goes on to its next word. -/
def goesOn (o : Host.Outcome State Fault Refusal) (c : TrowelIssue) : Bool := match o with
  | .next v => ((v.team? c.uid).bind fun t => t.trowel).any fun w => decide (w.status = .running) && decide (w.pc = c.w.pc + 4)
  | _ => false

/-- A tile instruction in a recording completes outside one. -/
abbrev recordable (s : State) (j : Instr) (c : TrowelIssue) : Prop :=
  memWf s ∧ isTileOp j = true ∧ c.w.tape.mode = .recording ∧ goesOn (exec j (unrecorded s c)) c = true

/-- A Trowel that puts a tile back and raises flags goes on. -/
theorem goesOn_settle {s : State} {c d : TrowelIssue} {u : Tile} {fl : TFlags} {tm : Team} {w : Trowel} (hd : d.uid = c.uid)
    (hp : d.w.pc = c.w.pc) (ht : s.team? c.uid = some tm) (hw : tm.trowel = some w) (hr : w.status = .running) :
    goesOn (.next (c.settle s (.ok (c.raise fl (c.setTile u s))))) d = true := by
  simp [goesOn, TrowelIssue.settle, TrowelIssue.raise, TrowelIssue.setTile, TrowelIssue.upd, State.team?_updTeam, ht, hw, hr, Trowel.goTo, hd, hp]

/-- TBIAS of slot 4 goes on to its tile. -/
def tbiasGo (sl : BitVec 3) (m : BitVec 4) (c : TrowelIssue) (s : State) : Bool :=
  decide (c.w.tape.mode ≠ .recording) && match c.named sl floatMode with
    | some tile => decide (c.descFault s (c.team.mreg m.toNat) (fun f => decide (f = if tile.mode = .f64 then 0 else 1)) 1 256 false = none) &&
        !c.descFrozen s (c.team.mreg m.toNat) 1 256
    | none => false

theorem recorded_off {c : TrowelIssue} (h : c.w.tape.mode ≠ .recording) (job : TileJob) (s : State) (k : State → TRes) : c.recorded job s k = k s := by
  unfold TrowelIssue.recorded
  exact if_pos h

theorem elementwise_off {c : TrowelIssue} {j : Instr} {sl : BitVec 3} {modes : TileMode → Bool} {job : Tile → TileJob} {f : Tile → Tile × TFlags} {s : State}
    {tile : Tile} (hn : c.named sl modes = some tile) (h : c.w.tape.mode ≠ .recording) :
    c.elementwise j sl modes job f s = .ok (c.raise (f tile).2 (c.setTile (f tile).1 s)) := by
  unfold TrowelIssue.elementwise
  rw [hn]
  exact recorded_off h _ _ _

theorem tbias_next {sl : BitVec 3} {m : BitVec 4} {q : BitVec 1} {s : State} {c : TrowelIssue} (h : TrowelIssues (.tbias sl m q) s c)
    (hg : tbiasGo sl m c s = true) : ∃ u fl, exec (.tbias sl m q) s = .next (c.settle s (.ok (c.raise fl (c.setTile u s)))) := by
  obtain ⟨h1, h2, h3, h4⟩ := h
  have e : exec (.tbias sl m q) s = execTbias sl m q s := rfl
  rw [e]
  unfold execTbias
  generalize tbiasTile = F
  unfold tbiasGo at hg
  split at hg
  · rename_i tile hn
    simp only [Bool.and_eq_true, decide_eq_true_eq, Bool.not_eq_true'] at hg
    obtain ⟨g1, g2, g3⟩ := hg
    simp only [trowelInstr, h1, h2, h3, h4, Bool.not_true, Bool.or_self, Bool.false_eq_true, if_false, hn, g2, g3]
    exact ⟨_, _, by rw [elementwise_off hn g1]⟩
  · simp at hg

/-- The F32 MMA of m1 and m2 into slot 4 goes on to its tile. -/
def mmaGo (c : TrowelIssue) (s : State) : Bool :=
  decide (c.w.tape.mode ≠ .recording) && match validOf (c.treg 1) (some (mmaForm 14).2.2), c.named 4 (fun m => m == mmaMode 14) with
    | some v, some tile => chainOk tile 14 && match c.operand s 1 (mmaForm 14).1 true tile.first v.vr v.vk (mmaForm 14).2.2,
          c.operand s 2 (mmaForm 14).2.1 false tile.first v.vc v.vk (mmaForm 14).2.2 with
        | .side _ _ _, .side _ _ _ => !c.operandFrozen s 1 tile.first v.vr v.vk && !c.operandFrozen s 2 tile.first v.vc v.vk
        | _, _ => false
    | _, _ => false

theorem mma_next {s : State} {c : TrowelIssue} (h : TrowelIssues (.mma 14 1 4 1 2) s c) (hg : mmaGo c s = true) :
    ∃ u fl, exec (.mma 14 1 4 1 2) s = .next (c.settle s (.ok (c.raise fl (c.setTile u s)))) := by
  obtain ⟨h1, h2, h3, h4⟩ := h
  unfold mmaGo at hg
  rw [Bool.and_eq_true] at hg
  obtain ⟨hm, hg⟩ := hg
  split at hg
  · rename_i v tile hv hn
    rw [Bool.and_eq_true] at hg
    obtain ⟨hc, hg⟩ := hg
    split at hg
    · rename_i a da ga b db gb ha hb
      simp only [Bool.and_eq_true, Bool.not_eq_true'] at hg
      simp only [decide_eq_true_eq] at hm
      refine ⟨(mmaTile 14 a b v tile).1, (mmaTile 14 a b v tile).2, ?_⟩
      have e : exec (.mma 14 1 4 1 2) s = execMma 14 1 4 1 2 s := rfl
      rw [e]
      simp only [execMma, trowelInstr, h1, h2, h3, h4, show BitVec.toNat (14 : BitVec 4) = 14 from rfl, show BitVec.toNat (1 : BitVec 4) = 1 from rfl, hv, hn,
        hc, ha, hb, hg.1, hg.2, TrowelIssue.recorded, hm, ne_eq, not_false_eq_true, Bool.not_true, Bool.or_self, if_true, if_false, Bool.false_eq_true, or_self]
    · simp at hg
  · simp at hg

/-- The state of `recState` with no recording in progress. -/
def offState (ptr limit : VAddr) (polm : Bool := false) : State :=
  trowelOf { t := [(1, 0x0000000400080002)], tiles := [aTile 0 .f64, aTile 4 .f32],
             tape := { polm := polm, ptr := ptr, limit := limit, seg := 0x1000, started := 0xFF } }
    (fun t => { t with mregs := [(1, descAt 1 0), (2, descAt 1 0x400)] }) withTape

theorem unrecorded_recState (ptr limit : VAddr) (polm : Bool) (c : TrowelIssue) (h : c.uid = 0) :
    unrecorded (recState ptr limit polm) c = offState ptr limit polm := by
  unfold unrecorded
  rw [h]
  rfl

/-- The Trowel of team 0 goes on to the word at 4. -/
def goesOnTo4 (o : Host.Outcome State Fault Refusal) : Bool := match o with
  | .next v => ((v.team? 0).bind fun t => t.trowel).any fun w => decide (w.status = .running) && decide (w.pc = 4)
  | _ => false

theorem goesOn_of {o : Host.Outcome State Fault Refusal} {c : TrowelIssue} (hu : c.uid = 0) (hp : c.w.pc = 0) (h : goesOnTo4 o = true) :
    goesOn o c = true := by
  unfold goesOnTo4 at h
  unfold goesOn
  split at h
  · rw [hu, hp]
    exact h
  · exact absurd h Bool.false_ne_true

/-- The Trowel of the state runs, and has a tile instruction's effect on a tile: it goes on. -/
theorem goesOnTo4_of {s : State} {o : Host.Outcome State Fault Refusal} {c : TrowelIssue} {u : Tile} {fl : TFlags} {tm : Team} {w : Trowel}
    (ho : o = .next (c.settle s (.ok (c.raise fl (c.setTile u s))))) (hu : c.uid = 0) (hp : c.w.pc = 0) (ht : s.team? 0 = some tm)
    (hw : tm.trowel = some w) (hr : w.status = .running) : goesOnTo4 o = true := by
  have h1 : goesOn o c = true := by
    rw [ho]
    exact goesOn_settle rfl rfl (by rw [hu]; exact ht) hw hr
  unfold goesOn at h1
  unfold goesOnTo4
  split at h1
  · rw [hu, hp] at h1
    exact h1
  · exact absurd h1 Bool.false_ne_true

theorem tileOps_goOn : ∀ j ∈ tileOps, goesOnTo4 (exec j (offState 0x1000 0x1200)) = true := by
  intro j hj
  have hb : goesOnTo4 (exec (.tbias 4 1 0) (offState 0x1000 0x1200)) = true := by
    obtain ⟨c, h1, h2, h3, h4⟩ := trowel_issues (j := .tbias 4 1 0) (s := offState 0x1000 0x1200)
      (P := fun c => c.uid = 0 ∧ c.w.pc = 0 ∧ tbiasGo 4 1 c (offState 0x1000 0x1200) = true) rfl (by decide +kernel)
    obtain ⟨u, fl, h⟩ := tbias_next h1 h4
    exact goesOnTo4_of h h2 h3 rfl rfl rfl
  have hm : goesOnTo4 (exec (.mma 14 1 4 1 2) (offState 0x1000 0x1200)) = true := by
    obtain ⟨c, h1, h2, h3, h4⟩ := trowel_issues (j := .mma 14 1 4 1 2) (s := offState 0x1000 0x1200)
      (P := fun c => c.uid = 0 ∧ c.w.pc = 0 ∧ mmaGo c (offState 0x1000 0x1200) = true) rfl (by decide +kernel)
    obtain ⟨u, fl, h⟩ := mma_next h1 h4
    exact goesOnTo4_of h h2 h3 rfl rfl rfl
  simp only [tileOps, List.mem_cons, List.not_mem_nil, or_false] at hj
  rcases hj with rfl | rfl | rfl | rfl | rfl | rfl | rfl | rfl | rfl | rfl | rfl | rfl
  · decide +kernel
  · decide +kernel
  · decide +kernel
  · decide +kernel
  · decide +kernel
  · exact hm
  · decide +kernel
  · exact hb
  · decide +kernel
  · decide +kernel
  · decide +kernel
  · decide +kernel

/-- Each tile instruction in the recording, before its record is written. -/
theorem tileOps_record : ∀ j ∈ tileOps, ∃ c, TrowelIssues j (recState 0x1000 0x1200) c ∧ (c.uid = 0 ∧ c.w.pc = 0 ∧ memWf (recState 0x1000 0x1200) ∧
    isTileOp j = true ∧ c.w.tape.mode = .recording ∧ recUnits c j = 1 ∧ tapeReady (recState 0x1000 0x1200) c .w 0x1000 256 ∧
    (tapePas (recState 0x1000 0x1200) c 0x1000 256).Nodup) :=
  all_trowelP rfl (by decide +kernel)

/-- An MMA whose two operands are saved. -/
theorem mma_saved : ∃ c, TrowelIssues (.mma 14 1 4 1 2) (recState 0x1000 0x2000 true) c ∧ (c.uid = 0 ∧ c.w.pc = 0 ∧ memWf (recState 0x1000 0x2000 true) ∧
    c.w.tape.mode = .recording ∧ recUnits c (.mma 14 1 4 1 2) = 4 ∧ tapeReady (recState 0x1000 0x2000 true) c .w 0x1000 1024) :=
  trowel_issues rfl (by decide +kernel)

/-- A record of each tile instruction fits exactly; one of saved operands; and none does, where the trailer is zeros, unrecorded, no
segment, and the next segment. -/
theorem witness_TapesAreRecorded_RecordsComeFirst :
    (∀ j ∈ tileOps, ∃ c, TrowelIssues j (recState 0x1000 0x1200) c ∧ (recordable (recState 0x1000 0x1200) j c ∧ recUnits c j = 1 ∧
      tapeReady (recState 0x1000 0x1200) c .w 0x1000 256 ∧ (tapePas (recState 0x1000 0x1200) c 0x1000 256).Nodup)) ∧
    (∃ c, TrowelIssues (.mma 14 1 4 1 2) (recState 0x1000 0x2000 true) c ∧ (recordable (recState 0x1000 0x2000 true) (.mma 14 1 4 1 2) c ∧
      recUnits c (.mma 14 1 4 1 2) = 4 ∧ tapeReady (recState 0x1000 0x2000 true) c .w 0x1000 1024)) ∧
    ∀ x ∈ [([] : List Byte), [1], [2], bytesOfNat 8 0x1400 ++ bytesOfNat 8 0x1600],
      ∃ c, TrowelIssues (.txpose 4) (withBytes 0x1100 x (recState 0x1100 0x1200)) c ∧ (recordable (withBytes 0x1100 x (recState 0x1100 0x1200)) (.txpose 4) c ∧
        tapeReady (withBytes 0x1100 x (recState 0x1100 0x1200)) c .r 0x1100 16 ∧
        numAt (withBytes 0x1100 x (recState 0x1100 0x1200)) (tapePas (withBytes 0x1100 x (recState 0x1100 0x1200)) c 0x1100 16) 0 8 = natOfBytes (x.take 8) ∧
        (x.length = 16 → isSegment c 0x1400 0x1600 ∧ tapeReady (withBytes 0x1100 x (recState 0x1100 0x1200)) c .w 0x1500 256 ∧
          tapeReady (withBytes 0x1100 x (recState 0x1100 0x1200)) c .w 0x1400 256)) := by
  refine ⟨fun j hj => ?_, ?_, fun x hx => ?_⟩
  · obtain ⟨c, h1, h2, h3, h4, h5, h6, h7⟩ := tileOps_record j hj
    refine ⟨c, h1, ⟨h4, h5, h6, goesOn_of h2 h3 ?_⟩, h7⟩
    rw [unrecorded_recState _ _ _ _ h2]
    exact tileOps_goOn j hj
  · obtain ⟨c, h1, h2, h3, h4, h5, h6⟩ := mma_saved
    refine ⟨c, h1, ⟨h4, rfl, h5, goesOn_of h2 h3 ?_⟩, h6⟩
    rw [unrecorded_recState _ _ _ _ h2]
    obtain ⟨d, g1, g2, g3, g4⟩ := trowel_issues (j := .mma 14 1 4 1 2) (s := offState 0x1000 0x2000 true)
      (P := fun c => c.uid = 0 ∧ c.w.pc = 0 ∧ mmaGo c (offState 0x1000 0x2000 true) = true) rfl (by decide +kernel)
    obtain ⟨u, fl, h⟩ := mma_next g1 g4
    exact goesOnTo4_of h g2 g3 rfl rfl rfl
  · fin_cases hx <;> exact trowel_issues rfl (by decide +kernel)

/-- t1 and t2 hold a base and a limit, t3 all ones in the low word, t4 zero; the tape as given. -/
def segState (base limit : DWord) (tape : TapeCtx) : State := tapeState { t := [(1, base), (2, limit), (3, 0xFFFFFFFF)], tape := tape }

/-- The bytes of a record: its word, LEN, FLAGS and tile state, VALID and two descriptors. -/
def recordBytes (j : Instr) (len flags tstate valid d1 d2 : Nat) : List Byte :=
  bytesOfNat 4 ((encode j).getD 0).toNat ++ bytesOfNat 2 len ++ bytesOfNat 1 flags ++ bytesOfNat 1 tstate ++ bytesOfNat 8 valid ++ bytesOfNat 16 d1 ++
    bytesOfNat 16 d2

/-- A binding entry of an offset, a length, the stride 0x100, a format, and a gradient slot. -/
def bindingAt (off len fmt slot : Nat) : BitVec 256 :=
  BitVec.ofNat 256 (off + len * 2 ^ 32 + 0x100 * 2 ^ 64 + fmt * 2 ^ 96 + slot * 2 ^ 104)

/-- A reversal at the record of these bytes at 0x1000, T̄ of slot 4 in slot 5, with bindings and tiles. -/
def revState (bs : List Byte) (binds : List (BitVec 256)) (tiles : List Tile := []) (map : BitVec 32 := 0xFFF5FFFF) : State :=
  withBytes 0x1000 bs (tapeState { t := [(1, 0x1000), (2, 0x1200), (3, 0xFFFFFFFF)], tiles := tiles, tape :=
    { mode := .reversing, revptr := 0x1000, last := 0x1000, limit := 0x1200, map := map, binds := binds } })

/-- The record of `tzero` to slot 4, F32, at 0x1000. -/
def zeroRecord : State := revState (recordBytes (.tzero 4 0) 1 0 0 0 0 0) []

/-- The header at REVPTR. -/
abbrev revHdr (s : State) (c : TrowelIssue) : TapeHdr := hdrOf c.w.tape.revptr.toNat (l2Reads s (tapePas s c c.w.tape.revptr.toNat 256))

/-- What each step of a reversal at a record of `i` asks. -/
abbrev revReady (s : State) (c : TrowelIssue) (i : Instr) : Prop :=
  c.w.tape.mode = .reversing ∧ c.w.tape.revptr ≠ 0 ∧ tapeReady s c .r c.w.tape.revptr.toNat 256 ∧
    ((revHdr s c).wellFormed.map fun x => x.1) = some i ∧ c.w.tape.expect = none ∧ (revHdr s c).prev = 0 ∧ (revHdr s c).seq = 0 ∧
    storeOk c.w.tiles = true ∧ (∀ n < 8, ∀ n' < 8, (barSlot c.w.tape n).isSome → barSlot c.w.tape n = barSlot c.w.tape n' → n = n') ∧
    ∀ n ∈ 0 :: (List.range 8).filterMap (barSlot c.w.tape), (namedTile c.w.tiles n).any (fun t => decide (t.mode = .f32)) = true

/-- A slot the map gives is of an F32 tile. -/
theorem revReady_bars {s : State} {c : TrowelIssue} {i : Instr} (h : revReady s c i) (n x : Nat) (hx : barSlot c.w.tape n = some x) :
    ∃ t, namedTile c.w.tiles x = some t ∧ t.mode = .f32 := by
  have hm : x ∈ 0 :: (List.range 8).filterMap (barSlot c.w.tape) := by
    by_cases hn : n < 8
    · exact List.mem_cons_of_mem _ (List.mem_filterMap.2 ⟨n, List.mem_range.2 hn, hx⟩)
    · have h0 : c.w.tape.map.toNat / 16 ^ n % 16 = 0 := by
        have h1 : c.w.tape.map.toNat < 16 ^ n :=
          lt_of_lt_of_le c.w.tape.map.isLt (by calc 2 ^ 32 = 16 ^ 8 := by norm_num
            _ ≤ 16 ^ n := Nat.pow_le_pow_right (by norm_num) (by omega))
        rw [Nat.div_eq_of_lt h1]
      simp only [barSlot, h0] at hx
      simp at hx
      exact hx ▸ List.mem_cons_self
  have h1 := h.2.2.2.2.2.2.2.2.2 x hm
  cases hx : namedTile c.w.tiles x with
  | none => rw [hx] at h1; simp at h1
  | some t => rw [hx] at h1; exact ⟨t, rfl, by simpa using h1⟩

/-- A record of each tile instruction without a gradient. -/
theorem witness_TapesAreRecorded_adjoints : ∀ x ∈ [(Instr.tscl 4 1, 0), (.txpose 4, 0), (.tcvt 4 0, 1), (.tred 4 1, 0), (.tld 1 4 1, 0), (.tst 1 1 4 0 0 0, 0),
      (.tcpy 2 1 0 1, 0), (.tldm 2 1 0 1, 0), (.mma 4 1 4 1 2, 2), (.mma 14 1 4 1 2, 0), (.tbias 4 1 0, 0), (.tact 4 0, 0)],
    ∃ c, TrowelIssues (.trev 3 4 0 0 0) (revState (recordBytes x.1 1 0 x.2 0x0000000400080002 (descAt 1 0).toNat (descAt 1 0x400).toNat) []) c ∧
      revReady (revState (recordBytes x.1 1 0 x.2 0x0000000400080002 (descAt 1 0).toNat (descAt 1 0x400).toNat) []) c x.1 := by
  intro x hx
  fin_cases hx <;> exact trowel_issues rfl (by decide +kernel)

/-- The gradients of a record apart, decidably. -/
def apartB (ts : List Tile) (bar : Option Nat) (gs : List Grad) : Bool :=
  gs.all (fun g => decide ((tileAt ts g.slot).slot = g.slot) && decide (g.slot < 8) && bar.all fun x => !(tileAt ts g.slot).covers.contains x) &&
    decide ((gs.map fun g => g.slot).Nodup)

theorem gradsApart_of {ts : List Tile} {bar : Option Nat} {gs : List Grad} (h : apartB ts bar gs = true) : gradsApart ts bar gs := by
  simp only [apartB, Bool.and_eq_true, List.all_eq_true, decide_eq_true_eq] at h
  refine ⟨fun g hg => ⟨(h.1 g hg).1.1, (h.1 g hg).1.2, fun x hx hc => ?_⟩, h.2⟩
  have h1 := (h.1 g hg).2
  subst hx
  simp [hc] at h1

/-- Gradients in slots 6 and 7 of the two descriptors. -/
def twoGrads : List (BitVec 256) := [bindingAt 0 0x200 1 6, bindingAt 0x400 0x200 1 7]

/-- The matches of a record's operands. -/
abbrev matchOf (c : TrowelIssue) (d : BitVec 128) (n e : Nat) : Match := matchOperand (c.w.tape.binds.map bindingOf) d n e

/-- Records whose operands have gradients: lines of a tile, an operand copied, the two operands of an MMA, and the vector of TBIAS. -/
theorem witness_TapesAreRecorded_gradients :
    (∀ i ∈ [Instr.tld 1 4 1, .tst 1 1 4 0 0 0, .tcpy 2 1 0 1, .tldm 2 1 0 1, .mma 14 1 4 1 2],
      ∃ c, TrowelIssues (.trev 3 4 0 0 0) (revState (recordBytes i 1 0 0 0x0000000400080002 (descAt 1 0).toNat (descAt 1 0x400).toNat) twoGrads) c ∧
        (revReady (revState (recordBytes i 1 0 0 0x0000000400080002 (descAt 1 0).toNat (descAt 1 0x400).toNat) twoGrads) c i ∧
          (matchOf c (descAt 1 0) 2 8).grads = [⟨6, 0, 0⟩] ∧ (matchOf c (descAt 1 0x400) 2 8).grads = [⟨7, 0, 0⟩] ∧
          apartB c.w.tiles (barSlot c.w.tape 4) ((matchOf c (descAt 1 0) 2 8).grads ++ (matchOf c (descAt 1 0x400) 2 8).grads) = true)) ∧
    (∃ c, TrowelIssues (.trev 3 4 0 0 0) (revState (recordBytes (.tbias 4 1 0) 1 0 0 0 (descAt 1 0).toNat 0) [bindingAt 0 0x1000 1 6]) c ∧
      (revReady (revState (recordBytes (.tbias 4 1 0) 1 0 0 0 (descAt 1 0).toNat 0) [bindingAt 0 0x1000 1 6]) c (.tbias 4 1 0) ∧
        apartB c.w.tiles (barSlot c.w.tape 4) (matchOf c (descAt 1 0) 1 256).grads = true)) ∧
    (∀ i ∈ [Instr.tld 1 4 1, .tst 1 1 4 0 0 0, .tcpy 2 1 0 1, .tldm 2 1 0 1, .mma 14 1 4 1 2],
      ∃ c, TrowelIssues (.trev 3 4 0 0 0) (revState (recordBytes i 1 0 0 0x0000000400080002 (descAt 1 0).toNat (descAt 1 0x400).toNat) [bindingAt 0 4 1 6]) c ∧
        (revReady (revState (recordBytes i 1 0 0 0x0000000400080002 (descAt 1 0).toNat (descAt 1 0x400).toNat) [bindingAt 0 4 1 6]) c i ∧
          (matchOf c (descAt 1 0) 2 8).isFault = true)) ∧
    ∀ ts bar gs, apartB ts bar gs = true → gradsApart ts bar gs := by
  refine ⟨fun i hi => ?_, trowel_issues rfl (by decide +kernel), fun i hi => ?_, fun _ _ _ h => gradsApart_of h⟩ <;>
    fin_cases hi <;> exact trowel_issues rfl (by decide +kernel)

/-- The sides of an MMA record that are read. -/
def sidesOk (c : TrowelIssue) (h : TapeHdr) (f : Nat) (s : State) : Bool := match c.recordSides h true true false f ⟨2, 8, 4⟩ s with
  | .ok _ => true
  | .error _ => false

/-- The operands of an MMA record are read; its gradient is an EXACT tile of an operand that is not narrow; and a TACT whose input was not
saved, without a replay group. -/
theorem witness_TapesAreRecorded_mma :
    (∃ c, TrowelIssues (.trev 3 4 0 0 0) (revState (recordBytes (.mma 14 1 4 1 2) 1 0 0 0x0000000400080002 (descAt 1 0).toNat (descAt 1 0x400).toNat) twoGrads) c ∧
      sidesOk c (revHdr (revState (recordBytes (.mma 14 1 4 1 2) 1 0 0 0x0000000400080002 (descAt 1 0).toNat (descAt 1 0x400).toNat) twoGrads) c) 14
        (revState (recordBytes (.mma 14 1 4 1 2) 1 0 0 0x0000000400080002 (descAt 1 0).toNat (descAt 1 0x400).toNat) twoGrads) = true) ∧
    (∃ c, TrowelIssues (.trev 3 4 0 0 0) (revState (recordBytes (.mma 14 1 4 1 2) 1 0 0 0x0000000400080002 (descAt 1 0).toNat (descAt 1 0x400).toNat)
        [bindingAt 0 0x200 1 4] [aTile 4 .exact] 0xFFF1FFFF) c ∧
      (revReady (revState (recordBytes (.mma 14 1 4 1 2) 1 0 0 0x0000000400080002 (descAt 1 0).toNat (descAt 1 0x400).toNat)
        [bindingAt 0 0x200 1 4] [aTile 4 .exact] 0xFFF1FFFF) c (.mma 14 1 4 1 2) ∧
        (matchOf c (descAt 1 0) 2 4).grads.any (fun g => decide ((tileAt c.w.tiles g.slot).mode = .exact)) = true)) ∧
    ∃ c, TrowelIssues (.trev 3 4 0 0 0) (revState (recordBytes (.tact 4 0) 1 32 0 0 0 0) []) c ∧
      (revReady (revState (recordBytes (.tact 4 0) 1 32 0 0 0 0) []) c (.tact 4 0) ∧
        (revHdr (revState (recordBytes (.tact 4 0) 1 32 0 0 0 0) []) c).flag 5 = true) :=
  ⟨trowel_issues rfl (by decide +kernel), trowel_issues rfl (by decide +kernel), trowel_issues rfl (by decide +kernel)⟩

/-- An operand that no binding, one, a part of one, and one too far right meets. -/
theorem witness_TapesAreRecorded_matches :
    let d := descOf (descAt 1 0)
    let b : Binding := bindingOf (bindingAt 0 0x200 1 6)
    d.delta = 0 ∧ 0 < d.stride ∧ ([b].filter fun x => decide (x.fmt = d.fmt) && decide (x.stride = d.stride)) = [b] ∧
      (∀ x < 2, b.foff ≤ d.off + x * d.stride ∧ d.off + x * d.stride + elemBytes d.fmt 8 ≤ b.foff + b.flen) ∧
      (¬ ∀ x < 3, b.foff ≤ d.off + x * d.stride ∧ d.off + x * d.stride + elemBytes d.fmt 8 ≤ b.foff + b.flen) ∧
      (descOf (descAt 2 0)).fmt ≠ b.fmt ∧ ¬ (0x1000 < b.foff + b.flen) := by decide +kernel

/-- A term and an element to enter it into, finite and not; and operands of each derivative. -/
theorem witness_TapesAreRecorded_values :
    exactValue (.fin false 1 0) = some 1 ∧ exactValue (TileMode.f32.fmt.value ({ a := 0x3F800000 } : Elem).bits) = some 1 ∧ (1 + 1 : ℚ) = ratOf false 1 1 ∧
      (Machine.Num.nan false).isNan = true ∧ (fmtE5M2.convert .rne 0 true (.fin false 1 0)).1 = 0x3C ∧
      ((enterOne (.fin false 1 0) .exact { a := 3 }).2 &&& 0x20 = 0) ∧ (enterSum false 0 [(.fin false 1 0, .fin false 1 0)] .exact { a := 3 }).2 &&& 0x20 = 0 ∧
      (enterSum false 0 [(.fin false 1 0, .fin false 1 0)] .f32 { a := 0x3F800000 }).2 = 0 ∧
      fmtF32.value 0x7F800000 = .inf false ∧ fmtF32.value 0xFF800000 = .inf true ∧ (fmtF32.value 0x7FC00000).isNan = true ∧
      fmtF32.value 0x3F800000 = .fin false 0x800000 (-23) ∧ fmtF32.value 0xBF800000 = .fin true 0x800000 (-23) := by
  have h2 : TileMode.f32.fmt.value ({ a := 0x3F800000 } : Elem).bits = .fin false 0x800000 (-23) := by decide +kernel
  refine ⟨by norm_num [exactValue], ?_, by norm_num [ratOf], rfl, by decide +kernel, by decide +kernel, by decide +kernel, by decide +kernel, by decide +kernel,
    by decide +kernel, by decide +kernel, by decide +kernel, by decide +kernel⟩
  rw [h2]
  norm_num [exactValue]

theorem witness_TapesAreRecorded_TapeControlResults :
    (∃ c, TrowelIssues (.trecOn 1 2 0 0) (segState 0x1000 0x1200 { mode := .recording }) c ∧ c.w.tape.mode = .recording) ∧
    (∃ c, TrowelIssues (.trecOn 1 2 1 1) (segState 0x1E00 0x2000 {}) c ∧ (c.w.tape.mode ≠ .recording ∧ isSegment c (c.src 1).toNat (c.src 2).toNat ∧
      tapeReady (segState 0x1E00 0x2000 {}) c .w ((c.src 2).toNat - 256) 256)) ∧
    (∃ c, TrowelIssues (.trecOn 1 2 0 0) (segState 0x1080 0x1200 {}) c ∧ (c.w.tape.mode ≠ .recording ∧ 0 < c.grid.tapeLen ∧ (c.src 1).toNat % 256 ≠ 0)) ∧
    (∃ c, TrowelIssues (.trecOn 1 2 0 0) (segState 0x1100 0x1200 {}) c ∧ (c.w.tape.mode ≠ .recording ∧ 0 < c.grid.tapeLen ∧ (c.src 1).toNat % 256 = 0 ∧
      (c.src 2).toNat % 256 = 0 ∧ ¬ isSegment c (c.src 1).toNat (c.src 2).toNat)) ∧
    (∃ c, TrowelIssues (.trecExt 1 2) (segState 0x1080 0x1200 { mode := .recording }) c ∧ (c.w.tape.mode = .recording ∧ 0 < c.grid.tapeLen ∧ (c.src 1).toNat % 256 ≠ 0)) ∧
    (∀ l ∈ [(0 : VAddr), 0x1000], ∃ c, TrowelIssues .trecOff (segState 0 0 { mode := .recording, last := l }) c ∧ (c.w.tape.mode = .recording ∧ c.w.tape.last = l)) ∧
    (∃ c, TrowelIssues .trecOff (segState 0 0 {}) c ∧ c.w.tape.mode ≠ .recording) ∧
    (∃ c, TrowelIssues (.trecExt 1 2) (segState 0x1400 0x1600 {}) c ∧ c.w.tape.mode ≠ .recording) ∧
    (∃ c, TrowelIssues (.trecExt 1 2) (segState 0x1400 0x1600 { mode := .recording, limit := 0x1200 }) c ∧ (c.w.tape.mode = .recording ∧ isSegment c (c.src 1).toNat (c.src 2).toNat ∧
      tapeReady (segState 0x1400 0x1600 { mode := .recording, limit := 0x1200 }) c .w (c.w.tape.limit.toNat - 256) 16)) ∧
    (∃ c, TrowelIssues (.trev 3 4 0 0 0) (segState 0 0 { mode := .held, broken := true }) c ∧ (c.w.tape.mode ≠ .reversing ∧ c.w.tape.broken = true)) ∧
    (∃ c, TrowelIssues (.trev 3 4 0 0 0) (segState 0 0 { mode := .off }) c ∧ (c.w.tape.mode ≠ .reversing ∧ c.w.tape.broken = false ∧ c.w.tape.mode ≠ .held)) ∧
    (∃ c, TrowelIssues (.trev 3 4 0 0 0) (segState 0 0 { mode := .held, last := 0x1000 }) c ∧ (c.w.tape.mode = .held ∧ c.w.tape.broken = false ∧ c.src 3 = 0xFFFFFFFF ∧ c.src 4 = 0)) ∧
    (∀ k ∈ [(0 : BitVec 1), 1], ∃ c, TrowelIssues (.trev 3 4 k 0 0) (segState 0 0 { mode := .reversing }) c ∧ (c.w.tape.mode = .reversing ∧ c.w.tape.revptr = 0)) ∧
    ∃ c, TrowelIssues (.trev 3 4 0 0 0) zeroRecord c ∧ revReady zeroRecord c (.tzero 4 0) :=
  ⟨trowel_issues rfl (by decide +kernel), trowel_issues rfl (by decide +kernel), trowel_issues rfl (by decide +kernel), trowel_issues rfl (by decide +kernel),
    trowel_issues rfl (by decide +kernel), fun l hl => by fin_cases hl <;> exact trowel_issues rfl (by decide +kernel), trowel_issues rfl (by decide +kernel),
    trowel_issues rfl (by decide +kernel), trowel_issues rfl (by decide +kernel), trowel_issues rfl (by decide +kernel), trowel_issues rfl (by decide +kernel),
    trowel_issues rfl (by decide +kernel), fun k hk => by fin_cases hk <;> exact trowel_issues rfl (by decide +kernel), trowel_issues rfl (by decide +kernel)⟩

/-- A tape access inside one lease and one page of 2 MiB passes its checks. -/
theorem tapeReady_large {s : State} {c : TrowelIssue} {va n : Nat} {e : TlbEntry} (hl : c.grid.leases = [⟨0, 2 ^ 21, true, true, true⟩])
    (ht : (s.core c.team.core).tlb = [e]) (ha : e.asid = c.grid.asid) (hv : e.vpn = 0) (hs : e.shift = 21) (hn : va + n ≤ 2 ^ 21) (h1 : 0 < n) :
    tapeReady s c .r va n := by
  refine ⟨?_, ?_⟩
  · simp only [leaseOk, Bool.and_eq_true, decide_eq_true_eq, List.all_eq_true, accessBytes, List.mem_map, List.mem_range, hl]
    refine ⟨by omega, ?_⟩
    rintro b ⟨k, hk, rfl⟩
    refine ⟨?_, by omega⟩
    simp only [leaseCovers, List.any_cons, List.any_nil, Bool.or_false, Bool.and_eq_true, decide_eq_true_eq]
    simp [Lease.grants]
    omega
  · simp only [tapeMapped, List.all_eq_true, accessBytes, List.mem_map, List.mem_range, ht]
    rintro b ⟨k, hk, rfl⟩
    have hh : e.hits c.grid.asid (va + k) = true := by
      simp only [TlbEntry.hits, ha, hv, hs, Bool.and_eq_true, decide_eq_true_eq, true_and]
      exact (Nat.div_eq_of_lt (by omega)).symm
    simp [hh]

/-- A TACT whose input was saved, in a tape on a page of 2 MiB. -/
theorem witness_TapesAreRecorded_saved_input :
    let bs := recordBytes (.tact 4 0) 1025 16 0 0 0 0
    let s0 := revState bs []
    let s : State := { s0 with
      cores := [(0, { tlb := [{ asid := 0, shift := 21, vpn := 0, frame := 0, r := true, w := true, x := true, d := true, leaf := 0x10000 }] })]
      grids := s0.grids.map fun g => { g with leases := [⟨0, 2 ^ 21, true, true, true⟩] } }
    ∃ c, TrowelIssues (.trev 3 4 0 0 0) s c ∧ revReady s c (.tact 4 0) ∧ (revHdr s c).flag 4 = true ∧ (revHdr s c).flag 5 = false ∧
      tapeReady s c .r ((revHdr s c).addr + 256) (65536 * 4) := by
  intro bs s0 s
  obtain ⟨c, h1, h2, h3, h4, h5, h6, h7, h8⟩ := trowel_issues (j := .trev 3 4 0 0 0) (s := s) (P := fun c => revReady s c (.tact 4 0) ∧
    (revHdr s c).flag 4 = true ∧ (revHdr s c).flag 5 = false ∧ c.grid.leases = [⟨0, 2 ^ 21, true, true, true⟩] ∧ c.team.core = 0 ∧ c.grid.asid = 0 ∧
    (revHdr s c).addr = 0x1000) rfl (by decide +kernel)
  exact ⟨c, h1, h2, h3, h4, tapeReady_large h5 (by rw [h6]; rfl) (by rw [h7]) rfl rfl (by rw [h8]; norm_num) (by norm_num)⟩

/-! ### Events -/

/-- The state after reset, powered, with an event's argument. -/
def eventState (a : EventArg) : State := { State.reset with arg := a, level := 3 }

theorem natOfBytes_bytes (n v : Nat) : natOfBytes (bytesOfNat n v) = v % 256 ^ n := by
  induction n generalizing v with
  | zero => simp [bytesOfNat, natOfBytes, Nat.mod_one]
  | succ n ih =>
    simp only [bytesOfNat, natOfBytes, ih, BitVec.toNat_ofNat, Nat.pow_succ']
    exact (Nat.mod_mul (x := v) (a := 256) (b := 256 ^ n)).symm

theorem bytesFld_mid (a m z : List Byte) : bytesFld (a ++ (m ++ z)) a.length m.length = natOfBytes m := by simp [bytesFld]

theorem length_bytesOfNat (n v : Nat) : (bytesOfNat n v).length = n := by
  induction n generalizing v with
  | zero => rfl
  | succ n ih => simp [bytesOfNat, ih]

/-- A frame with its CRC, of a type, to an address, with a payload and a number. -/
def frameOf (ty : Byte) (addr : BitVec 64) (payload : List Byte) (seq : BitVec 16 := 0) : LathIn :=
  let h : LathHdr := { ty := ty, seq := seq, len := BitVec.ofNat 16 payload.length, addr := addr }
  { hdr := h, payload := payload, crc := crc32c (h.bytes ++ payload) }

/-- Such a frame is sound. -/
theorem frameOf_sound (ty : Byte) (addr : BitVec 64) (payload : List Byte) (seq : BitVec 16) (hn : payload.length ≤ 4096) (ht : lathTypes.contains ty = true) :
    (frameOf ty addr payload seq).crcOk = true ∧ (frameOf ty addr payload seq).formOk = true := by
  have h1 : (BitVec.ofNat 16 payload.length).toNat = payload.length := by
    rw [BitVec.toNat_ofNat]
    exact Nat.mod_eq_of_lt (by omega)
  simp only [LathIn.crcOk, LathIn.formOk, frameOf, h1, ht, Bool.and_eq_true, decide_eq_true_eq, Bool.true_and]
  simp [hn]

/-- A register write of 32 bytes that arrives in order. -/
def aFrame (addr : BitVec 64) (val : BitVec 256) : LathIn := frameOf 0x02 addr (bytesOfNat 32 val.toNat)

theorem aFrame_val (a : BitVec 64) (v : BitVec 256) : (aFrame a v).val = v := by
  simp only [LathIn.val, aFrame, frameOf, natOfBytes_bytes]
  apply BitVec.eq_of_toNat_eq
  rw [BitVec.toNat_ofNat, show (256 : Nat) ^ 32 = 2 ^ 256 by norm_num, Nat.mod_mod, Nat.mod_eq_of_lt v.isLt]

theorem aFrame_ok (a : BitVec 64) (v : BitVec 256) (s : State) (hp : s.firmware.powered = true) (hs : s.lath.rxSeq = 0) : frameOk (aFrame a v) s :=
  ⟨hp, (frameOf_sound 0x02 a _ 0 (by simp [length_bytesOfNat]) rfl).1, by rw [hs]; rfl, (frameOf_sound 0x02 a _ 0 (by simp [length_bytesOfNat]) rfl).2⟩

/-- The header of a firmware image of no body signed by key 0: the magic number, SVN 0, and the digest of the body. -/
def imageHead : List Byte := bytesOfNat 4 0x4F444E4E ++ List.replicate 12 0
/-- The image, with a signature field of zeros. -/
def anImage : List Byte := imageHead ++ (bytesOfNat 64 (Config.shake512 []).toNat ++ List.replicate 176 0)
/-- A flash module that holds it in both slots, and the hash of key 0. -/
def aFlash : Module := { primary := anImage, recovery := anImage, keys := [0], keyHash := [Config.shake512 (bytesOfNat 57 0)] }

/-- The image is accepted exactly where the signature scheme, which the model leaves open (log 8), accepts its signature. -/
theorem anImage_accepted : imageAccepted aFlash anImage = Config.ed448Verify (bytesOfNat 57 0) (anImage.take 128) ((anImage.drop 128).take 114) := by
  have hl : anImage.length = 256 := by simp [anImage, imageHead, length_bytesOfNat]
  have h0 : ∀ o n, o + n ≤ 16 → bytesFld anImage o n = bytesFld imageHead o n := by
    intro o n h
    have : imageHead.length = 16 := by simp [imageHead, length_bytesOfNat]
    simp only [bytesFld, anImage]
    rw [List.drop_append_of_le_length (by omega), List.take_append_of_le_length (by simp; omega)]
  have hd : bytesFld anImage 0x10 64 = (Config.shake512 []).toNat := by
    have := bytesFld_mid imageHead (bytesOfNat 64 (Config.shake512 []).toNat) (List.replicate 176 0)
    rw [length_bytesOfNat, natOfBytes_bytes] at this
    rw [show (0x10 : Nat) = imageHead.length by simp [imageHead, length_bytesOfNat]]
    rw [anImage, this]
    exact Nat.mod_eq_of_lt (Config.shake512 []).isLt
  have hn : bytesFld anImage 0x08 4 = 0 := (h0 8 4 (by omega)).trans (by decide)
  have hk : bytesFld anImage 0x0C 1 = 0 := (h0 12 1 (by omega)).trans (by decide)
  have hm : bytesFld anImage 0 4 = 0x4F444E4E := (h0 0 4 (by omega)).trans (by decide)
  unfold imageAccepted
  simp only [hn, hk, hm, hd, hl]
  simp [aFlash, nth, show List.drop 256 anImage = [] from List.drop_eq_nil_of_le (by omega)]

/-- What bring-up finds: the strap and the units that fail BIST as given, stacks and links up, and core 1's array failed. -/
def aBring (recov : Bool) (fail : List FaultUnit) : BringUp :=
  { recov := recov, bistFail := fail, hbmUp := 0xFFF, cxlUp := 1, scrimUp := 1, arrayFail := 2 }

/-- No team, grid, instance or cached line. -/
abbrev idle (s : State) : Prop := s.teams = [] ∧ s.grids = [] ∧ s.colls = [] ∧ s.cores = []

/-- A package in a stage of bring-up, in the recovery image or the primary one. -/
def stageState (l : BitVec 4) (b : BitVec 64) (recov : Bool) (fail : List FaultUnit) : State :=
  { State.reset with level := l, base := b, firmware := { recoveryRunning := recov, bring := some (aBring recov fail) } }

/-- Nothing is asked of a reset; no image in the slots; an accepted one in each, where its signature verifies; each stage of bring-up,
with no unit failed, a core and a base die; and the frames. -/
theorem witness_PowerAndImageEvents :
    State.reset.firmware.powered = true ∧
    (∃ b, (eventState (.boot (aBring false []))).arg = .boot b ∧ b.recov = false ∧
      imageAccepted (eventState (.boot (aBring false []))).flash (eventState (.boot (aBring false []))).flash.primary = false ∧
      imageAccepted (eventState (.boot (aBring false []))).flash (eventState (.boot (aBring false []))).flash.recovery = false) ∧
    (∀ img ∈ [aFlash.primary, aFlash.recovery], Config.ed448Verify (bytesOfNat 57 0) (anImage.take 128) ((anImage.drop 128).take 114) = true →
      imageAccepted aFlash img = true) ∧
    (∃ b, (eventState (.boot (aBring true []))).arg = .boot b ∧ b.recov = true) ∧
    (State.reset.arg = .nothing ∧ State.reset.firmware.bring = none) ∧
    (∀ fail ∈ [([] : List FaultUnit), [.coreSram 63 0, .column 5 1], [.baseDie 0 1], [.reducer 11]],
      (stageState 0 0 false fail).arg = .nothing ∧ (stageState 0 0 false fail).firmware.bring = some (aBring false fail) ∧ idle (stageState 0 0 false fail)) ∧
    (∀ recov, (stageState 0 1 recov []).level = 0 ∧ (stageState 0 1 recov []).base ≠ 0 ∧ (stageState 0 1 recov []).firmware.recoveryRunning = recov) ∧
    ((stageState 1 1 false []).level = 1 ∧ idle (stageState 1 1 false []) ∧ (stageState 2 1 false []).level = 2) ∧
    frameOk (frameOf 0x40 0 []) (eventState (.recover (frameOf 0x40 0 []) (aBring true []))) ∧
    frameOk (frameOf 0x41 0 [1]) (eventState (.frame (frameOf 0x41 0 [1]))) ∧
    (frameOk (frameOf 0x42 0 (bytesOfNat 32 7)) (eventState (.frame (frameOf 0x42 0 (bytesOfNat 32 7)))) ∧
      linkFree (eventState (.frame (frameOf 0x42 0 (bytesOfNat 32 7)))) ∧ 32 ≤ (frameOf 0x42 0 (bytesOfNat 32 7)).payload.length) := by
  refine ⟨rfl, ⟨aBring false [], rfl, rfl, by decide +kernel, by decide +kernel⟩, ?_, ⟨aBring true [], rfl, rfl⟩, ⟨rfl, rfl⟩, ?_, ?_, by decide +kernel,
    by decide +kernel, by decide +kernel, by decide +kernel⟩
  · intro img hi h
    have : img = anImage := by simpa [aFlash] using hi
    rw [this, anImage_accepted, h]
  · intro fail _
    exact ⟨rfl, rfl, rfl, rfl, rfl, rfl⟩
  · intro recov
    cases recov <;> exact ⟨rfl, by decide, rfl⟩

/-- A frame's state, with all of memory backed. -/
def frameState (f : LathIn) : State := { eventState (.frame f) with hbmUp := 0xFFF }

/-- A frame of a memory type about the last eight bytes of HBM, and one a byte further, which has no backing. -/
def lastFrame (ty : Byte) (k : Nat) : LathIn := frameOf ty (BitVec.ofNat 64 (2 * hbmRange - 8 + k)) (if ty = 0x03 then [8, 0, 0, 0] else List.replicate (if ty = 0x05 then 16 else 8) 1)

/-- The 64 KiB at 0 locked by an exchange. -/
def lockedFrame (ty : Byte) : State :=
  let f := frameOf ty 0x40 (if ty = 0x03 then [8, 0, 0, 0] else List.replicate (if ty = 0x05 then 16 else 8) 1)
  { frameState f with lath := { (frameState f).lath with swap := some ⟨0x8000, 0x8000, 16⟩ } }

/-- A register and its offset, and an offset that is none; a response; each memory frame at the last bytes of HBM that have backing, at the
first of the gap that has none, and in a locked page. -/
theorem witness_LathFrames_LathFrameEvents :
    (∀ f ∈ [frameOf 0x01 0x38 [], aFrame 0x38 5, aFrame 0x110 1, aFrame 0x508000 1, aFrame 0x509FF8 1, aFrame 4 0, frameOf 0x01 4 [], frameOf 0x10 4 [], frameOf 0x22 4 [],
      aFrame 0x10 1], frameOk f (frameState f) ∧ linkFree (frameState f)) ∧
    (lathReg? 0x38 = some .colltmo ∧ lathReg? (0x508000 + 8 * 1023) = some (.route 1023) ∧ lathReg? 4 = none ∧ lathReg? 0x10 = some .pkginfo) ∧
    (∀ ty ∈ [(0x03 : Byte), 0x04, 0x05], frameOk (lastFrame ty 0) (frameState (lastFrame ty 0)) ∧ linkFree (frameState (lastFrame ty 0)) ∧
      (frameState (lastFrame ty 0)).lath.swap = none ∧ (∀ j < 8, backed (frameState (lastFrame ty 0)) ((lastFrame ty 0).hdr.addr.toNat + j) = true) ∧
      memWf (frameState (lastFrame ty 0)) ∧ (lastFrame 0x03 0).count = 8) ∧
    (∀ ty ∈ [(0x03 : Byte), 0x04, 0x05], frameOk (lastFrame ty 1) (frameState (lastFrame ty 1)) ∧ (frameState (lastFrame ty 1)).lath.swap = none ∧
      backed (frameState (lastFrame ty 1)) ((lastFrame ty 1).hdr.addr.toNat + 7) = false) ∧
    (∀ ty ∈ [(0x03 : Byte), 0x04, 0x05], ∃ f, (lockedFrame ty).arg = .frame f ∧ frameOk f (lockedFrame ty) ∧ f.hdr.ty = ty ∧
      rangeLocked (lockedFrame ty) f.hdr.addr.toNat 8 = true) := by
  refine ⟨by decide +kernel, by decide +kernel, by decide +kernel, by decide +kernel, fun ty ht => ⟨_, rfl, ?_⟩⟩
  fin_cases ht <;> decide +kernel

/-- Two unacknowledged frames. -/
def sentState (a : EventArg) : State :=
  { eventState a with lath := { (eventState a).lath with unacked := [⟨0x10, 6, 0, 0, []⟩, ⟨0x10, 7, 0, 0, []⟩] } }

/-- A wrong CRC; a number that is not the next; a TYPE that is none, a reserved byte, and a payload that is too long; an ACK and a NAK of the second
of two unacknowledged frames. -/
theorem witness_LathFrames_LathLinkEvents :
    ({ frameOf 0x01 4 [] with crc := 0 } : LathIn).crcOk = false ∧
    ((frameOf 0x01 4 [] 1).crcOk = true ∧ (frameOf 0x01 4 [] 1).hdr.seq ≠ (eventState (.frame (frameOf 0x01 4 [] 1))).lath.rxSeq) ∧
    ((frameOf 0x06 4 []).crcOk = true ∧ (frameOf 0x06 4 []).hdr.seq = (eventState (.frame (frameOf 0x06 4 []))).lath.rxSeq ∧
      (frameOf 0x06 4 []).formOk = false ∧ linkFree (eventState (.frame (frameOf 0x06 4 [])))) ∧
    (∀ ty ∈ [(0x30 : Byte), 0x31], (frameOf ty 0 [] 7).crcOk = true ∧ (frameOf ty 0 [] 7).formOk = true ∧
      (let s := sentState (.frame (frameOf ty 0 [] 7))
       s.lath.unacked = [⟨0x10, 6, 0, 0, []⟩] ++ ⟨0x10, 7, 0, 0, []⟩ :: [] ∧ (∀ y ∈ [(⟨0x10, 6, 0, 0, []⟩ : LathFrame)], y.seq ≠ 7) ∧ s.lath.backlog = [])) := by
  decide +kernel

/-- A frame that goes out with a payload of 4,096 bytes, to the last address of its 56 bits. -/
theorem witness_LathFrames_layout :
    let f : LathFrame := ⟨0x10, 7, 0x00FFFFFFFFFFFFFF, 3, List.replicate 4096 0⟩
    f.payload.length ≤ 4096 ∧ f.addr.toNat < 2 ^ 56 := by
  refine ⟨by simp, by decide⟩

/-- A state that receives a register write. -/
def writeState (f : LathIn) (t : State → State := id) : State := t { eventState (.frame f) with arg := .frame f }

/-- A column clock change under way. -/
def busyClock (s : State) : State := { s with lath := { s.lath with colBusy := true } }
/-- A state at level `l`. -/
def atLevel (l : BitVec 4) (s : State) : State := { s with level := l }

theorem writes_of (a : BitVec 64) (v : BitVec 256) (off : Nat) (h : a.toNat = off) : writesReg (aFrame a v) (writeState (aFrame a v)) off :=
  ⟨rfl, aFrame_ok a v _ rfl rfl, rfl, h⟩

/-- COLCLK of ratio 3, of ratio 2, and while BUSY; PWRLIM of 1000, 3400 and 3401 W; intervals at the limit, above it and below it, at each level. -/
theorem witness_ClockAndGateRegisters_ClockAndPowerRegisters :
    (writesReg (aFrame 0x20 3) (writeState (aFrame 0x20 3)) 0x20 ∧ (aFrame 0x20 3).val.extractLsb' 0 2 = 3) ∧
    (writesReg (aFrame 0x20 2) (writeState (aFrame 0x20 2)) 0x20 ∧ (writeState (aFrame 0x20 2)).lath.colBusy = false ∧ (aFrame 0x20 2).val.extractLsb' 0 2 ≠ 3) ∧
    (writesReg (aFrame 0x20 2) (writeState (aFrame 0x20 2) busyClock) 0x20 ∧ (writeState (aFrame 0x20 2) busyClock).lath.colBusy = true ∧
      ∀ k ∈ (writeState (aFrame 0x20 2) busyClock).cores, k.2.frozen = none) ∧
    (∀ w ∈ [(1000 : BitVec 256), 3400, 3401], writesReg (aFrame 0x40 w) (writeState (aFrame 0x40 w)) 0x40) ∧
    (∀ mw ∈ [3400000, 3400001, 3229999], ∀ l ∈ [(0 : BitVec 4), 1, 2, 3], (atLevel l (eventState (.one mw))).arg = .one mw ∧ (atLevel l (eventState (.one mw))).level = l) :=
  ⟨by decide +kernel, by decide +kernel, by decide +kernel, fun w _ => writes_of 0x40 w 0x40 rfl, fun _ _ _ _ => ⟨rfl, rfl⟩⟩

/-- Port 47 and CXL link 7 in a state. -/
def linked (st : BitVec 3) (s : State) : State := { s with scrim := [(47, { state := st })], cxl := [(7, { state := st })] }
/-- Core 63 as given. -/
def core63 (k : CoreSt) : State := { eventState (.one 63) with cores := [(63, k)] }

/-- A write of a register of an array. -/
abbrev writesNth (base step n : Nat) (v : BitVec 256) : Prop :=
  writesReg (aFrame (BitVec.ofNat 64 (base + step * n)) v) (writeState (aFrame (BitVec.ofNat 64 (base + step * n)) v)) (base + step * n)

/-- The first and the last port, link and core; a port up; and core 63 about to be gated, and about to come back. -/
theorem witness_ClockAndGateRegisters_LinkAndGateRegisters :
    (writesReg (aFrame 0x30 5) (writeState (aFrame 0x30 5)) 0x30 ∧ ∀ k < 48, ((writeState (aFrame 0x30 5)).scrimPort k).state = 0) ∧
    (writesReg (aFrame 0x30 5) (writeState (aFrame 0x30 5) (linked 2)) 0x30 ∧ (aFrame 0x30 5).val.extractLsb' 0 10 ≠ (writeState (aFrame 0x30 5) (linked 2)).lath.chipId ∧
      ((writeState (aFrame 0x30 5) (linked 2)).scrimPort 47).state ≠ 0) ∧
    (∀ n < 48, ∀ v : BitVec 256, writesNth 0x700000 8 n v) ∧ (∀ n < 8, ∀ v : BitVec 256, writesNth 0x700200 8 n v) ∧
    (∀ st ∈ [(1 : BitVec 3), 2], ((linked st (eventState (.link false 47 true))).scrimPort 47).state = st ∧ ((linked st (eventState (.link true 7 true))).cxlLink 7).state = st) ∧
    (∀ n < 64, ∀ v : BitVec 256, writesNth 0x400000 8 n v) ∧
    (((core63 { vgReq := true }).core 63).vgReq = true ∧ ((core63 { vgReq := true }).core 63).gated = false ∧ ((core63 { vgReq := true }).core 63).fifo = [] ∧
      ((core63 { vgReq := true }).core (partner 63)).fifo = [] ∧ memWf (core63 { vgReq := true }) ∧ l1Wf ((core63 { vgReq := true }).core 63)) ∧
    ((core63 { gated := true, ungating := true }).core 63).ungating = true ∧
    (∀ n < 48, ({ eventState (.link false n true) with fencedPorts := BitVec.allOnes 48 } : State).fencedPorts.getLsbD n = true) ∧
    (∀ n < 48, (eventState (.link false n true)).fencedPorts.getLsbD n = false) ∧ (∀ n < 8, (eventState (.link false n true)).fencedLinks.getLsbD n = false) :=
  ⟨by decide +kernel, by decide +kernel, fun n hn v => writes_of _ v _ (by simp; omega), fun n hn v => writes_of _ v _ (by simp; omega), by decide +kernel,
    fun n hn v => writes_of _ v _ (by simp; omega), by decide +kernel, by decide +kernel, by decide +kernel, by decide +kernel, by decide +kernel⟩

/-- A window entry with EN and a length of 64 KiB. -/
def entryOn : BitVec 256 := BitVec.ofNat 256 (1 + 65536 * 2 ^ 128)
/-- Entry 511 of both window tables enabled. -/
def windowsOn (s : State) : State := { s with txw := [(511, entryOn)], rxw := [(511, entryOn)] }

/-- A transmit entry of 64 KiB that is legal, one of length 0, an enabled entry with EN alone cleared and one changed otherwise; the same for a receive entry. -/
theorem witness_WindowEntriesAndReflections_WindowEntryWrites :
    (∀ i < 512, ∀ v : BitVec 256, writesNth 0x500000 32 i v ∧ winEn ((writeState (aFrame (BitVec.ofNat 64 (0x500000 + 32 * i)) v)).txEntry i) = false) ∧
    (writesReg (aFrame 0x503FE0 (entryOn - 1)) (writeState (aFrame 0x503FE0 (entryOn - 1)) windowsOn) (0x500000 + 32 * 511) ∧
      winEn ((writeState (aFrame 0x503FE0 (entryOn - 1)) windowsOn).txEntry 511) = true ∧ winEn (entryOn - 1) = false) ∧
    (writesReg (aFrame 0x503FE0 0) (writeState (aFrame 0x503FE0 0) windowsOn) (0x500000 + 32 * 511) ∧ winEn ((writeState (aFrame 0x503FE0 0) windowsOn).txEntry 511) = true) ∧
    (∀ i < 512, ∀ v : BitVec 256, writesNth 0x504000 32 i v ∧ winEn ((writeState (aFrame (BitVec.ofNat 64 (0x504000 + 32 * i)) v)).rxEntry i) = false) ∧
    (writesReg (aFrame 0x507FE0 (entryOn - 1)) (writeState (aFrame 0x507FE0 (entryOn - 1)) windowsOn) (0x504000 + 32 * 511) ∧
      winEn ((writeState (aFrame 0x507FE0 (entryOn - 1)) windowsOn).rxEntry 511) = true ∧ winEn (entryOn - 1) = false ∧
      ((writeState (aFrame 0x507FE0 (entryOn - 1)) windowsOn).rxEntry 511 ^^^ (entryOn - 1)) &&& rxFields = 1) :=
  ⟨fun i hi v => ⟨writes_of _ v _ (by simp; omega), (rfl : winEn 0 = false)⟩, by decide +kernel, by decide +kernel, fun i hi v => ⟨writes_of _ v _ (by simp; omega), (rfl : winEn 0 = false)⟩, by decide +kernel⟩

/-- XLATINV idle or busy. -/
def invalidating (b : Bool) (s : State) : State := { s with lath := { s.lath with xiBusy := b, xiScope := 3 } }

theorem witness_TranslationUpkeep_InvalidationEvents :
    (∀ sc ∈ [(1 : BitVec 256), 2, 3], writesReg (aFrame 0x120 sc) (writeState (aFrame 0x120 sc)) 0x120 ∧ (writeState (aFrame 0x120 sc)).lath.xiBusy = false) ∧
    ((1 : BitVec 256).extractLsb' 0 2 = (1 : BitVec 2) ∧ (2 : BitVec 256).extractLsb' 0 2 = (2 : BitVec 2) ∧ (3 : BitVec 256).extractLsb' 0 2 = (3 : BitVec 2)) ∧
    (writesReg (aFrame 0x120 1) (writeState (aFrame 0x120 1) (invalidating true)) 0x120 ∧ (writeState (aFrame 0x120 1) (invalidating true)).lath.xiBusy = true) ∧
    ((invalidating true State.reset).lath.xiBusy = true ∧ memWf (invalidating true State.reset)) :=
  ⟨fun sc _ => ⟨writes_of 0x120 sc 0x120 rfl, rfl⟩, by decide +kernel, by decide +kernel, by decide +kernel⟩

/-- Eight bytes of memory at an address. -/
def withWord (a v : Nat) (s : State) : State := withBytes a (bytesOfNat 8 v) s

/-- Tables in use of every level at 0x400000, 0x810000, 0x820000, 0x100000 and 0x200000; SWAPA and SWAPB name the entries `ea` and `eb`, which hold `a` and `b`;
the RTT lies at 2 GiB, and every frame has backing. -/
def swapState (ea a eb b : Nat) (s : State) : State :=
  withWord ea a (withWord eb b (withWord 0x400000 0x810001 (withWord 0x810000 0x820001 (withWord 0x820000 0x100001 (withWord 0x820010 0x200001
    { s with queues := [(0, { en := true, root := 1 })], hbmUp := 0xFFF,
             lath := { s.lath with swapA := BitVec.ofNat _ (ea / 16), swapB := BitVec.ofNat _ (eb / 16), rttBase := 32 } })))))

/-- A write of GO. -/
def goState (ea a eb b : Nat) : State := writeState (aFrame 0x150 8) (swapState ea a eb b)

/-- Two leaves of tier 0 and of tier 1 (bit 7). -/
abbrev leafA : Nat := 0x3
/-- The other page, at 1 GiB. -/
abbrev leafB : Nat := 0x40000083

/-- The exchange of the two pages under way. -/
def exchanging : State := swapState 0x100000 leafA 0x200000 leafB { State.reset with lath := { ({} : LathRegs) with swap := some ⟨0x100000, 0x200000, 16⟩ } }

/-- No leaf; leaves of two levels, and two of 1 GiB; leaves of one tier, of two, and locked or pinned ones; a walk that reaches the entry. An exchange of two pages of 64 KiB. -/
theorem witness_TranslationUpkeep_SwapEvents :
    (∀ s ∈ [goState 0x100000 0 0x200000 leafB, goState 0x100000 leafA 0x820020 leafB, goState 0x810010 leafA 0x810020 leafB, goState 0x100000 leafA 0x200000 0x40000003,
      goState 0x100000 leafA 0x200000 leafB, goState 0x100000 leafA 0x200000 (leafB + 0x100), goState 0x100000 leafA 0x200000 (leafB + 2 ^ 52)],
      s.arg = .frame (aFrame 0x150 8) ∧ s.lath.swap = none ∧ s.firmware.powered = true ∧ s.lath.rxSeq = 0 ∧ memWf s) ∧
    writesReg (aFrame 0x150 8) (goState 0x100000 leafA 0x200000 leafB) 0x150 ∧ (aFrame 0x150 8).val.getLsbD 3 = true ∧
    (validLeaf (goState 0x100000 0 0x200000 leafB) 0x100000 && validLeaf (goState 0x100000 0 0x200000 leafB) 0x200000) = false ∧
    (let s := goState 0x100000 leafA 0x820020 leafB
     validLeaf s 0x100000 = true ∧ validLeaf s 0x820020 = true ∧ leafLevel s 0x100000 ≠ leafLevel s 0x820020) ∧
    (let s := goState 0x810010 leafA 0x810020 leafB
     validLeaf s 0x810010 = true ∧ validLeaf s 0x810020 = true ∧ leafLevel s 0x810010 = 2) ∧
    (∀ b ∈ [0x40000003, leafB, leafB + 0x100, leafB + 2 ^ 52],
      let s := goState 0x100000 leafA 0x200000 b
      validLeaf s 0x100000 = true ∧ validLeaf s 0x200000 = true ∧ leafLevel s 0x100000 = 0 ∧ leafLevel s 0x200000 = 0 ∧
        s.lath.swapA.toNat * 16 = 0x100000 ∧ s.lath.swapB.toNat * 16 = 0x200000) ∧
    (let s := goState 0x100000 leafA 0x200000 leafB
     walk s ((1 : BitVec 32).toNat * 2 ^ 22) 0 = .leaf ⟨0x100000, 16, 3⟩ ∧ s.queues = [(0, { en := true, root := 1 })]) ∧
    (entryTier 0x3 = entryTier 0x40000003 ∧ entryTier 0x3 ≠ entryTier (BitVec.ofNat 64 leafB) ∧ entryLock (BitVec.ofNat 64 (leafB + 0x100)) = true ∧
      entryPin (BitVec.ofNat 64 (leafB + 2 ^ 52)) = 1 ∧ entryLock 3 = false ∧ entryPin 3 = 0) ∧
    (∀ k, (exchanging.core k).l1 = []) ∧
    (let s := exchanging
     let wa := entryPa (l2Read64 s 0x100000)
     let wb := entryPa (l2Read64 s 0x200000)
     s.lath.swap = some ⟨0x100000, 0x200000, 16⟩ ∧ memWf s ∧ wa % 2 ^ 16 = 0 ∧ wb % 2 ^ 16 = 0 ∧ wa ≠ wb ∧ (wa + 2 ^ 16 ≤ 0x100000) ∧ (0x100000 + 8 ≤ wb) ∧
       (wa + 2 ^ 16 ≤ 0x200000) ∧ (0x200000 + 8 ≤ wb) ∧ (wb + 2 ^ 16 ≤ rttAddr s)) :=
  ⟨by decide +kernel, by decide +kernel, by decide +kernel, by decide +kernel, by decide +kernel, by decide +kernel, by decide +kernel, by decide +kernel, by decide +kernel,
    fun _ => rfl, by decide +kernel⟩

/-- The tables of a grid at 0x10000 map virtual page 0 by the word `w` of the leaf table at 0x40000; every frame has backing. -/
def paged (w : Nat) (s : State) : State :=
  withWord 0x10000 0x20001 (withWord 0x20000 0x30001 (withWord 0x30000 0x40001 (withWord 0x40000 w { s with hbmUp := 0xFFF })))

/-- The team of a grid of those tables; its core's TLB is empty. -/
def walkState (w : Nat) (a : EventArg) : State := paged w { stateOf probeGroup id (fun g => { g with root := 0x10000 }) with arg := a }

/-- The RTT in use, at 2 GiB. -/
def rttOn (s : State) : State := { s with lath := { s.lath with rttBase := 32, rttEn := true, rttSet := true } }

/-- A core 0 as given at a clock. -/
def coreAt (k : CoreSt) (clk : Nat) (a : EventArg) : State := { eventState a with cores := [(0, k)], clk := clk }

theorem witness_CoreUpkeepAndRepair_CoreUpkeepEvents :
    (∀ wr ∈ [false, true], walk (walkState 0x5001F (.walk 0 0x123 wr)) 0x10000 0x123 = .leaf ⟨0x40000, 16, 0x5001F⟩ ∧ entryLock 0x5001F = false ∧
      rttProbe (walkState 0x5001F (.walk 0 0x123 wr)) 0x123 0 = none ∧ memWf (walkState 0x5001F (.walk 0 0x123 wr)) ∧
      ((walkState 0x5001F (.walk 0 0x123 wr)).core 0).tlb = [] ∧ (walkState 0x5001F (.walk 0 0x123 wr)).lath.rttEn = false ∧
      ((walkState 0x5001F (.walk 0 0x123 wr)).grid? 0).map (fun g => g.root) = some 0x10000) ∧
    (let s := rttOn (walkState 0x5001F (.walk 0 0x123 true))
     walk s 0x10000 0x123 = .leaf ⟨0x40000, 16, 0x5001F⟩ ∧ rttProbe s 0x123 0 = none ∧ memWf s ∧ s.lath.rttEn = true ∧ 0x40000 + 8 ≤ rttAddr s) ∧
    (let s := walkState 0x5011F (.walk 0 0x123 true)
     walk s 0x10000 0x123 = .leaf ⟨0x40000, 16, 0x5011F⟩ ∧ entryLock 0x5011F = true ∧ (s.core 0).tlb = [] ∧ rttProbe s 0x123 0 = none) ∧
    (walk (walkState 0 (.walk 0 0xFFFF false)) 0x10000 0xFFFF = .invalid ∧ walk (walkState 0x50203 (.walk 0 0xFFFF false)) 0x10000 0xFFFF = .malformed ∧
      (∃ l ∈ probeGrid.leases, l.base ≤ 0xFFFF ∧ 0xFFFF < l.base + l.len) ∧ ((walkState 0 (.walk 0 0xFFFF false)).team? 0).map (fun t => t.ending) = some none) ∧
    (((coreAt { l1 := [{ line := 5, dirtySince := some 0 }] } 65536 (.two 0 5)).core 0).line? 5 = some { line := 5, dirtySince := some 0 } ∧
      ((coreAt { l1 := [{ line := 5, filled := some 0 }] } 65536 (.two 0 5)).core 0).line? 5 = some { line := 5, filled := some 0 } ∧ 0 + 65536 ≤ (coreAt {} 65536 (.two 0 5)).clk) ∧
    (({} : CoreSt).locEn = true ∧ ({} : CoreSt).thr.toNat = 256 ∧ 64 ≤ ({} : CoreSt).thr.toNat / 4 ∧ ({} : CoreSt).thr.toNat / 4 < 65) ∧
    (∀ n ∈ [257, 256, 65, 64], (coreAt { events := n, limit := 8 } 4096 (.one 0)).arg = .one 0 ∧
      ((coreAt { events := n, limit := 8 } 4096 (.one 0)).core 0).windowStart + 2 ^ (((coreAt { events := n, limit := 8 } 4096 (.one 0)).core 0).wlog2.toNat + 8) ≤ 4096) ∧
    (coreAt { tokens := [(0, 0, 0, 0), (0, 1, 1, 4095)], tokenQ := [(0, 2)] } 4096 (.one 0)).arg = .one 0 :=
  ⟨by decide +kernel, by decide +kernel, by decide +kernel, by decide +kernel, by decide +kernel, by decide +kernel, fun _ _ => ⟨rfl, (by decide : 0 + 2 ^ ((4 : BitVec 4).toNat + 8) ≤ 4096)⟩, rfl⟩

/-- Core 63 has a repair under way, or none; a state with a unit whose second read is to come. -/
def unitState (u : FaultUnit) (good : Bool) (rs : List FaultUnit) : State := { eventState (.unit u good) with retryReads := rs, base := BitVec.allOnes 64 }

/-- A repair of core 63 that comes good or not; one that ends; an error of each unit that the first and the second read meet. -/
theorem witness_CoreUpkeepAndRepair_RepairEvents :
    (∀ ok, let s : State := { eventState (.repair 63 ok) with base := BitVec.allOnes 64 }
      s.arg = .repair 63 ok ∧ s.lath.colBusy = false ∧ (s.core 63).frozen = none ∧ coreOnline s 63 = true) ∧
    ((core63 { frozen := some 0 }).arg = .one 63 ∧ ((core63 { frozen := some 0 }).core 63).frozen = some 0) ∧
    (∀ u, ∀ good, (unitState u good []).arg = .unit u good ∧ u ∉ (unitState u good []).retryReads ∧ u ∈ (unitState u good [u]).retryReads) ∧
    (∀ u, (unitState u false [u]).grids = [] ∧ (unitState u false [u]).l2Dirty = [] ∧ (unitState u false [u]).colls = []) :=
  ⟨by decide +kernel, by decide +kernel, fun u good => ⟨rfl, List.not_mem_nil, List.mem_singleton_self u⟩, fun _ => ⟨rfl, rfl, rfl⟩⟩

/-- A queue's registers, and a write of one of queue `n`'s. -/
def queueState (off : BitVec 64) (v : BitVec 256) (q : Queue) (gs : List Grid) (n : Nat) : State :=
  writeState (aFrame off v) fun s => { s with queues := [(n, q)], grids := gs }

/-- Queue 1023's QPTR and QCTL, and queue 0's. -/
theorem witness_QueueRegisterWrites :
    (∀ q ∈ [({ prod := true } : Queue), { log2n := 1, head := 1 }, { log2n := 1, head := 0xFFFF }], writesReg (aFrame 0x107FF0 1) (queueState 0x107FF0 1 q [] 1023) (0x100010 + 32 * 1023)) ∧
    ((({ prod := true } : Queue).prod = true) ∧ 2 ^ 1 < ((0 : BitVec 16) - 1).toNat ∧ ((1 : BitVec 16) - 0xFFFF).toNat ≤ 2 ^ 1) ∧
    (writesReg (aFrame 0x100008 0x80000001) (queueState 0x100008 0x80000001 {} [] 0) (0x100008 + 32 * 0) ∧ (0x80000001 : BitVec 256).getLsbD 31 = true ∧
      ¬ (1 ≤ ((queueState 0x100008 0x80000001 {} [] 0).queue 0).log2n.toNat)) ∧
    (writesReg (aFrame 0x100008 0x80000002) (queueState 0x100008 0x80000002 { en := true, log2n := 1, asid := 1 } [] 0) (0x100008 + 32 * 0) ∧
      (0x80000002 : BitVec 256).extractLsb' 32 12 ≠ ((queueState 0x100008 0x80000002 { en := true, log2n := 1, asid := 1 } [] 0).queue 0).asid) ∧
    (∀ op ∈ [(0x80000001 : BitVec 256), 0x80000002], writesReg (aFrame 0x100008 op) (queueState 0x100008 op { en := true, log2n := 12, pending := [0] } [{ probeGrid with stage := .lwait 0 0 }] 0) (0x100008 + 32 * 0)) ∧
    (let s := queueState 0x100008 0x80000002 { en := true, log2n := 12, pending := [0] } [{ probeGrid with stage := .lwait 0 0 }] 0
     (s.queue 0).pending = [0] ∧ s.grid? 0 = some { probeGrid with stage := .lwait 0 0 } ∧ probeGrid.queue = 0 ∧ probeGrid.node = none ∧ probeGrid.field 0x90 8 = 0 ∧ linkFree s ∧
       (0x80000002 : BitVec 256).extractLsb' 32 12 = (s.queue 0).asid ∧ (0x80000002 : BitVec 256).getLsbD 30 = (s.queue 0).prod ∧
       1 ≤ (s.queue 0).log2n.toNat ∧ (s.queue 0).log2n.toNat ≤ 12 ∧ s.level ≠ 0) :=
  ⟨fun q _ => writes_of 0x107FF0 1 _ rfl, by decide +kernel, by decide +kernel, by decide +kernel, fun op _ => writes_of 0x100008 op _ rfl, by decide +kernel⟩

/-- QBASE, QROOT and QSTAT of queue 1023, with EN and without; and writes of QCTL that ask for nothing, refused at L0 and taken. -/
theorem witness_QueueRegisterWrites_plain :
    (∀ q ∈ [({ en := true } : Queue), {}], ∀ off ∈ [(0x107FE0 : BitVec 64), 0x107FF8, 0x601FF8], ∀ v : BitVec 256,
      writesReg (aFrame off v) (queueState off v q [] 1023) off.toNat) ∧
    (0x100000 + 32 * 1023 = 0x107FE0 ∧ 0x100018 + 32 * 1023 = 0x107FF8 ∧ 0x600000 + 8 * 1023 = 0x601FF8) ∧
    ({ updClk := 1 } : Queue).updClk ≠ (queueState 0x601FF8 0 { updClk := 1 } [] 1023).clk ∧
    (∀ l ∈ [(0 : BitVec 4), 3], let s := atLevel l (queueState 0x107FE8 0x80000000 { log2n := 1 } [] 1023)
      writesReg (aFrame 0x107FE8 0x80000000) s (0x100008 + 32 * 1023) ∧ s.level = l ∧ (s.queue 1023).log2n = 1 ∧ (s.queue 1023).en = false) ∧
    ((0x80000000 : BitVec 256).extractLsb' 0 2 = (0 : BitVec 2) ∧ (0x80000000 : BitVec 256).getLsbD 31 = true) :=
  ⟨fun q _ off ho v => by fin_cases ho <;> exact writes_of _ v _ rfl, by decide, by decide, fun l _ => ⟨writes_of 0x107FE8 0x80000000 _ rfl, rfl, rfl, rfl⟩, by decide⟩

/-- A record whose code object stands at 0x1000 and whose one lease is listed at 0x2000; its bytes. -/
def launchRecord : BitVec 2048 := probeRecord + BitVec.ofNat 2048 (0x1000 + 0x2000 * 2 ^ (8 * 0x50) + 2 ^ (8 * 0x60))

/-- Queue 7 holds a record at 0x60000: one that passes every check where `good`, one of zeros else. Its page tables stand at 0 and 0x20000, and map the first 1 GiB to itself by the leaf `w`. -/
def takeState (good : Bool) (w : Nat) : State :=
  let s : State := { eventState (.one 7) with hbmUp := 0xFFF, queues := [(7, { en := true, log2n := 1, base := 0x600, tail := 1 })] }
  let s1 := withWord 0 0x20001 (withWord 0x20000 w s)
  if good then
    withBytes 0x1000 (bytesOfNat 4 0x4C454843 ++ bytesOfNat 4 1 ++ bytesOfNat 4 0x100 ++ bytesOfNat 4 0x100)
      (withBytes 0x2000 (bytesOfNat 8 0 ++ bytesOfNat 8 (0x10000 + 5 * 2 ^ 40)) (withBytes 0x60000 (bytesOfNat 256 launchRecord.toNat) s1))
  else s1

/-- What the check of the record at the head of queue 7 comes to. -/
def checkOf (s : State) : Nat :=
  let q := s.queue 7
  match checkRecord { s.updQueue 7 (fun x => { x with head := x.head + 1 }) with nextUid := s.nextUid + 1 } (newGrid s 7 (l2ReadBytes s (q.slotAddr q.head.toNat) 256) none) with
  | .ok _ => 0
  | .refused => 1
  | .locked => 2

/-- A grid that leases page 0, whose leaf is `w`; its tables stand at 0x10000. -/
def leaseState (w : Nat) : State :=
  paged w { eventState (.one 0) with grids := [{ probeGrid with root := 0x10000, stage := .leasing 0 0 }] }

/-- The kind of fault that a lease of page 0 with R and X comes to; 0 for a leaf that can be pinned. -/
def pinKind (s : State) : Nat := match walk s 0x10000 0 with
  | .invalid => 1
  | .malformed => 4
  | .leaf l =>
    if entryLock l.word then 5
    else if entryTier l.word then 2
    else if !leafGrants l.word ⟨0, 65536, true, false, true⟩ then 3
    else if entryPin l.word < 4095 then 0
    else 6

/-- A record that passes, one that does not, and a page that is locked; and a lease page of each kind. -/
theorem witness_LaunchAndPlacement_LaunchEvents :
    (∀ x ∈ [(true, 0x17, 0), (false, 0x17, 1), (true, 0x117, 2)], let s := takeState x.1 x.2.1
      let q := s.queue 7
      let g := newGrid s 7 (l2ReadBytes s (q.slotAddr q.head.toNat) 256) none
      s.arg = .one 7 ∧ Queue.free s 7 = true ∧ q.tail ≠ q.head ∧ g.ctl 13 1 = 0 ∧ checkOf s = x.2.2 ∧ g.field 0x90 8 = 0 ∧ linkFree s ∧ s.nextUid ∉ q.pending ∧ s.grids = [] ∧
      rangeLocked s (q.slotAddr q.head.toNat) 256 = false) ∧
    (∀ x ∈ [(0, 1), (0x50203, 4), (0x50083, 2), (0x50007, 3)], let s := leaseState x.1
      (s.grid? 0).map (fun g => (g.stage, g.leases[0]?)) = some (.leasing 0 0, some ⟨0, 65536, true, false, true⟩) ∧ linkFree s ∧
        pinKind s = x.2) ∧
    (memWf (leaseState (0x50017 + 4094 * 2 ^ 52)) ∧ pinKind (leaseState (0x50017 + 4094 * 2 ^ 52)) = 0) := by
  refine ⟨fun x hx => ?_, fun x hx => ?_, by decide +kernel⟩ <;> fin_cases hx <;> decide +kernel

/-- Queue 7 holds the record of a graph, whose first node at 0x2000 is of the kind `kind`; the record holds no more than it may where `good`. -/
def graphTake (kind : Byte) (good : Bool) : State :=
  withBytes 0x2000 [kind] (withBytes 0x60000 (bytesOfNat 256 (0x2000 + 2 ^ (8 * 0x34 + 13) + if good then 0 else 2 ^ 64)) (takeState false 0x1F))

/-- An agent's write meets no lock and no missing page. -/
def canWrite (s : State) (root va : Nat) (bs : List Byte) : Bool := match agentWrite s root va bs true with
  | .ok l _ => decide (l = [])
  | _ => false

theorem write_of {s : State} {root va : Nat} {bs : List Byte} (h : canWrite s root va bs = true) : ∃ s2, agentWrite s root va bs true = .ok [] s2 := by
  unfold canWrite at h
  split at h
  · rename_i l s2 hw
    exact ⟨s2, by rw [hw, of_decide_eq_true h]⟩
  · exact absurd h Bool.false_ne_true

/-- A graph record with a field that is not zero; graphs that begin with a kernel node and with a while node; and a ring slot that an exchange has locked. -/
theorem witness_LaunchAndPlacement_GraphRecords :
    (∀ x ∈ [((1 : Byte), false), (1, true), (5, true)], let s := graphTake x.1 x.2
      let q := s.queue 7
      let g := newGrid s 7 (l2ReadBytes s (q.slotAddr q.head.toNat) 256) none
      s.arg = .one 7 ∧ Queue.free s 7 = true ∧ q.tail ≠ q.head ∧ rangeLocked s (q.slotAddr q.head.toNat) 256 = false ∧ g.ctl 13 1 = 1 ∧ g.graphOk = x.2 ∧
        g.field 0 8 = 0x2000 ∧ g.field 0x90 8 = 0 ∧ linkFree s ∧ s.nextUid ∉ q.pending ∧ s.grids = [] ∧
        ((nodeBytes s g.root 0x2000).map fun bs => (bytesFld bs 0 1, bytesFld bs 8 8, bytesFld bs 0x10 8)) = some (x.1.toNat, 0, 0)) ∧
    (let s := graphTake 5 true
     let s1 : State := { s.updQueue 7 (fun x => { x with head := x.head + 1 }) with nextUid := s.nextUid + 1 }
     ∃ s2, agentWrite s1 ((s.queue 7).root.toNat * 2 ^ 22) (0x2000 + 0x34) (bytesOfNat 4 0) true = .ok [] s2) ∧
    (let s : State := { takeState false 0x1F with lath := { (takeState false 0x1F).lath with swap := some ⟨0x40000, 0x40000, 16⟩ } }
     rangeLocked { s with mem := bytesSet s.mem 0x40000 (bytesOfNat 8 0x6001F) } ((s.queue 7).slotAddr (s.queue 7).head.toNat) 256 = true) :=
  ⟨fun x hx => by fin_cases hx <;> decide +kernel, write_of (by decide +kernel), by decide +kernel⟩

/-- Grid 0 is placed next, on core 5, with room there. -/
def placeState : State :=
  { eventState .nothing with
    base := BitVec.allOnes 64, placeP := 5, queues := [(3, { pending := [0], prio := 2 })]
    grids := [{ probeGrid with queue := 3, stage := .placing, nextTeam := 0 }], nextUid := 9 }

/-- Team 5 of grid 0 was stopped by a fence, and starts again. -/
def againState : State :=
  { placeState with grids := [{ probeGrid with queue := 3, stage := .running, nextTeam := 6, restartQ := [5] }] }

theorem witness_LaunchAndPlacement_Restart :
    (∃ g rest, againState.grids = g :: rest ∧ g.held = false ∧ g.restartQ = 5 :: [] ∧ g.cls ≠ 2 ∧ chooseCore againState g.need = some 5) ∧ againState.heldRefl = [] ∧
      againState.team? againState.nextUid = none :=
  ⟨⟨_, _, rfl, rfl, rfl, by decide +kernel, by decide +kernel⟩, rfl, rfl⟩

/-- A bin of core 0 of the team, with `n` tasks entered at clock 0. -/
def binState (n clk : Nat) : State :=
  { stateOf probeGroup with arg := .two 0 0, clk := clk, cores := [(0, { bins := [{ team := 0, entry := 0x40, tasks := List.replicate n 5, first := 0 }] })] }

/-- Two computers wait at barrier 0 of a ring that has been low since clock 0. -/
def ringState : State :=
  let g (k : Nat) : Group := { smallGroup { oneSlice 1 with wait := .barrier 0 0 .wt } [] with gid := k }
  { stateOf (g 0) (fun t => { t with groups := [g 0, g 1], ringLow := some 0 }) (field 0x34 8) with arg := .one 0 }

theorem witness_LaunchAndPlacement_PlacementEvents :
    ((firstAgain placeState).isNone = true ∧ (arbiter placeState).map (fun x => (x.1, x.2.1.uid, x.2.2)) = some (3, 0, 5) ∧ placeState.heldRefl = [] ∧ (placeState.teams.map fun x => x.uid).Nodup ∧ placeState.teams = [] ∧
      (arbiter placeState).map (fun x => x.2.1.collEn) = some false) ∧
    (∀ x ∈ [(32, 0), (1, 256)], ((binState x.1 x.2).core 0).bins[0]?.isSome = true ∧ (32 ≤ x.1 ∨ 0 + spawnWait (binState x.1 x.2) ≤ (binState x.1 x.2).clk) ∧
      ((binState x.1 x.2).team? 0).map (fun t => (t.core, ((binState x.1 x.2).grid? 0).map fun g => spawnRoom (binState x.1 x.2) t (headerVbud (binState x.1 x.2) 0 g 0x40))) = some (0, some true)) ∧
    (((ringState.grid? 0).map fun g => g.ctl 3 1) = some 1 ∧ ((ringState.team? 0).map fun t => t.ending) = some none ∧
      ((ringState.team? 0).bind fun t => (ringState.grid? 0).bind fun g => roleChange ringState g t) = some (1, 0, true)) :=
  ⟨by decide +kernel, by decide +kernel, by decide +kernel⟩

/-! ### Waits -/

/-- The gang waits to issue `j` since clock 0, in the state `f` makes of one with the address 0x40 in v2, 0x50 in v4 and 8 in v6. -/
def waitState (j : Instr) (f : State → State := id) : State :=
  let waiting : Nat := match j with
    | .ldhWfClr _ _ _ _ => 1
    | .ldhWfKeep _ _ _ _ => 1
    | _ => 0
  let s := mapped0 (stateOf (smallGroup { oneSlice 1 with wait := .blocked j 0 0, progress := waiting } [(.v 2 0 0, 0x40), (.v 4 0 0, 0x50), (.v 6 0 0, 8)]) (fun t => { t with hawkFull := [4], pools := [0, 1, 0] })
    fun g => withHandler (field 0x14 16 (field 0x28 4096 g)))
  f { s with arg := .gang 0 0 0, issuer := .nobody }

/-- The wait of the gang meets a check. -/
def waits (s : State) (p : Instr → Issue → Nat → Bool) : Bool := match waitOf s with
  | some (j, c, n) => p j c n
  | none => false

theorem wait_of {s : State} {P : Instr → Issue → Nat → Prop} [∀ j c n, Decidable (P j c n)] (h : waits s (fun j c n => decide (P j c n)) = true) :
    ∃ j c n, waitOf s = some (j, c, n) ∧ P j c n := by
  unfold waits at h
  split at h
  · rename_i j c n hw
    exact ⟨j, c, n, hw, of_decide_eq_true h⟩
  · exact absurd h Bool.false_ne_true

/-- The clock at 16. -/
def lateBy (n : Nat) (s : State) : State := { s with clk := n }
/-- The budget at 88, so that eight more may be claimed. -/
def lowBudget (s : State) : State := { s with teams := s.teams.map fun t => { t with groups := t.groups.map fun g => { g with regbud := 88 } } }
/-- The FIFOs of core 0 and of its partner as given, and every core online. -/
def withFifos (a b : List FifoEntry) (s : State) : State := { s with base := BitVec.allOnes 64, cores := [(0, { (s.core 0) with fifo := a }), (16, { fifo := b })] }

/-- Gang 0 of the group waits to issue, and meets a check. -/
def blockedAs (s : State) (p : Instr → Issue → WaitKey → Bool) : Bool := match blockedGang s 0 0 0 with
  | some (j, c, key) => p j c key
  | none => false

theorem blocked_of {s : State} {P : Instr → Issue → WaitKey → Prop} [∀ j c k, Decidable (P j c k)] (h : blockedAs s (fun j c k => decide (P j c k)) = true) :
    ∃ j c key, blockedGang s 0 0 0 = some (j, c, key) ∧ P j c key := by
  unfold blockedAs at h
  split at h
  · rename_i j c k hw
    exact ⟨j, c, k, hw, of_decide_eq_true h⟩
  · exact absurd h Bool.false_ne_true

/-- A .WF load of a full word and of an empty one, with and without .CLR; alone, so that no other wait is for its granules; and a load
that is not one that waits for granules. -/
theorem witness_WaitsEndOrTimeOut_WfRelease :
    (∀ i ∈ [Instr.ldhWfClr 4 8 2 0, .ldhWfKeep 4 8 2 0], ∃ j c key, blockedGang (waitState i) 0 0 0 = some (j, c, key) ∧
      (j = i ∧ c.wfWaits j = true ∧ c.team.ending = none ∧ c.live ≠ [] ∧ precheck j c = none ∧
        (∀ n ∈ c.wfNeed j, (∀ o ∈ n.cells, c.team.full o = true) ∧ frozenAt (waitState i) c.team.core (n.cells.map Int.ofNat) = false) ∧ (c.wfNeed j).isSome = true ∧
        (∀ w ∈ c.team.blockedGangs (waitState i), w.2.1.wfPlace w.2.2 = c.wfPlace (c.wfKey (waitState i))) ∧
        (∀ p ∈ c.live, let a : Int := (c.src 2 p).toNat + (0 : Int) * loadBytesOf 4
          a % loadBytesOf 4 = 0 ∧ 0 ≤ a ∧ localOk c.grid a.toNat (loadBytesOf 4) = true))) ∧
    (∃ j c key, blockedGang (waitState (.ldhWfKeep 4 8 4 0)) 0 0 0 = some (j, c, key) ∧
      ((c.wfNeed j).any fun n => n.cells.any fun o => !c.team.full o) = true) :=
  ⟨fun i hi => by fin_cases hi <;> exact blocked_of (by decide +kernel), blocked_of (by decide +kernel)⟩

theorem witness_WaitsEndOrTimeOut_WaitsEnd :
    (∃ j c n, waitOf (waitState (.regsClaim 6) lowBudget) = some (j, c, n) ∧ (j = .regsClaim 6 ∧ c.live ≠ [] ∧ precheck j c = none ∧ (c.groupValue 6).toNat = 8 ∧
      c.group.regbud + 8 ≤ 96 ∧ 1 ≤ nth c.team.pools c.group.role.toNat 0 ∧ ∀ w ∈ c.team.claims c.group.role, ¬ WaitKey.before w (c.waitKey (waitState (.regsClaim 6) lowBudget)))) ∧
    (∃ j c n, waitOf (waitState (.vsend 2) (withFifos (List.replicate 15 ⟨0, 0⟩) [])) = some (j, c, n) ∧ (j = .vsend 2 ∧ c.live ≠ [] ∧ precheck j c = none ∧
      coreOnline (waitState (.vsend 2) (withFifos (List.replicate 15 ⟨0, 0⟩) [])) (partner c.team.core) = true ∧ 15 + c.slots.length ≤ 16)) ∧
    (∃ j c n, waitOf (waitState (.vrecv 3) (withFifos [] [⟨0, 7⟩])) = some (j, c, n) ∧ (j = .vrecv 3 ∧ c.live ≠ [] ∧ precheck j c = none ∧
      c.slots.length ≤ (((waitState (.vrecv 3) (withFifos [] [⟨0, 7⟩])).core (partner c.team.core)).fifo.filter fun x => decide (x.grid = c.grid.uid)).length)) :=
  ⟨wait_of (by decide +kernel), wait_of (by decide +kernel), wait_of (by decide +kernel)⟩

/-- At clock 16 of FEWAIT 16 the waits are late, and REGS.CLAIM is at clock 17. -/
theorem witness_WaitsEndOrTimeOut_WaitsTimeOut :
    (∀ j ∈ [Instr.vsend 2, .vrecv 3, .spawn 2 6, .hod 2 6, .hodChain 2, .bead 0 2], ∃ i c n, waitOf (waitState j fun s => lateBy 16 (withFifos [] [] s)) = some (i, c, n) ∧
      (i = j ∧ handles c ∧ noneHeld c ∧ c.gang = 0 ∧ c.grid.field 0x14 4 ≠ 0 ∧ n + c.grid.field 0x14 4 ≤ 16 ∧ coreOnline (waitState j fun s => lateBy 16 (withFifos [] [] s)) (partner c.team.core) = true)) ∧
    (∃ i c n, waitOf (waitState (.vsend 2) (lateBy 16)) = some (i, c, n) ∧ (i = .vsend 2 ∧ handles c ∧ noneHeld c ∧ c.gang = 0 ∧ n + c.grid.field 0x14 4 ≤ 16 ∧
      coreOnline (waitState (.vsend 2) (lateBy 16)) (partner c.team.core) = false)) ∧
    (∃ i c n, waitOf (waitState (.ldhWfKeep 4 8 4 0) (lateBy 16)) = some (i, c, n) ∧ (handles c ∧ noneHeld c ∧ c.gang = 0 ∧ n + c.grid.field 0x14 4 ≤ 16 ∧
      c.wfWaits i = true ∧ ((c.wfNeed i).any fun n => !frozenAt (waitState (.ldhWfKeep 4 8 4 0) (lateBy 16)) c.team.core (n.cells.map Int.ofNat)) = true)) ∧
    (∃ i c n, waitOf (waitState (.regsClaim 6) (lateBy 17)) = some (i, c, n) ∧ (i = .regsClaim 6 ∧ handles c ∧ noneHeld c ∧ c.gang = 0 ∧ c.grid.field 0x14 4 ≠ 0 ∧ n + c.grid.field 0x14 4 < 17)) ∧
    ∃ i c n, waitOf (waitState (.regsClaim 6) fun s => { s with grids := s.grids.map (field 0x14 (-16)) }) = some (i, c, n) ∧ (handles c ∧ noneHeld c ∧ c.gang = 0 ∧ c.grid.field 0x14 4 = 0) :=
  ⟨fun j hj => by fin_cases hj <;> exact wait_of (by decide +kernel), wait_of (by decide +kernel), wait_of (by decide +kernel), wait_of (by decide +kernel), wait_of (by decide +kernel)⟩

/-- A cause held for the group; a group whose pairs have all exited; and a group that waits at SNAP, alone in a quiet team. -/
def heldState (r : Grid → Grid) (x : Slice) : State :=
  { stateOf { smallGroup x [] with held := [{ code := 0x0201, src := 3, faddr := 0x40, trw := false, tpc := 0 }] } id r with arg := .two 0 0 }

/-- The team at its SNAP of barrier 0, whose phase has ended. -/
def snapState : State :=
  { stateOf (smallGroup { oneSlice 1 with wait := .barrier 0 0 .snap } []) (fun t => { t with trowel := none, barriers := [(0, { phase := 1 })] }) with arg := .two 0 0 }

theorem witness_HeldCausesAndSnaps :
    (∀ s ∈ [heldState withHandler (oneSlice 1), heldState id (oneSlice 1), heldState withHandler doneSlice], (s.team? 0).bind (fun t => (t.group? 0).map fun g =>
      (t.ending, g.ended, g.privileged, g.mac, g.held.length)) = some (none, false, false, [], 1)) ∧
    (((heldState withHandler (oneSlice 1)).grid? 0).map (fun g => decide (g.handler ≠ 0xFFFFFFFF)) = some true ∧ ((groupAt (heldState withHandler (oneSlice 1)) 0 0).map fun g => g.hasPair) = some true ∧
      ((heldState id (oneSlice 1)).grid? 0).map (fun g => g.handler) = some 0xFFFFFFFF ∧ ((groupAt (heldState withHandler doneSlice) 0 0).map fun g => g.hasPair) = some false) ∧
    ((snapState.team? 0).any (fun t => snapDue snapState t 0) = true ∧ (snapState.grid? 0).map (fun g => g.cls) = some 0 ∧
      (snapState.team? 0).map (fun t => (t.barrier 0).passed 0) = some true) :=
  ⟨by decide +kernel, by decide +kernel, by decide +kernel⟩

/-! ### Tables at 0x10000 that map the first 1 GiB by one page to itself -/

/-- The tables, with the leaf `w`; every frame has backing. -/
def lowTables (w : Nat) (s : State) : State := withWord 0x10000 0x20001 (withWord 0x20000 w { s with hbmUp := 0xFFF })

/-- What makes that page readable and writable. -/
abbrev Low (s : State) : Prop :=
  l2Read64 s 0x10000 = 0x20001 ∧ l2Read64 s 0x10008 = 0 ∧ l2Read64 s 0x20000 = 0x7F ∧ l2Read64 s 0x20008 = 0 ∧ pageBacked s 0 30 = true ∧ s.fencedFrames = []

theorem levelIndex_low (va : Nat) (h : va < 2 ^ 30) : levelIndex 3 va = 0 ∧ levelIndex 2 va = 0 := by
  simp only [levelIndex]
  refine ⟨?_, ?_⟩
  · rw [Nat.div_eq_of_lt (by omega), Nat.zero_mod]
  · rw [Nat.div_eq_of_lt h, Nat.zero_mod]

theorem walk_low {s : State} (hs : Low s) (va : Nat) (h : va < 2 ^ 30) : walk s 0x10000 va = .leaf ⟨0x20000, 30, 0x7F⟩ := by
  obtain ⟨r0, r1, r2, r3, b, hf⟩ := hs
  obtain ⟨h3, h2⟩ := levelIndex_low va h
  have f : ∀ pa, frameFenced s pa = false := fun pa => by simp [frameFenced, hf]
  have e1 : entryPa 0x20001 = 0x20000 := by decide
  have e2 : entryPa 0x7F#64 = 0 := by decide
  have n1 : entryV 0x20001 = true ∧ entryLeaf 0x20001 = false ∧ (0x20001 : BitVec 64).extractLsb' 9 7 = 0 := by decide
  have n2 : entryV 0x7F#64 = true ∧ entryLeaf 0x7F#64 = true ∧ (0x7F : BitVec 64).extractLsb' 9 7 = 0 := by decide
  have s2 : levelShift 2 = 30 := rfl
  rw [walk, walkFrom]
  simp only [h3, Nat.mul_zero, Nat.add_zero, r0, r1, n1]
  simp only [ne_eq, not_true_eq_false, or_self, if_false, Bool.not_true, Bool.false_eq_true, e1]
  rw [walkFrom]
  simp [h2, r2, r3, n2, e2, s2, b, f]

theorem agentByte_low {s : State} (hs : Low s) (w h : Bool) (va : Nat) (hv : va < 2 ^ 30) : agentByte s 0x10000 va w h = .ok va s := by
  have h57 : ¬ 2 ^ 57 ≤ va := by omega
  have e : entryLock 0x7F#64 = false ∧ entryTier 0x7F#64 = false ∧ entryPa 0x7F#64 = 0 ∧ (0x7F#64).getLsbD 3 = true ∧ (0x7F#64).getLsbD 2 = true ∧
    (0x7F#64 ||| 0x20 ||| 0x40) = 0x7F#64 ∧ (0x7F#64 ||| 0x20) = 0x7F#64 := by decide
  have hm : va % 1073741824 = va := Nat.mod_eq_of_lt hv
  simp only [agentByte, h57, walk_low hs va hv, if_false]
  cases w <;> simp [e, hm]

theorem agentBytes_stays {s : State} {root : Nat} {w h : Bool} : ∀ l : List Nat, (∀ va ∈ l, agentByte s root va w h = .ok va s) →
    agentBytes s root w h l = .ok l s
  | [], _ => rfl
  | va :: rest, hl => by
    simp only [agentBytes, hl va (by simp), agentBytes_stays rest fun x hx => hl x (by simp [hx])]

theorem agentBytes_low {s : State} (hs : Low s) (w h : Bool) (va n : Nat) (hn : va + n ≤ 2 ^ 30) : agentBytes s 0x10000 w h (rangeFrom va n) = .ok (rangeFrom va n) s := by
  refine agentBytes_stays _ fun a ha => agentByte_low hs w h a ?_
  simp only [rangeFrom, List.mem_map, List.mem_range] at ha
  obtain ⟨k, hk, rfl⟩ := ha
  omega

theorem read_low {s : State} (hs : Low s) (va n : Nat) (h : Bool) (hn : va + n ≤ 2 ^ 30) :
    agentRead s 0x10000 va n h = .ok (l2Reads s (rangeFrom va n)) s := by simp only [agentRead, agentBytes_low hs false h va n hn]

theorem write_low {s : State} (hs : Low s) (va : Nat) (bs : List Byte) (h : Bool) (hn : va + bs.length ≤ 2 ^ 30) :
    agentWrite s 0x10000 va bs h = .ok [] (l2Writes s (rangeFrom va bs.length) bs) := by simp only [agentWrite, agentBytes_low hs true h va bs.length hn]

/-! ### The team at the SNAP of a snapshot grid -/

/-- The column bus of core 0 frozen or not. -/
def snapGridState (w : Nat) (frozen : Bool) : State :=
  let s : State := { stateOf (smallGroup { oneSlice 1 with wait := .barrier 0 0 .snap } []) (fun t => { t with trowel := none, barriers := [(0, { phase := 1 })] })
      (fun g => { field 0x34 4 (field 0x2C 1024 (field 0x0C 0xFFFFFFFF g)) with root := 0x10000 }) with arg := .two 0 0 }
  lowTables w { s with cores := [(0, { frozen := if frozen then some 0 else none })] }

theorem length_imageHeader (gr : Grid) (t : Team) (kind seq : Nat) (d : BitVec 256) : (imageHeader gr t kind seq d).length = 256 := by
  have h6 : (sectionOffs gr t).length = 6 := by simp [sectionOffs]
  unfold imageHeader
  generalize sectionOffs gr t = l at *
  simp [length_bytesOfNat, h6]

theorem length_imageOf (tick : Nat) (gr : Grid) (t : Team) (kind seq : Nat) : (imageOf tick gr t kind seq).length = 256 + (t.imageLen gr - 256) := by
  unfold imageOf
  rw [List.length_append, length_imageHeader, imageBody, List.length_map, List.length_range]

/-- A write whose first byte cannot be translated is lost. -/
theorem lost_first {s : State} {root va : Nat} {bs : List Byte} (hw : walk s root va = .invalid) (hn : bs.length ≠ 0) :
    agentWrite s root va bs true = .lost := by
  have h : agentByte s root va true true = .lost := by simp [agentByte, hw]
  obtain ⟨n, hn⟩ := Nat.exists_eq_succ_of_ne_zero hn
  simp only [agentWrite, rangeFrom, hn, Nat.succ_eq_add_one, List.range_succ_eq_map, List.map_cons, Nat.add_zero, agentBytes, h]

/-- The team as its snapshot shows it. -/
def snapRest (s : State) : Team := match s.team? 0, s.grid? 0 with
  | some t, some gr => { (t.settle gr (some 0)).atRest with snaps := t.snaps + 1 }
  | _, _ => probeTeam

theorem witness_HeldCausesAndSnaps_Snapshots :
    (∀ w f, ∀ x ∈ [snapGridState w f], x.arg = .two 0 0) ∧
    (∀ x ∈ [(0x7F, false), (0x7F, true), (0, false)], let s := snapGridState x.1 x.2
      (s.team? 0).any (fun t => snapDue s t 0 && decide (t.teamid = 0 ∧ t.snaps = 0)) = true ∧ (s.grid? 0).any (fun g => decide (g.cls = 2 ∧ g.root = 0x10000) && (columnBusy s g 0 == x.2)) = true) ∧
    (let s := snapGridState 0x7F false
     ∃ gr, s.grid? 0 = some gr ∧ ∃ s1, agentWrite s gr.root (gr.snapSlot 0 1) (imageOf s.tick gr (snapRest s) 1 1) true = .ok [] s1) ∧
    (let s := snapGridState 0 false
     ∃ gr, s.grid? 0 = some gr ∧ agentWrite s gr.root (gr.snapSlot 0 1) (imageOf s.tick gr (snapRest s) 1 1) true = .lost) := by
  refine ⟨fun w f x hx => by rw [List.mem_singleton.mp hx]; rfl, fun x hx => by fin_cases hx <;> decide +kernel, ⟨_, rfl, ?_⟩, ⟨_, rfl, ?_⟩⟩
  · refine ⟨_, write_low (by decide +kernel) _ _ true ?_⟩
    rw [length_imageOf]
    decide +kernel
  · refine lost_first (by decide +kernel) ?_
    rw [length_imageOf]
    decide +kernel

/-! ### Engines -/

/-- A Hod record from its fields: source, destination, COUNT, NBYTES, VALID and CTL. -/
def hodRec (src dst count n valid ctl : Nat) : BitVec 512 :=
  BitVec.ofNat 512 (src + dst * 2 ^ 64 + count * 2 ^ (8 * 0x18) + n * 2 ^ (8 * 0x1C) + valid * 2 ^ (8 * 0x20) + ctl * 2 ^ (8 * 0x24))

/-- The engine address of an offset of the own team. -/
def ownAt (o : Nat) : Nat := 2 ^ 62 + o

/-- The team has a Hod command in slot 15. -/
def hodState (r : BitVec 512) : State :=
  { mapped0 (stateOf probeGroup (fun t => { t with hods := [⟨15, r, 0, 0, 0x40⟩] }) (field 0x28 4096)) with arg := .two 0 15 }

/-- What a check or a move comes to: 0 where it goes on, 1 for a wait, the code of a cause, 0x10000 more for one that ends the team. -/
def endCode : HaulEnd → Nat
  | .ok _ => 0
  | .wait => 1
  | .fault c => c.toNat
  | .ends c => 0x10000 + c.toNat

/-- The acting context of that command. -/
def hodCtx (s : State) : EngCtx := ⟨0, 0, (s.grid? 0).getD probeGrid, 0⟩

/-- VALID above COUNT; another team that is not there; an address in no lease; a page without a translation; and a row that moves, its granules set full or not. -/
theorem witness_EngineEvents_HodEvents :
    ((hodCtx (hodState (hodRec (ownAt 0) (ownAt 16) 1 16 2 0))).hodFieldsOk false (hodRec (ownAt 0) (ownAt 16) 1 16 2 0) = false) ∧
    ((hodCtx (hodState 0)).hodCheck (hodState 0) false (hodRec (2 ^ 63 + 2 ^ 34) (ownAt 16) 1 16 1 0)).map endCode = some 0x0202 ∧
    ((hodCtx (hodState 0)).hodCheck (hodState 0) false (hodRec 0x10000 (ownAt 16) 1 16 1 0)).map endCode = some 0x10301 ∧
    (let s := { hodState 0 with cores := [] }
     ((hodCtx s).hodCheck s false (hodRec 0 (ownAt 16) 1 16 1 0)).map endCode = none ∧ endCode ((hodCtx s).hodMove (hodRec 0 (ownAt 16) 1 16 1 0) s).1 = 0x10302) ∧
    (∀ ctl ∈ [0, 0x40], let r := hodRec (ownAt 0) (ownAt 4080) 1 16 1 ctl
      let s := hodState r
      ((hodCtx s).hodCheck s false r).map endCode = none ∧ endCode ((hodCtx s).hodMove r s).1 = 0 ∧ (hodCtx s).hodFieldsOk false r = true ∧ rec512 r 0x20 4 = 1 ∧
        hodCtl r 4 2 = 0 ∧ hodCtl r 7 1 = 0 ∧ engAddr (BitVec.ofNat 64 (rec512 r 0x00 8)) = .own 0 ∧ engAddr (BitVec.ofNat 64 (rec512 r 0x08 8)) = .own 4080 ∧
        localOk (hodCtx s).grid 0 16 = true ∧ localOk (hodCtx s).grid 4080 16 = true ∧ (s.core 0).frozen = none ∧ s.lath.colBusy = false ∧
        (s.team? 0).map (fun t => (teamMemWf t, t.hods.map fun h => h.slot)) = some (true, [15])) :=
  ⟨by decide +kernel, by decide +kernel, by decide +kernel, by decide +kernel, fun ctl h => by fin_cases h <;> decide +kernel⟩

/-- One barrier, which of the team has had the arrival of an arriver of rank `r` in this clock. -/
def lastArrival (r : Nat) (s : State) : State := { s with teams := s.teams.map fun t => { t with barriers := [(0, { last := some (0, r) })] }, grids := s.grids.map (field 0x34 0x100) }
/-- A column of 64 KiB, whose bus is frozen. -/
def frozenColumn (s : State) : State :=
  { s with grids := s.grids.map (field 0x2C 65536), cores := s.cores.map fun k => (k.1, { k.2 with frozen := some 0 }) }

/-- A record that is not late; one that arrives, of slot 15 after the arrival of a higher slot in the same clock; one into a column whose bus is frozen; one that is not the oldest. -/
theorem witness_EngineEvents_HodWaits :
    (∀ ctl ∈ [0, 0x40, 0xC0], let r := hodRec (ownAt 0) (ownAt 4080) 1 16 1 ctl
      (hodCtx (hodState r)).hodLate (hodState r) r 15 = false) ∧
    (let r := hodRec (ownAt 0) (ownAt 16) 1 16 1 0xC0
     let s := lastArrival 17 (hodState r)
     ((hodCtx s).hodCheck s false r).map endCode = none ∧ (hodCtx s).hodLate s r 15 = true) ∧
    (let r := hodRec (ownAt 0) (ownAt 0x400000) 1 16 1 0
     let s := frozenColumn (hodState r)
     ((hodCtx s).hodCheck s false r).map endCode = none ∧ (hodCtx s).hodFrozen s r = true) ∧
    (((hodState 0).team? 0).map fun t => (t.hods.head?.map fun h => h.slot)) = some (some 15) :=
  ⟨fun ctl h => by fin_cases h <;> decide +kernel, by decide +kernel, by decide +kernel, by decide +kernel⟩

/-- A chain at `head`, with the record `r` at address 0x40. -/
def chainState (head : VAddr) (r : BitVec 512) : State :=
  withBytes 0x40 (bytesOfNat 64 r.toNat) { mapped0 (stateOf probeGroup (fun t => { t with hodch := { busy := true, head := head } }) (field 0x28 4096)) with arg := .one 0 }

/-- How far the chain's record goes: 0 where its OWN is clear, the code of its check, and 2 where it moves, is read again and is given back. -/
def chainEnd (s : State) : Nat :=
  let k := hodCtx s
  match k.readGlobal s 0x40 64 with
  | .ok bs s1 =>
    let r : BitVec 512 := BitVec.ofNat 512 (natOfBytes bs)
    if r.getLsbD 384 = false then 0
    else match k.hodCheck s1 true r with
      | some e => endCode e
      | none => match (k.hodMove r s1).1 with
        | .ok s2 => if k.hodLate s1 r 16 then 3 else match k.readGlobal s2 0x70 8 with
          | .ok old s3 => match k.writeGlobal s3 0x70 (bytesOfNat 8 ((BitVec.ofNat 64 (natOfBytes old)) &&& ~~~1#64).toNat) with
            | .ok [] _ => 2
            | _ => 3
          | _ => 3
        | _ => 3
  | _ => 3

theorem witness_EngineEvents_HodChainEvents :
    (∀ h ∈ [(0 : VAddr), 0x10000, 0x40], (((chainState h 0).team? 0).map fun t => (t.hodch.busy, t.hodch.head, t.ending)) = some (true, h, none)) ∧
    (leaseOk (hodCtx (chainState 0 0)).grid (some 0) .r 0x10000 64 = false ∧ leaseOk (hodCtx (chainState 0 0)).grid (some 0) .r 0x40 64 = true ∧
      leaseOk (hodCtx (chainState 0 0)).grid (some 0) .w 0x70 8 = true) ∧
    chainEnd (chainState 0x40 0) = 0 ∧ chainEnd (chainState 0x40 (hodRec (ownAt 0) (ownAt 16) 1 16 2 0 + BitVec.ofNat 512 (2 ^ 384))) = 0x0201 ∧
    chainEnd (chainState 0x40 (hodRec (ownAt 0) (ownAt 16) 1 16 1 0 + BitVec.ofNat 512 (2 ^ 384))) = 2 :=
  ⟨fun h hh => by fin_cases hh <;> decide +kernel, by decide +kernel, by decide +kernel, by decide +kernel, by decide +kernel⟩

/-- A Bead operation over 4 × 4 elements of 4 bytes at Hawk 0x100, lines 64 bytes apart, halo width 1, the west strip (or with a bad field), CTL and the bound of its side as given. -/
def beadCmd (nx ctl bound : Nat) : BeadCmd :=
  { slot := 3, desc := BitVec.ofNat 512 (0x100 + 64 * 2 ^ 32 + nx * 2 ^ 64 + 4 * 2 ^ 80 + 2 * 2 ^ 96 + 2 ^ 104 + 2 ^ 112 + ctl * 2 ^ 120 + bound * 2 ^ 128 + 7 * 2 ^ 192), gid := 0, member := 0, off := 0 }

/-- The team has it in slot 3. -/
def beadState (b : BeadCmd) (r : Grid → Grid := id) : State :=
  { mapped0 (stateOf probeGroup (fun t => { t with beads := [b] }) fun g => r (field 0x28 4096 g)) with arg := .two 0 3 }

/-- No element in a line; a strip filled with FILL; and the west neighbour of team 0 of two, in the mirror at an address no lease covers. -/
theorem witness_EngineEvents_BeadEvents :
    ((beadCmd 0 0 0).fieldsOk (hodCtx (beadState (beadCmd 0 0 0))).grid = false) ∧
    (let b := { beadCmd 4 0 1 with desc := (beadCmd 4 0 1).desc + BitVec.ofNat 512 (0x20000 * 2 ^ 256) }
     let s := beadState b (field 0x18 1)
     (b.check s (hodCtx s) 0).map endCode = some 0x10301) ∧
    (∀ ctl ∈ [0, 0x40], let b := beadCmd 4 ctl 2
      let s := beadState b
      (b.check s (hodCtx s) 0).map endCode = none ∧ b.frozen s (hodCtx s) 0 = false ∧ b.work (hodCtx s).grid 0 = [((-1, 0), .fill)] ∧ (b.field 0x0F 1).testBit 7 = false ∧
        endCode (b.fillStrips (hodCtx s) ((b.field 0x0F 1).testBit 6) (b.work (hodCtx s).grid 0) s).1 = 0 ∧ ((b.elems (-1, 0)).map fun e => e.1 / 4).Nodup ∧
        (∀ e ∈ b.elems (-1, 0), e.1 % 4 = 0) ∧ (s.team? 0).map (fun t => (teamMemWf t, t.beads.map fun x => x.slot)) = some (true, [3])) :=
  ⟨by decide +kernel, by decide +kernel, fun ctl h => by fin_cases h <;> decide +kernel⟩

/-- An operation that arrives, in slot 3, after the arrival of a higher slot in the same clock, and without one; and one into a column whose bus is frozen. -/
theorem witness_EngineEvents_BeadWaits :
    (let b := beadCmd 4 0xC0 2
     let s := lastArrival 22 (beadState b)
     (b.check s (hodCtx s) 0).map endCode = none ∧ (b.field 0x0F 1).testBit 7 = true ∧ b.field 0x0F 1 % 16 = 0 ∧ engineLate 0 0 (17 + 3) s = true ∧
       b.frozen s (hodCtx s) 0 = false ∧ engineLate 0 0 (17 + 3) (lastArrival 21 s) = false ∧
       endCode (b.fillStrips (hodCtx s) true (b.work (hodCtx s).grid 0) s).1 = 0) ∧
    (let b := { beadCmd 4 0 2 with desc := (beadCmd 4 0 2).desc + 0x400000 }
     let s := frozenColumn (beadState b)
     (b.check s (hodCtx s) 0).map endCode = none ∧ b.frozen s (hodCtx s) 0 = true) :=
  ⟨by decide +kernel, by decide +kernel⟩

/-! ### Ends -/

/-- Its one group ended, with a cause or none; its Trowel in a status; its own cause, or none. -/
def endingState (code : Option Code) (cause : Option Code) (w : TrowelStatus) (t : Team → Team := id) : State :=
  { stateOf { smallGroup doneSlice [] with ended := decide (code = none), endCause := cause } (fun x => t { x with ending := code, trowel := some { status := w } }) with arg := .one 0 }

/-- Of a team: its cause, its groups' ends, their causes and their runs, and whether work is left. -/
def endView (t : Team) : Option Code × List (Bool × Option Code × Bool) × Bool :=
  (t.ending, t.groups.map (fun g => (g.ended, g.endCause, g.mac.isEmpty)), t.hods.isEmpty && t.beads.isEmpty && !t.hodch.busy)

/-- A team ends with a cause of its own; with none; with that of a handler; with that of its Trowel, halted or in TBAR.WT. -/
theorem witness_TeamsAndGridsEnd_TeamEnds :
    ∀ x ∈ [((some 0x0304 : Option Code), (none : Option Code), TrowelStatus.finished), (none, none, .finished), (none, some 0x0201, .finished),
        (none, none, .halted 0x0204), (none, none, .waiting 3 1)], let s := endingState x.1 x.2.1 x.2.2
      s.colls = [] ∧ memWf s ∧ l1Wf (s.core 0) ∧ (s.core 0).bins = [] ∧
        (s.team? 0).any (fun t => decide (endView t = (x.1, [(decide (x.1 = none), x.2.1, true)], true)) && t.trowel.any fun w => decide (w.status = x.2.2 ∧ w.tape.mode = .off)) = true :=
  fun x h => by fin_cases h <;> decide +kernel

/-- A team does not end while a Hod command is left, or a group has not ended. -/
theorem witness_TeamsAndGridsEnd_TeamStays :
    (((hodState 0).team? 0).map fun t => decide (t.hods = [])) = some false ∧ (one []).team? 0 ≠ none ∧
      ((one []).team? 0).any (fun t => t.groups.any fun g => !g.ended && decide (t.ending = none)) = true :=
  ⟨by decide +kernel, by decide +kernel, by decide +kernel⟩

/-- Every team of a grid has ended, with no cause or with two; the record goes to COMPLVA. -/
def overState (ends : List TeamEnd) (complva : Nat) (r : Grid → Grid := id) : State :=
  { eventState (.one 0) with hbmUp := 0xFFF, grids := [r { (field 0x90 complva (field 0x18 1 probeGrid)) with nextTeam := 2, ends := ends }] }

theorem witness_TeamsAndGridsEnd_GridEnds :
    (∀ ends ∈ [[(⟨0, 0, 5⟩ : TeamEnd), ⟨1, 0, 6⟩], [⟨0, 0x0201, 9⟩, ⟨1, 0x0302, 6⟩]], ∀ a ∈ [0, 1], let s := overState ends a
      linkFree s ∧ (s.grid? 0).any (fun g => gridOver s g && decide (g.field 0x90 8 = a) && (g.node.isNone && decide (g.queue < 1024 ∧ g.cutClk = none ∧ g.pins = []))) = true ∧
        ((∀ e ∈ ends, e.code = 0) ∨ ∀ x ∈ ends, x.code ≠ 0 → x ≠ ⟨1, 0x0302, 6⟩ → 6 < x.clk) ∧ s.colls = []) ∧
    (let s := withWord 0x100 (0x3 + 2 ^ 52) (overState [] 0 fun g => { g with cut := 2, cutClk := some 4, pins := [0x100] })
     memWf s ∧ entryPin (l2Read64 s 0x100) = 1 ∧ (s.grid? 0).any (fun g => gridOver s g && decide (g.cutClk = some 4 ∧ g.pins = [0x100] ∧ g.ends = [])) = true) ∧
    (let s := lowTables 0x7F (overState [⟨0, 0, 5⟩, ⟨1, 0, 6⟩] 0x40 fun g => { g with root := 0x10000 })
     ∃ g, s.grid? 0 = some g ∧ g.pins = [] ∧ s.heldRefl = [] ∧ g.field 0x90 8 = 0x40 ∧
       ∃ s2, agentWrite (dropFifo g.uid s) g.root 0x40 ((gridCompletion g (s.gridColl? g)).bytes s.clk) true = .ok [] s2) :=
  ⟨fun ends h a ha => by fin_cases h <;> fin_cases ha <;> decide +kernel, by decide +kernel, ⟨_, rfl, rfl, rfl, by decide +kernel, _, write_low (by decide +kernel) _ _ true (by simp [Completion.bytes, length_bytesOfNat])⟩⟩

/-! ### Graphs -/

/-- A graph that has reached the node at 0x40, whose 64 bytes are `node`; virtual addresses below 1 GiB are physical ones. -/
def graphState (node : List Byte) (w : GraphRun → GraphRun := id) (leaf : Nat := 0x7F) : State :=
  withBytes 0x40 node (lowTables leaf { eventState (.node 0 0x40) with graphs := [w { uid := 0, queue := 5, asid := 0, root := 0x10000, complva := 0, headSeq := 0, reached := [0x40] }] })

/-- A node at 0x40 of 64 bytes: kind, count, the next five, NEXT0, NEXT1, and what follows at 0x18. -/
def nodeOf (kind : Byte) (count : Byte) (rest : List Byte) : List Byte := [kind, count, 0, 0, 0, 0, 0, 0] ++ bytesOfNat 8 0x80 ++ bytesOfNat 8 0xC0 ++ rest

/-- A graph has reached the node. -/
abbrev fresh (s : State) (node : BitVec 64) : Prop :=
  s.arg = .node 0 node ∧ (s.graph? 0).any (fun w => decide (w.stop = false ∧ w.reached = [node] ∧ w.running = [] ∧ w.root = 0x10000)) = true

/-- The bytes of the node at 0x40. -/
def nodeAt (s : State) : List Byte := l2Reads s (rangeFrom 0x40 64)

/-- An access of an agent that comes to nothing, and one that waits. -/
def endOf (d : EngDone) : Nat := match d with
  | .ok _ _ => 0
  | .locked => 1
  | .lost => 2

/-- A node that is not aligned, that cannot be read, and that is locked; and nodes that are none. -/
theorem witness_GraphEvents_BadNodes :
    fresh { graphState [] (fun w => { w with reached := [0x41] }) with arg := .node 0 0x41 } 0x41 ∧
    (let s : State := { graphState [] (fun w => { w with reached := [0x40000000] }) with arg := .node 0 0x40000000 }
     fresh s 0x40000000 ∧ endOf (agentRead s 0x10000 0x40000000 64 true) = 2) ∧
    (let s := graphState [] id 0x17F
     fresh s 0x40 ∧ endOf (agentRead s 0x10000 0x40 64 true) = 1) ∧
    (∀ n ∈ [nodeOf 7 0 [], nodeOf 0 0 [], [(2 : Byte), 0, 1], nodeOf 1 0 (bytesOfNat 8 0x100 ++ bytesOfNat 8 1024), nodeOf 1 0 (bytesOfNat 8 0x101),
        nodeOf 3 0 (List.replicate 0x16 0 ++ bytesOfNat 2 1024), nodeOf 3 0 (List.replicate 0x1A 0 ++ [1])],
      fresh (graphState n) 0x40 ∧ Low (graphState n) ∧ (nodeAt (graphState n)).take n.length = n) :=
  ⟨by decide +kernel, by decide +kernel, by decide +kernel, by decide +kernel⟩

/-- A branch whose condition holds for VALUE 0, and not for 1. -/
def branchNode (v : Nat) : State := graphState (nodeOf 4 0 (bytesOfNat 8 0x20 ++ bytesOfNat 8 1 ++ bytesOfNat 8 v))
/-- A while node of VALUE, LIMIT and COUNT. -/
def whileNode (x : Nat × Nat × Nat) : State :=
  graphState (nodeOf 5 0 (bytesOfNat 8 0x20 ++ bytesOfNat 8 1 ++ bytesOfNat 8 x.1 ++ bytesOfNat 4 x.2.1 ++ bytesOfNat 4 x.2.2)) fun w => { w with zeroed := [0x40] }
/-- A join of `n` arrivals. -/
def joinNode (n : Byte) : State := graphState (nodeOf 6 n [])

/-- A copy node; a branch whose condition holds and one whose does not; a while node at its limit, below it, and with a condition that does not hold;
a join before and at its last arrival. -/
theorem witness_GraphEvents_Nodes :
    (let s := graphState (nodeOf 2 0 (bytesOfNat 8 0x100 ++ bytesOfNat 8 0x200 ++ bytesOfNat 8 16))
     fresh s 0x40 ∧ Low s ∧ natOfBytes ((nodeAt s).take 1) = 2) ∧
    (∀ v ∈ [0, 1], fresh (branchNode v) 0x40 ∧ Low (branchNode v) ∧ natOfBytes (((nodeAt (branchNode v)).drop 0x20).take 8) = 1 ∧
      natOfBytes (((nodeAt (branchNode v)).drop 0x28).take 8) = v ∧ natOfBytes (l2Reads (branchNode v) (rangeFrom 0x20 8)) = 0) ∧
    (∀ x ∈ [(0, 3, 3), (0, 4, 3), (1, 3, 0)], fresh (whileNode x) 0x40 ∧ Low (whileNode x) ∧ natOfBytes (((nodeAt (whileNode x)).drop 0x30).take 4) = x.2.1 ∧
      natOfBytes (((nodeAt (whileNode x)).drop 0x34).take 4) = x.2.2 ∧ natOfBytes (((nodeAt (whileNode x)).drop 0x28).take 8) = x.1 ∧
      ∀ v ∈ [x.2.2, x.2.2 + 1], (l2Writes (whileNode x) (rangeFrom 0x74 4) (bytesOfNat 4 v)).graphs = (whileNode x).graphs ∧
        (l2Writes (whileNode x) (rangeFrom 0x74 4) (bytesOfNat 4 v)).clk = (whileNode x).clk) ∧
    (∀ n ∈ [(1 : Byte), 2], fresh (joinNode n) 0x40 ∧ Low (joinNode n) ∧ natOfBytes (((nodeAt (joinNode n)).drop 1).take 1) = n.toNat ∧
      natOfBytes (((nodeAt (joinNode n)).drop 0x18).take 1) = 0 ∧ ∀ v ∈ [0, 1], (l2Writes (joinNode n) (rangeFrom 0x58 1) (bytesOfNat 1 v)).graphs = (joinNode n).graphs) :=
  ⟨by decide +kernel, by decide +kernel, by decide +kernel, by decide +kernel⟩

/-- The accesses of those nodes: the node, the condition, COUNT and ARRIVED. -/
theorem witness_GraphEvents_accesses (s : State) (hs : Low s) :
    agentRead s 0x10000 0x40 64 true = .ok (nodeAt s) s ∧ agentRead s 0x10000 0x20 8 true = .ok (l2Reads s (rangeFrom 0x20 8)) s ∧
      (∀ v, agentWrite s 0x10000 0x74 (bytesOfNat 4 v) true = .ok [] (l2Writes s (rangeFrom 0x74 4) (bytesOfNat 4 v))) ∧
      ∀ v, agentWrite s 0x10000 0x58 (bytesOfNat 1 v) true = .ok [] (l2Writes s (rangeFrom 0x58 1) (bytesOfNat 1 v)) :=
  ⟨read_low hs _ _ _ (by decide), read_low hs _ _ _ (by decide), fun v => by
    rw [write_low hs _ _ _ (by simp [length_bytesOfNat]), length_bytesOfNat], fun v => by rw [write_low hs _ _ _ (by simp [length_bytesOfNat]), length_bytesOfNat]⟩

/-- A kernel node whose queue 5 has another record pending, or is free. -/
def kernelNode (busy : Bool) : State :=
  { graphState (nodeOf 1 0 (bytesOfNat 8 0x100 ++ bytesOfNat 8 5)) with queues := [(5, { en := true, log2n := 1, pending := if busy then [9] else [] })] }

/-- A kernel node waits for its queue, or its record of zeros is entered, to be refused. -/
theorem witness_GraphEvents_KernelNodes :
    (∀ busy ∈ [false, true], fresh (kernelNode busy) 0x40 ∧ Low (kernelNode busy) ∧ natOfBytes ((nodeAt (kernelNode busy)).take 1) = 1 ∧ nodeQueueFree (kernelNode busy) 5 = !busy) ∧
    (let s := kernelNode false
     agentRead s 0x10000 0x100 256 true = .ok (l2Reads s (rangeFrom 0x100 256)) s ∧ l2Reads s (rangeFrom 0x100 256) = List.replicate 256 0 ∧
       (enterRecord (newGrid s 5 (List.replicate 256 0) (some (0, 0x40)))
        (s.updGraph 0 fun w => { w with reached := w.reached.erase 0x40, running := w.running ++ [(0x40, 0x80, 0xC0)] })).isSome = true) :=
  ⟨by decide +kernel, read_low (by decide +kernel) _ _ _ (by decide), by decide +kernel, by decide +kernel⟩

/-- A copy that is done and one whose source cannot be read; and a graph with nothing left. -/
theorem witness_GraphEvents_Ends :
    (let s := graphState [] fun w => { w with reached := [], running := [(0x40, 0x80, 0)], copies := [(0x40, 0x100, 0x200, 16)] }
     ((s.graph? 0).bind fun w => w.copies.find? fun c => decide (c.1 = 0x40)) = some (0x40, 0x100, 0x200, 16) ∧
       agentRead s 0x10000 0x100 16 false = .ok (l2Reads s (rangeFrom 0x100 16)) s ∧
       agentWrite s 0x10000 0x200 (List.replicate 16 0) false = .ok [] (l2Writes s (rangeFrom 0x200 16) (List.replicate 16 0)) ∧
       (l2Writes s (rangeFrom 0x200 16) (List.replicate 16 0)).graphs = s.graphs) ∧
    (let s := graphState [] fun w => { w with reached := [], running := [(0x40, 0, 0)], copies := [(0x40, 0x40000000, 0x200, 16)] }
     s.arg = .node 0 0x40 ∧ endOf (agentRead s 0x10000 0x40000000 16 false) = 2) ∧
    (let s := { graphState [] (fun w => { w with reached := [] }) with arg := .one 0 }
     (s.graph? 0).map (fun w => (w.reached, w.running.length, w.complva, w.node)) = some ([], 0, 0, none) ∧ linkFree s) :=
  ⟨⟨by decide +kernel, read_low (by decide +kernel) _ _ _ (by decide), write_low (by decide +kernel) _ _ _ (by decide), by decide +kernel⟩, by decide +kernel, by decide +kernel⟩

/-! ### Pre-emption -/

/-- The state of XCTL, and grids and teams. -/
def xctlState (a : EventArg) (l : LathRegs → LathRegs) (gs : List Grid) (ts : List Team) : State :=
  { eventState a with lath := l (eventState a).lath, grids := gs, teams := ts, base := BitVec.allOnes 64, hbmUp := 0xFFF }

/-- An operation in progress on grid 0, the image area being `len` bytes at virtual address 0, its leaf pinned. -/
def xctlRuns (op : BitVec 3) (len : BitVec 48) (l : LathRegs) : LathRegs := { l with xcBusy := true, xcOp := op, xcPins := [0x20000], ximgLen := len }

/-- The grid of the tables at 0x10000, with a team suspended as `xs` say, held by the operation. -/
def heldGrid (xs : List SavedTeam) : Grid := { probeGrid with root := 0x10000, held := true, suspended := xs }

/-- A suspended team whose image of 256 bytes stands at virtual address 0x100000. -/
def aSaved : SavedTeam := { base := 0x100000, len := 256, seq := 0, team := { probeTeam with trowel := none }, bins := [] }

/-- RESTORE goes on with that team. -/
def restoring : State := lowTables 0x7F (xctlState .nothing (xctlRuns 2 256) [heldGrid [aSaved]] [])

/-- PREEMPT goes on with the probe team. -/
def saving : State := lowTables 0x7F (xctlState .nothing (xctlRuns 1 0x40000) [heldGrid []] [{ probeTeam with trowel := none }])

theorem l2Writes_grids (pas : List Nat) (bs : List Byte) (s : State) : (l2Writes s pas bs).grids = s.grids := by
  induction pas generalizing bs s with
  | nil => cases bs <;> rfl
  | cons a pas ih =>
    cases bs with
    | nil => rfl
    | cons b bs => rw [l2Writes, ih]; rfl

/-- A write of fewer than 2^30 bytes from virtual address 0 succeeds, and changes no grid. -/
theorem saving_writes (bs : List Byte) (h : bs.length ≤ 2 ^ 30) : ∃ s1, agentWrite saving 0x10000 0 bs true = .ok [] s1 ∧ s1.grids = saving.grids :=
  ⟨_, write_low (by decide +kernel) 0 bs true (by omega), l2Writes_grids _ bs saving⟩

theorem l2Read_l2WriteBytes (bs : List Byte) (s : State) (a x : Nat) (hw : memWf s = true) :
    l2Read (l2WriteBytes s a bs) x = if a ≤ x ∧ x < a + bs.length then nth bs (x - a) 0 else l2Read s x := by
  induction bs generalizing s a with
  | nil => simp only [l2WriteBytes, List.length_nil]; rw [if_neg (by omega)]
  | cons b bs ih =>
    rw [l2WriteBytes, ih _ _ (l2Write_wf s a b hw), l2Read_l2Write s a x b hw]
    by_cases h1 : x = a
    · subst h1
      rw [if_neg (by omega), if_pos rfl, if_pos ⟨by omega, by simp⟩, Nat.sub_self]; rfl
    · by_cases h2 : a + 1 ≤ x ∧ x < a + 1 + bs.length
      · rw [if_pos h2, if_pos ⟨by omega, by simp; omega⟩, show x - a = (x - (a + 1)) + 1 by omega]; rfl
      · rw [if_neg h2, if_neg fun h => h1 h.symm, if_neg (by simp; omega)]

/-- A word below the bytes written is read as before. -/
theorem word_below (s : State) (a x : Nat) (bs : List Byte) (hw : memWf s = true) (h : x + 8 ≤ a) : l2Read64 (l2WriteBytes s a bs) x = l2Read64 s x := by
  unfold l2Read64 l2ReadBytes bytesAt
  congr 2
  refine List.map_congr_left fun j hj => ?_
  have : j < 8 := List.mem_range.1 hj
  exact (l2Read_l2WriteBytes bs s a (x + j) hw).trans (if_neg (by omega))

/-- The header of an image of 256 bytes, of no body, up to its digest. -/
def savedHead : List Byte := bytesOfNat 4 0x54584943 ++ bytesOfNat 2 1 ++ [0, 0] ++ bytesOfNat 8 256 ++ List.replicate 48 0
/-- The image: the digest is that of no bytes. -/
def savedImage : List Byte := savedHead ++ (bytesOfNat 32 (Config.shake256 []).toNat ++ List.replicate 160 0)

theorem savedImage_length : savedImage.length = 256 := by simp [savedImage, savedHead, length_bytesOfNat]

theorem savedImage_field (o n : Nat) (h : o + n ≤ 64) : bytesFld savedImage o n = bytesFld savedHead o n := by
  have : savedHead.length = 64 := by simp [savedHead, length_bytesOfNat]
  simp only [bytesFld, savedImage]
  rw [List.drop_append_of_le_length (by omega), List.take_append_of_le_length (by simp; omega)]

theorem savedImage_verifies : imageVerifies 256 savedImage = true := by
  have hd : bytesFld savedImage 0x40 32 = (Config.shake256 []).toNat := by
    have := bytesFld_mid savedHead (bytesOfNat 32 (Config.shake256 []).toNat) (List.replicate 160 0)
    rw [length_bytesOfNat, natOfBytes_bytes] at this
    rw [show (0x40 : Nat) = savedHead.length by simp [savedHead, length_bytesOfNat], savedImage, this]
    exact Nat.mod_eq_of_lt (Config.shake256 []).isLt
  have hz : bytesFld savedImage 0x90 112 = 0 := by
    simp only [bytesFld, savedImage, ← List.append_assoc]
    rw [List.drop_append]
    simp [savedHead, length_bytesOfNat]
    decide +kernel
  have h1 : bytesFld savedImage 0 4 = 0x54584943 := (savedImage_field 0 4 (by omega)).trans (by decide +kernel)
  have h2 : bytesFld savedImage 4 2 = 1 := (savedImage_field 4 2 (by omega)).trans (by decide +kernel)
  have h3 : bytesFld savedImage 8 8 = 256 := (savedImage_field 8 8 (by omega)).trans (by decide +kernel)
  have h4 : bytesFld savedImage 0x23 1 = 0 := (savedImage_field 0x23 1 (by omega)).trans (by decide +kernel)
  have h5 : bytesFld savedImage 0x3A 6 = 0 := (savedImage_field 0x3A 6 (by omega)).trans (by decide +kernel)
  unfold imageVerifies
  simp [hd, hz, h1, h2, h3, h4, h5, show List.drop 256 savedImage = [] from List.drop_eq_nil_of_le (by rw [savedImage_length])]

theorem savedImage_fits (s : State) (h : s.level = 3) : imageCapacity s savedImage = true := by
  have e : ∀ o n, o + n ≤ 64 → bytesFld savedImage o n = bytesFld savedHead o n := savedImage_field
  unfold imageCapacity imageNeed hasCapacity
  simp only [e 0x20 1 (by omega), e 0x22 1 (by omega), e 0x1C 1 (by omega), e 0x1D 1 (by omega), e 0x30 8 (by omega), e 0x28 4 (by omega), e 0x2C 4 (by omega),
    e 0x38 2 (by omega), e 0x21 1 (by omega), h]
  decide +kernel

/-- That image in its place. -/
def restorable : State := l2WriteBytes restoring 0x100000 savedImage

theorem restoring_wf : memWf restoring = true := by decide +kernel

/-- The image does not reach the tables. -/
theorem restorable_word (x : Nat) (h : x + 8 ≤ 0x100000) : l2Read64 restorable x = l2Read64 restoring x := word_below _ _ _ _ restoring_wf h

theorem l2WriteBytes_rest (bs : List Byte) (s : State) (a : Nat) : (l2WriteBytes s a bs).hbmUp = s.hbmUp ∧ (l2WriteBytes s a bs).fencedFrames = s.fencedFrames ∧
    (l2WriteBytes s a bs).level = s.level ∧ (l2WriteBytes s a bs).cxl = s.cxl ∧ (l2WriteBytes s a bs).heldRefl = s.heldRefl := by
  induction bs generalizing s a with
  | nil => exact ⟨rfl, rfl, rfl, rfl, rfl⟩
  | cons b bs ih => exact ih _ _

theorem restorable_low : Low restorable := by
  obtain ⟨r1, r2, -, r4, -⟩ := l2WriteBytes_rest savedImage restoring 0x100000
  have hb : pageBacked restorable 0 30 = pageBacked restoring 0 30 := by simp only [pageBacked, backed, State.cxlLink, restorable, r1, r4]
  refine ⟨?_, ?_, ?_, ?_, ?_, r2⟩
  · rw [restorable_word _ (by omega)]; decide +kernel
  · rw [restorable_word _ (by omega)]; decide +kernel
  · rw [restorable_word _ (by omega)]; decide +kernel
  · rw [restorable_word _ (by omega)]; decide +kernel
  · rw [hb]; decide +kernel

/-- The image is read as it was stored. -/
theorem restorable_reads : agentRead restorable 0x10000 0x100000 256 true = .ok savedImage restorable := by
  rw [read_low restorable_low _ _ _ (by decide)]
  congr 1
  apply List.ext_getElem
  · simp [l2Reads, rangeFrom, savedImage_length]
  · intro i h1 h2
    have hi : i < 256 := by simpa [savedImage_length] using h2
    simp only [l2Reads, rangeFrom, List.map_map, List.getElem_map, List.getElem_range, Function.comp]
    rw [restorable, l2Read_l2WriteBytes _ _ _ _ restoring_wf, if_pos ⟨by omega, by rw [savedImage_length]; omega⟩, Nat.add_sub_cancel_left]
    exact List.getElem_eq_getElem?_get .. |>.symm ▸ by simp [nth, List.getD, h2]

/-- XCTL writes: busy, with no grid in the queue; RESTORE of a grid that is held, of one with a team suspended, and of one with neither. -/
theorem witness_PreemptionEvents_writes :
    (∀ op ∈ [(1 : BitVec 256), 2, 3], ∀ t : State → State, (∀ s, (t s).arg = s.arg ∧ (t s).firmware = s.firmware ∧ (t s).lath.rxSeq = s.lath.rxSeq) →
      writesReg (aFrame 0x200 op) (writeState (aFrame 0x200 op) t) 0x200) ∧
    oldestGrid (writeState (aFrame 0x200 1)) 0 = none ∧
    (∀ x ∈ [(true, ([] : List SavedTeam)), (false, [aSaved]), (false, [])],
      (oldestGrid (writeState (aFrame 0x200 2) fun s => { s with grids := [{ heldGrid x.2 with held := x.1 }] }) 0).any (fun g => decide (g.held = x.1 ∧ g.suspended = x.2)) = true) :=
  ⟨fun op _ t ht => ⟨(ht _).1, aFrame_ok _ _ _ (by rw [writeState, (ht _).2.1]; rfl) (by rw [writeState, (ht _).2.2]; rfl), rfl, rfl⟩, rfl, by decide +kernel⟩

/-- PREEMPT with nothing left to save, with a team to save, and with an area that is too small. -/
theorem witness_PreemptionEvents_Preempt :
    (let s := xctlState .nothing (xctlRuns 1 0) [heldGrid []] []
     s.arg = .nothing ∧ s.lath.xcBusy = true ∧ s.lath.xcOp = 1 ∧ s.lath.xcPins ≠ [] ∧ (s.grid? s.lath.xcGrid).isSome = true) ∧
    (saving.lath.xcBusy = true ∧ saving.lath.xcOp = 1 ∧ (saving.grid? saving.lath.xcGrid) = some (heldGrid []) ∧
      byTeam Team.teamid (saving.teams.filter fun t => decide (t.grid = (heldGrid []).uid)) = [{ probeTeam with trowel := none }] ∧
      canStop saving { probeTeam with trowel := none } = true ∧ saving.updGrid 0 (fun g => { g with held := true }) = saving ∧
      areaNext (heldGrid []) saving = 0 ∧ areaBase saving = 0 ∧ ({ probeTeam with trowel := none } : Team).atRest.imageLen (heldGrid []) ≤ 0x40000 ∧
      0 < ({ probeTeam with trowel := none } : Team).atRest.imageLen (heldGrid [])) ∧
    (∀ bs : List Byte, bs.length ≤ 2 ^ 30 → ∃ s1, agentWrite saving 0x10000 0 bs true = .ok [] s1 ∧ s1.grids = saving.grids) ∧
    (let s := xctlState .nothing (xctlRuns 1 0) [heldGrid []] [{ probeTeam with trowel := none }]
     (s.team? 0) = some { probeTeam with trowel := none } ∧ s.lath.ximgLen = 0 ∧ s.updGrid 0 (fun g => { g with held := true }) = s ∧ canStop s { probeTeam with trowel := none } = true ∧
       areaNext (heldGrid []) s = 0 ∧ areaBase s = 0) :=
  ⟨by decide +kernel, by decide +kernel, saving_writes, by decide +kernel⟩

/-- No core is online. -/
def allDark (s : State) : State := { s with base := 0 }

/-- RESTORE of an image that does not verify; of one that does, with a core and with none; and with nothing left. -/
theorem witness_PreemptionEvents_Restore :
    (restoring.lath.xcBusy = true ∧ restoring.lath.xcOp = 2 ∧ restoring.lath.xcPins ≠ [] ∧ byTeam (fun y : SavedTeam => y.team.teamid) (heldGrid [aSaved]).suspended = [aSaved] ∧
      imageVerifies 256 (l2Reads restoring (rangeFrom 0x100000 256)) = false) ∧
    agentRead restoring 0x10000 0x100000 256 true = .ok (l2Reads restoring (rangeFrom 0x100000 256)) restoring ∧
    (agentRead restorable 0x10000 0x100000 256 true = .ok savedImage restorable ∧ imageVerifies 256 savedImage = true ∧ imageCapacity restorable savedImage = true ∧
      anyOnline restorable = true ∧ chooseCore restorable (aSaved.team.need (heldGrid [aSaved])) = some 0 ∧ columnBusy restorable (heldGrid [aSaved]) 0 = false ∧
      restorable.heldRefl = [] ∧ restorable.grid? 0 = some (heldGrid [aSaved])) ∧
    (agentRead (allDark restorable) 0x10000 0x100000 256 true = .ok savedImage (allDark restorable) ∧ anyOnline (allDark restorable) = false) ∧
    (let s := xctlState .nothing (xctlRuns 2 0) [heldGrid []] []
     s.lath.xcBusy = true ∧ s.lath.xcOp = 2 ∧ s.lath.xcPins ≠ [] ∧ s.grid? s.lath.xcGrid = some (heldGrid [])) := by
  have hr : ∀ (bs : List Byte) s a, (l2WriteBytes s a bs).grids = s.grids := by
    intro bs
    induction bs with
    | nil => exact fun _ _ => rfl
    | cons b bs ih => exact fun _ _ => ih _ _
  have hd : Low (allDark restorable) := restorable_low
  refine ⟨by decide +kernel, read_low (by decide +kernel) _ _ _ (by decide), ⟨restorable_reads, savedImage_verifies, savedImage_fits _ ?_, ?_, ?_, ?_, ?_, ?_⟩, ⟨?_, ?_⟩, by decide +kernel⟩
  · exact (l2WriteBytes_rest ..).2.2.1
  · decide +kernel
  · decide +kernel
  · decide +kernel
  · exact (l2WriteBytes_rest ..).2.2.2.2
  · rw [State.grid?, restorable, hr]; decide +kernel
  · have h := restorable_reads
    rw [read_low restorable_low _ _ _ (by decide)] at h
    rw [read_low hd _ _ _ (by decide)]
    have : l2Reads (allDark restorable) (rangeFrom 0x100000 256) = savedImage := (EngDone.ok.inj h).1
    rw [this]
  · decide +kernel

/-- ABORT of a suspended team whose image verifies or not; with nothing left; and with a team that runs. -/
theorem witness_PreemptionEvents_Abort :
    (let s := lowTables 0x7F (xctlState .nothing (xctlRuns 3 0) [heldGrid [aSaved]] [])
     s.lath.xcBusy = true ∧ s.lath.xcOp = 3 ∧ s.teams = [] ∧ s.updGrid 0 (fun g => { g with held := true }) = s ∧ s.gridColl? (heldGrid [aSaved]) = none ∧ Low s) ∧
    (∀ s : State, Low s → agentRead s 0x10000 0x100000 256 true = .ok (l2Reads s (rangeFrom 0x100000 256)) s) ∧
    (∀ ts ∈ [[], [{ probeTeam with trowel := none }]], let s := xctlState .nothing (xctlRuns 3 0) [heldGrid []] ts
      s.lath.xcBusy = true ∧ s.lath.xcOp = 3 ∧ (s.grid? s.lath.xcGrid).any (fun g => g.suspended.isEmpty && g.restartQ.isEmpty) = true ∧ s.teams = ts) :=
  ⟨by decide +kernel, fun s hs => read_low hs _ _ _ (by decide), fun ts h => by fin_cases h <;> decide +kernel⟩

/-! ### Reflections and collectives -/

/-- A reflection of one word from chip `schip` of flow 0 to chip `d`, for receive entry 511. -/
def aFlit (d schip : BitVec 10) (data : List Byte := [1, 2, 3, 4]) : Flit := { serial := 7, dchip := d, schip := schip, core := 0, tx := 0, rxIdx := 511, offset := 4, data := data }

/-- A receive entry of any chip, eight bytes at 0x40 of team 0 of queue 0, or of the memory of ASID 0. -/
def rxEntryOf (team : Bool) (base : Nat := 0x40) : BitVec 256 := BitVec.ofNat 256 (1 + 4 + (if team then 8 else 0) + base * 2 ^ 64 + 8 * 2 ^ 128)

/-- It is on its way, and entry 511 is `e`; port 3, which is up, leads to chip 5. -/
def flitState (f : Flit) (e : BitVec 256) : State :=
  { mapped0 (stateOf probeGroup id (field 0x28 4096)) with
    arg := .flit f, outbox := [f], scrim := [(3, { state := 2 })], route := [(5, 8)], lath := { ({} : LathRegs) with freq := 1300 }, stuck := [(7, 1300000)], rxw := [(511, e)] }

/-- Queue 0 has ASID 0 and tables at 0x400000, whose 1 GiB at 0 is the leaf `w`. -/
def asidTables (w : Nat) (s : State) : State :=
  withWord 0x400000 0x20001 (withWord 0x20000 w { s with queues := [(0, { en := true, root := 1 })], hbmUp := 0xFFF })

/-- What an arriving reflection meets first: no other of its flow is held or locked, and it is the next of its flow. -/
abbrev comesIn (f : Flit) (s : State) : Prop :=
  s.arg = .flit f ∧ f.dchip = s.lath.chipId ∧ s.lockedRefl = [] ∧ s.heldRefl = [] ∧ firstOfFlow s f = true

/-- A route of one port that is up; no way out to chip 6 for 1 ms. -/
theorem witness_WindowEntriesAndReflections_OnTheWay :
    (let s := flitState (aFlit 5 1) 0
     (5 : BitVec 10) ≠ s.lath.chipId ∧ (List.range 48).filter (fun n => ((mapGet s.route 5).getD 0).getLsbD n) = [3] ∧ (s.scrimPort 3).state = 2 ∧ firstOfFlow s (aFlit 5 1) = true) ∧
    (let s := flitState (aFlit 6 0) 0
     (aFlit 6 0).schip = s.lath.chipId ∧ aFlit 6 0 ∈ s.outbox ∧ (aFlit 6 0).dchip ≠ s.lath.chipId ∧ (List.range 48).filter (fun n => ((mapGet s.route 6).getD 0).getLsbD n) = [] ∧
       1000 * s.lath.freq.toNat ≤ (mapGet s.stuck 7).getD 0) :=
  ⟨by decide +kernel, by decide +kernel⟩

/-- An entry that is off; of memory without a queue, with an address too high, with a page that cannot be written, and with a page that can, locked or not. -/
theorem witness_WindowEntriesAndReflections_ToMemory :
    (comesIn (aFlit 0 1) (flitState (aFlit 0 1) 0) ∧ winEn ((flitState (aFlit 0 1) 0).rxEntry 511) = false) ∧
    (∀ team, ∀ base ∈ [0x40, 0x2000, 2 ^ 57], let e := rxEntryOf team base
      winEn e = true ∧ rxAny e = true ∧ winLen e = 8) ∧
    (let s := flitState (aFlit 0 1) (rxEntryOf false)
     comesIn (aFlit 0 1) s ∧ rxKind (s.rxEntry 511) = false ∧ s.queues = []) ∧
    (let s := asidTables 0x7F (flitState (aFlit 0 1) (rxEntryOf false (2 ^ 57)))
     comesIn (aFlit 0 1) s ∧ rxKind (s.rxEntry 511) = false ∧ asidQueue s (fld256 (s.rxEntry 511) 168 12) = some { en := true, root := 1 } ∧ 2 ^ 57 ≤ fld256 (s.rxEntry 511) 64 64 + 4) ∧
    (let s := asidTables 0x77 (flitState (aFlit 0 1) (rxEntryOf false))
     comesIn (aFlit 0 1) s ∧ walk s (1 * 2 ^ 22) 0x44 = .leaf ⟨0x20000, 30, 0x77⟩ ∧ (0x77 : BitVec 64).getLsbD 3 = false) ∧
    (∀ w ∈ [0x7F, 0x17F], let s := asidTables w (flitState (aFlit 0 1 [9]) (rxEntryOf false))
      comesIn (aFlit 0 1 [9]) s ∧ walk s (1 * 2 ^ 22) 0x44 = .leaf ⟨0x20000, 30, BitVec.ofNat 64 w⟩ ∧ (BitVec.ofNat 64 w).getLsbD 3 = true ∧ entryTier (BitVec.ofNat 64 w) = false ∧
        entryLock (BitVec.ofNat 64 w) = decide (w = 0x17F) ∧ memWf s) :=
  ⟨by decide +kernel, fun t b h => by cases t <;> fin_cases h <;> exact ⟨rfl, rfl, rfl⟩, by decide +kernel, by decide +kernel, by decide +kernel, fun w h => by fin_cases h <;> decide +kernel⟩

/-- An entry of a team: with no grid in its queue; with no such team; with a team, inside its Hawk and outside; and a reflection that was held for it. -/
theorem witness_WindowEntriesAndReflections_ToTeams :
    (let s : State := { flitState (aFlit 0 1) (rxEntryOf true) with grids := [] }
     comesIn (aFlit 0 1) s ∧ rxKind (s.rxEntry 511) = true ∧ oldestGrid s (fld256 (s.rxEntry 511) 180 10) = none) ∧
    (let s : State := { flitState (aFlit 0 1) (rxEntryOf true) with teams := [] }
     comesIn (aFlit 0 1) s ∧ (oldestGrid s (fld256 (s.rxEntry 511) 180 10)).map (fun g => g.uid) = some 0) ∧
    (∀ x ∈ [(0x40, true), (0x2000, false)], let s := flitState (aFlit 0 1) (rxEntryOf true x.1)
      let e := s.rxEntry 511
      comesIn (aFlit 0 1) s ∧ rxKind e = true ∧ (oldestGrid s (fld256 e 180 10)).map (fun g => g.uid) = some 0 ∧
        (s.teams.find? (fun t => decide (t.grid = 0) && decide (t.teamid = fld256 e 96 32))).map (fun t => (t.uid, teamMemWf t)) = some (0, true) ∧
        ((s.grid? 0).map fun g => localOk g (fld256 e 64 32 + 4) 4) = some x.2 ∧ (s.core 0).frozen = none ∧ s.lath.colBusy = false) ∧
    (let s : State := { flitState (aFlit 0 1) (rxEntryOf true) with outbox := [], heldRefl := [(0, rxEntryOf true, aFlit 0 1)] }
     s.lockedRefl = [] ∧ s.heldRefl = [(0, rxEntryOf true, aFlit 0 1)] ∧ s.rxEntry 511 = rxEntryOf true) :=
  ⟨by decide +kernel, by decide +kernel, fun x h => by fin_cases h <;> decide +kernel, by decide +kernel⟩

/-- A header of two participants. -/
def aHeader (rank : Nat) (op : BitVec 4) : CollHeader :=
  { collId := 3, inst := 1, op := op, ty := 0, mode := false, count := 1, npart := 2, teams := 1, listCrc := 0, rank := rank, nq := 0, quant := [], members := 1, valid := true }

/-- A chunk of rank `r`. -/
def aChunk (r : Nat) : CollChunk := { collId := 3, inst := 1, chunk := 0, rank := r, data := [9, 8, 7, 6, 5, 4, 3, 2], flags := 0, last := true }

/-- The grid of the instance: operation `op` on one element of F64 of two participants, whose list is at 0x100 and result at 0x40. -/
def collGrid (op : Nat) : Grid :=
  { (field 0x98 0x100 (field 0xA0 0x40 (field 0xA8 1 (field 0xAC 3 (field 0xAE op (field 0xB0 2 probeGrid)))))) with root := 0x10000, leases := [⟨0, 65536, true, true, true⟩] }

/-- The instance of that grid, as `c` changes it; chips 0 and 1 take part. -/
def collState (a : EventArg) (op : Nat) (c : Coll → Coll) (leaf : Nat := 0x7F) : State :=
  withBytes 0x100 [0, 0, 1, 0] (lowTables leaf { eventState a with
    grids := [collGrid op], lath := { ({} : LathRegs) with colltmo := 2, freq := 650 }, clk := 1301
    colls := [c { collId := 3, inst := 1, grid := 0 }] })

/-- A header for an instance that is armed, that runs or has ended, and that checks: a second one that is not valid, first ones that differ, are not valid, have
a rank too high or one heard before, and the last that agrees. -/
theorem witness_CollectiveEvents_Headers :
    (∀ st ∈ [CollState.armed, .run, .done, .abort, .check], let s := collState (.header (aHeader 1 4)) 4 fun c => { c with state := st, hdr := some (aHeader 0 4), heard := [aHeader 0 4] }
      (s.coll? 3 1).any (fun c => decide (c.state = st ∧ c.hdr = some (aHeader 0 4) ∧ c.heard = [aHeader 0 4] ∧ c.areas = [] ∧ c.grid = 0)) = true ∧ (s.grid? 0).isSome = true) ∧
    (({ aHeader 1 4 with second := true, valid := false } : CollHeader).second = true ∧ sameHeader (aHeader 1 5) (aHeader 0 4) = false ∧
      ({ aHeader 1 4 with valid := false } : CollHeader).valid = false ∧ (aHeader 0 4).npart ≤ (aHeader 2 4).rank ∧ (aHeader 0 4).rank ∈ [aHeader 0 4].map (·.rank)) ∧
    ((∀ x ∈ [aHeader 0 4, aHeader 1 4], sameHeader x (aHeader 0 4) = true ∧ x.valid = true ∧ x.rank < 2) ∧ ([aHeader 0 4, aHeader 1 4].map fun h => h.rank).Nodup ∧ (aHeader 0 4).op ≠ 6) :=
  ⟨fun st h => by fin_cases h <;> decide +kernel, by decide +kernel, by decide +kernel⟩

/-- An ENS instance whose participants have been heard: a result area that is covered, one that is not, and too many members. -/
theorem witness_CollectiveEvents_Areas :
    (∀ x ∈ [(1, true, true), (1, false, false), (40000, true, false)], let hs : List CollHeader := [{ aHeader 0 6 with members := x.1 }, { aHeader 1 6 with members := x.1 }]
      let s0 := collState (.two 3 1) 6 fun c => { c with state := .check, hdr := some { aHeader 0 6 with members := x.1 }, heard := hs }
      let s : State := { s0 with grids := s0.grids.map fun g => { g with leases := [⟨0, 65536, true, x.2.1, true⟩] } }
      (s.coll? 3 1).any (fun c => decide (c.state = .check ∧ c.areas = [] ∧ c.heard = hs)) = true ∧
        (∀ y ∈ hs, sameHeader y { aHeader 0 6 with members := x.1 } = true ∧ y.valid = true ∧ y.rank < 2) ∧ (hs.map (·.rank)).Nodup ∧ hs.length = 2 ∧
        ((decide ((hs.map (·.members)).sum ≤ 65536) && (s.grid? 0).any fun g => g.collCovers .rw 0x40 (g.collCount * 24 + 8 * ((hs.map (·.members)).sum + 1))) = x.2.2)) :=
  fun x h => by fin_cases h <;> decide +kernel

/-- A chunk that has been fired; and one of an instance that runs, and of one that is armed, whose list and data are read. -/
theorem witness_CollectiveEvents_Firing :
    (∀ x ∈ [(CollState.run, some (aHeader 0 1)), (.armed, none)], let c : Coll := { collId := 3, inst := 1, grid := 0, state := x.1, hdr := x.2 }
      let s := collState .nothing 1 fun _ => c
      s.gridColl? (collGrid 1) = some c ∧ Low s ∧ (collGrid 1).collCfg 0 4 = 1 ∧ (collGrid 1).field 0x98 8 = 0x100 ∧ (collGrid 1).npart = 2 ∧ l2Reads s (rangeFrom 0x100 4) = [0, 0, 1, 0] ∧
        (x.2.getD (ownHeader s (collGrid 1) 1 [0, 0, 1, 0] [])).valid = true ∧ (collGrid 1).teamRange 0 = (0, 1)) ∧
    (∀ s : State, Low s → agentRead s 0x10000 0x100 4 false = .ok (l2Reads s (rangeFrom 0x100 4)) s ∧ agentRead s 0x10000 0x40 8 false = .ok (l2Reads s (rangeFrom 0x40 8)) s) :=
  ⟨fun x h => by fin_cases h <;> decide +kernel, fun s hs => ⟨read_low hs _ _ _ (by decide), read_low hs _ _ _ (by decide)⟩⟩

/-- A chunk that comes; a chunk of which a part is missing, and one with its parts. -/
theorem witness_CollectiveEvents_Chunks :
    ((collState (.chunk (aChunk 1)) 1 fun c => { c with state := .run, hdr := some (aHeader 0 1), inputs := [aChunk 0] }).coll? 3 1).any
      (fun c => decide (c.state = .run) && c.inputs.all fun y => !(decide (y.chunk = (aChunk 1).chunk) && decide (y.rank = (aChunk 1).rank))) = true ∧
    (∀ ins ∈ [[aChunk 0], [aChunk 0, aChunk 1]], let s := collState (.gang 3 1 0) 1 fun c => { c with state := .run, hdr := some (aHeader 0 1), inputs := ins }
      (s.coll? 3 1).any (fun c => decide (c.state = .run ∧ c.reduced = [] ∧ c.inputs = ins ∧ c.hdr = some (aHeader 0 1))) = true ∧ (s.grid? 0).map (fun g => g.chunkCount) = some 1 ∧
        ((List.range 2).all fun r => ins.any fun x => decide (x.chunk = 0) && decide (x.rank = r)) = decide (ins.length = 2)) :=
  ⟨by decide +kernel, fun x h => by fin_cases h <;> decide +kernel⟩

/-- A chunk of chip 5 whose header comes while the instance runs, when it is done and when it has gone; and one whose header has been heard. -/
theorem witness_CollectiveEvents_LateHeaders :
    let f : CollFlit := { dchip := 0, schip := 5, flow := 3, msg := .chunk (aHeader 1 1) (aChunk 1) }
    (∀ st ∈ [CollState.run, .done], let s := collState (.coll f) 1 fun c => { c with state := st, heard := [aHeader 0 1] }
      f.dchip = s.lath.chipId ∧ (s.coll? 3 1).any (fun c => decide (c.state = st) && !c.heard.contains (aHeader 1 1)) = true) ∧
    (let s : State := { eventState (.coll f) with collCount := [(3, 1)] }
     f.dchip = s.lath.chipId ∧ s.coll? 3 1 = none ∧ (aHeader 1 1).inst ≤ (mapGet s.collCount 3).getD 0) ∧
    ((collState (.coll f) 1 fun c => { c with heard := [aHeader 1 1] }).coll? 3 1).any (fun c => c.heard.contains (aHeader 1 1)) = true :=
  ⟨fun x h => by fin_cases h <;> decide +kernel, by decide +kernel, by decide +kernel⟩

/-- A result whose page is locked, is not there, and can be written; instances in each state that an abort and COLLTMO end. -/
theorem witness_CollectiveEvents_ResultsAndEnds :
    (∀ w ∈ [0x17F, 0, 0x7F], let s := collState (.chunk (aChunk 0)) 1 (fun c => { c with state := .run, results := [aChunk 0], reduced := [0] }) w
      (s.coll? 3 1).any (fun c => decide (c.state = .run ∧ c.results = [aChunk 0] ∧ c.reduced = [0])) = true ∧ (collGrid 1).teamRange 0 = (0, 1) ∧ (collGrid 1).field 0xA0 8 = 0x40 ∧
        endOf (agentWrite s 0x10000 0x40 (aChunk 0).data false) = (if w = 0x17F then 1 else if w = 0 then 2 else 0) ∧
        (l2Writes s (rangeFrom 0x40 8) (aChunk 0).data).colls = s.colls) ∧
    (∀ st ∈ [CollState.armed, .check, .run], ∀ a ∈ [EventArg.two 3 1, .gang 3 1 0x0302], ((collState a 1 fun c => { c with state := st }).coll? 3 1).map (fun c => c.state) = some st) ∧
    (∀ st ∈ [CollState.check, .run], let s := collState (.two 3 1) 1 fun c => { c with state := st }
      (s.coll? 3 1).map (fun c => c.state) = some st ∧ s.lath.colltmo ≠ 0 ∧ (s.coll? 3 1).any (fun c => decide (c.firstFire + s.lath.colltmo.toNat * s.lath.freq.toNat < s.clk)) = true) :=
  ⟨fun w h => by fin_cases h <;> decide +kernel, fun st h a ha => by fin_cases h <;> fin_cases ha <;> decide +kernel, fun st h => by fin_cases h <;> decide +kernel⟩

/-- A step for chip 5, by port 3. -/
def aCollFlit : CollFlit := { dchip := 5, schip := 0, flow := 3, msg := .abort 3 1 0x0503 }

/-- It leaves where the port is up, and waits where it is down; an ALLTOALL whose counts are too large and one whose are not; a sum of two elements, of each kind of TYPE. -/
theorem witness_CollectiveEvents_OnTheWay :
    (∀ up ∈ [(2 : BitVec 3), 0], let s : State := { eventState (.coll aCollFlit) with collOut := [aCollFlit], scrim := [(3, { state := up })], route := [(5, 8)] }
      aCollFlit.dchip ≠ s.lath.chipId ∧ (List.range 48).filter (fun n => ((mapGet s.route 5).getD 0).getLsbD n) = [3] ∧ (s.scrimPort 3).state = up ∧
        (s.collOut.find? fun g => sameCollFlow g aCollFlit) = some aCollFlit) ∧
    (∀ n ∈ [1, 2], let c : Coll := { collId := 3, inst := 1, grid := 0, inputs := [{ aChunk 0 with data := bytesOfNat 8 n ++ bytesOfNat 8 0 ++ [7] }, { aChunk 1 with data := bytesOfNat 16 0 }] }
      let count (j i : Nat) : Nat := bytesFld (((c.inputs.find? fun x => decide (x.chunk = 0) && decide (x.rank = j)).map (·.data)).getD []) (8 * i) 8
      ((List.range 2).any fun j => decide ((collGrid 5).collCount < ((List.range 2).map (count j)).sum)) = decide (n = 2)) ∧
    (collFmt 0 = some fmtF64 ∧ collFmt 5 = none ∧ 2 ≤ [1, 2].length ∧ 1 < 2 * fmtF64.signBit ∧ collKey 0 1 ≠ none ∧ fmtF64.infBits < (fmtF64.infBits + 1) % fmtF64.signBit) :=
  ⟨fun x h => by fin_cases h <;> decide +kernel, by decide +kernel, by decide +kernel⟩

/-! ### Encoding and steps -/

theorem witness_DecodeAndEncodeAgree :
    encode (.add 1 3 0x60 5) = some 0b001001_00000_0000011_1100000_0000101 ∧ decodeRaw 0b001001_00000_0000011_1100000_0000101 = some (.add 1 3 0x60 5) := by decide

/-- A gang at a placed word: the agenda names it, no cause is due, and its word is fetched and decodes to `j`, or to none. -/
def fetches (w : Nat) (j : Option Instr) : Bool :=
  let s := State.reset.withFetchWord 32 w
  match nextTurn s with
  | (some (.gang 0 0 0), s1) =>
    !causeDue s1 0 0 && decide (gangTurn s1 0 0 0 = 0) && match issueOf s1 0 0 0 true with
      | some c => c.mac.isNone && c.team.ending.isNone && !c.group.ended && leaseOk c.grid none .x c.pc.toNat 4 &&
          match translateAll s1 c.team.core c.grid.asid c.grid.root false (accessBytes c.grid none c.pc.toNat 4) with
          | .ok pas s2 => (match decodeBytes (l2Reads s2 pas) with
            | .ok (i, []) => decide (some i = j)
            | .ok _ => false
            | .error _ => decide (j = none)) && (issueOf s2 0 0 0 false).isSome
          | _ => false
      | none => false
  | _ => false

/-- The Trowel at a placed word of its stream. -/
def fetchesTrowel (w : Nat) (j : Instr) : Bool :=
  let s := State.reset.withFetchWord 32 w
  match nextTurn s with
  | (some (.trowel 0), s1) => match s1.team? 0, s1.grid? 0 with
    | some t, some gr => match t.trowel with
      | some x => decide (x.status = .running) && t.ending.isNone && decide (gr.tbase ≤ x.pc.toNat) && decide (x.pc.toNat + 4 ≤ gr.tbase + gr.tlen) && leaseOk gr none .x x.pc.toNat 4 &&
          match translateAll s1 t.core gr.asid gr.root false (accessBytes gr none x.pc.toNat 4) with
          | .ok pas s2 => (match decodeBytes (l2Reads s2 pas) with
            | .ok (i, []) => decide (i = j)
            | _ => false)
          | _ => false
      | none => false
    | _, _ => false
  | _ => false

/-- The turn after which nothing is left of the agenda. -/
def turnOf (s : State) : Option Turn := (nextTurn s).1

/-- A gang at NOP and at an unassigned word; the Trowel at TEND; a gang in a microprogram; an event; and no agent that moves. -/
theorem witness_StepRunsTheDecodedInstruction :
    fetches 0x0CC00000 (some .nop) = true ∧ fetches 0x3C000000 none = true ∧ fetchesTrowel ((encode .tend).getD 0).toNat .tend = true ∧
    (let s := { macroState 0 with agenda := [.gang 0 0 0] }
     turnOf s = some (.gang 0 0 0) ∧ causeDue s 0 0 = false ∧ (issueOf s 0 (gangTurn s 0 0 0) 0 true).isSome = true ∧
       (issueOf s 0 0 (gangTurn s 0 0 0) true).any (fun c => c.mac.any fun m => match m.fetch with
        | .instr j => decide (j = .add 0 0 0 0)
        | _ => false) = true) ∧
    turnOf { State.reset with agenda := [.event .powerRemoved .nothing] } = some (.event .powerRemoved .nothing) ∧ turnOf State.reset = none := by
  refine ⟨by decide +kernel, by decide +kernel, by decide +kernel, by decide +kernel, rfl, ?_⟩
  decide +kernel

/-- A turn of a state with nothing due that names it. -/
def nextUp (t : Turn) (s : State) : State := { s with agenda := [t] }

/-- How a gang's fetch at its program counter ends: 0 outside the leases, 1 without a translation, 2 else. -/
def fetchEnd (s : State) (gang : Nat) : Nat := match issueOf s 0 0 gang true with
  | some c =>
    if c.mac.isSome || c.team.ending.isSome || c.group.ended then 9
    else if !leaseOk c.grid none .x c.pc.toNat 4 then 0
    else match translateAll s c.team.core c.grid.asid c.grid.root false (accessBytes c.grid none c.pc.toNat 4) with
      | .ok _ _ => 2
      | .lost => 1
      | _ => 3
  | none => 9

/-- A .WF load that a fill has released comes first; a held cause; code outside the leases, and code without a translation; a step of a microprogram that
is none; a Trowel past its text, one that reverses while its team ends; an eviction. -/
theorem witness_StepRunsTheDecodedInstruction_others :
    wfDue (waitState (.ldhWfKeep 4 8 2 0)) = some (.event .wfRelease (.gang 0 0 0)) ∧
    (let s := nextUp (.gang 0 0 0) (heldState withHandler (oneSlice 1))
     wfDue s = none ∧ turnOf s = some (.gang 0 0 0) ∧ causeDue s 0 0 = true) ∧
    (let s := nextUp (.gang 0 0 0) (stateOf (smallGroup { oneSlice 1 with pc := 0x20000 } []))
     turnOf s = some (.gang 0 0 0) ∧ causeDue s 0 0 = false ∧ fetchEnd s (gangTurn s 0 0 0) = 0) ∧
    (let s := nextUp (.gang 0 0 0) (one [])
     turnOf s = some (.gang 0 0 0) ∧ causeDue s 0 0 = false ∧ fetchEnd s (gangTurn s 0 0 0) = 1) ∧
    (let s := nextUp (.gang 0 0 0) (macroState 0 fun m => { m with ops := [0x3C000000] })
     turnOf s = some (.gang 0 0 0) ∧ causeDue s 0 0 = false ∧ (issueOf s 0 0 (gangTurn s 0 0 0) true).any (fun c => c.mac.any fun m => match m.fetch with
        | .illegal => true
        | _ => false) = true ∧ (issueOf s 0 0 (gangTurn s 0 0 0) false).isSome = true) ∧
    (∀ x ∈ [(0x10000, none, TapeMode.off), (0, some 0x0304, .reversing)], let s := nextUp (.trowel 0) (stateOf probeGroup fun t =>
        { t with trowel := some { pc := x.1, tape := { mode := x.2.2 } }, ending := x.2.1 })
      turnOf s = some (.trowel 0) ∧ (s.team? 0).any (fun t => decide (t.ending = x.2.1) && t.trowel.any fun w => decide (w.status = .running ∧ w.tape.mode = x.2.2 ∧ w.pc = x.1)) = true ∧
        (s.grid? 0).any (fun g => decide (g.tbase + g.tlen < x.1.toNat + 4) == decide (x.1 = 0x10000)) = true) ∧
    (let s := nextUp (.evict 5) (one [])
     turnOf s = some (.evict 5)) :=
  ⟨by decide +kernel, by decide +kernel, by decide +kernel, by decide +kernel, by decide +kernel, fun x h => by fin_cases h <;> decide +kernel, by decide +kernel⟩

/-- A state of a resident team has its memories in canonical form, and steps. -/
theorem witness_StepsKeepMemoriesCanonical :
    (let s := { one [] with agenda := [.event .junctionOvertemp .nothing] }
     memWf s ∧ (∀ t ∈ s.teams, teamMemWf t ∧ teamTilesWf t) ∧ (∀ g ∈ s.grids, ∀ x ∈ g.suspended ++ g.snapshots, teamMemWf x.team ∧ teamTilesWf x.team) ∧
       (∀ k ∈ s.cores, l1Wf k.2) ∧ ∃ t, Machine.step s = .next t) := by
  refine ⟨by decide +kernel, by decide +kernel, by decide +kernel, by decide +kernel, _, rfl⟩

end Sys2Proof.Tests
end

