-- ==== Sys2Proof/WellFormed.lean ====
section
/-! DEFINITION. Well-formed instructions: the operand codes and field values that the opcode map admits
(R99 to R105, R123). The checks themselves are `Sys2Proof.Machine.legal` over the operand tables. An
instruction that is not well-formed traps ILLEGAL_INSTR when it issues. -/

namespace Sys2Proof

/-- An instruction with legal field values and operand codes. An event, which has no encoding, is
well-formed. -/
def WellFormed (j : Instr) : Prop := Machine.legal j = true

end Sys2Proof
end

namespace Sys2Proof.Machine

/-! ## Instructions that compute a value for each live pair -/

theorem computes_dest32 {j : Instr} {d : BitVec 7} {f g : Issue → Nat × Nat → Word}
    (he : ∀ s, Machine.exec j s = groupInstr j s fun c t => .ok (c.put (latency j) d (f c) t)) (hv : ∀ c p, f c p = g c p) :
    Computes j fun _ c => dest32 c d (g c) := by
  intro s c h
  refine computes_write h (he s) rfl fun r old => ?_
  rw [writesEffect_dest, funext (hv c)]
  rfl

theorem computes_dest64 {j : Instr} {d : BitVec 7} {f g : Issue → Nat × Nat → DWord}
    (he : ∀ s, Machine.exec j s = groupInstr j s fun c t => .ok (c.put64 (latency j) d (f c) t)) (hv : ∀ c p, f c p = g c p) :
    Computes j fun _ c => dest64 c d (g c) := by
  intro s c h
  refine computes_write h (he s) rfl fun r old => ?_
  rw [writesEffect_dest, funext (hv c)]
  rfl

theorem computes_pred {j : Instr} {d : BitVec 3} {f g : Issue → Nat × Nat → Bool}
    (he : ∀ s, Machine.exec j s = groupInstr j s fun c t => .ok (c.putPred (latency j) d (f c) t)) (hv : ∀ c p, f c p = g c p) :
    Computes j fun _ c => predEffect c d (g c) := by
  intro s c h
  refine computes_write h (he s) rfl fun r old => ?_
  rw [writesEffect_pred, funext (hv c)]

/-! ## The integer operations as numbers (R165, R168) -/

section
variable {n : Nat} (x y : BitVec n)

theorem clampS_eq_nearestS (v : Int) : clampS n v = nearestS n v := by
  have hpos : (1 : Int) ≤ 2 ^ (n - 1) := by exact_mod_cast Nat.one_le_two_pow
  simp only [clampS, nearestS, Nat.cast_pow, Nat.cast_ofNat]
  congr 1
  generalize (2 : Int) ^ (n - 1) = m at hpos
  split_ifs <;> omega

theorem addSatU_eq_nearestU : addSatU x y = nearestU n ((x.toNat : Int) + y.toNat) := by
  have hpow : ((2 ^ n : Nat) : Int) = 2 ^ n := by push_cast; rfl
  have hpos := Nat.two_pow_pos n
  rw [addSatU, nearestU, ← BitVec.ofInt_natCast, ← hpow]
  congr 1
  generalize 2 ^ n = m at hpos
  split_ifs <;> omega

theorem subSatU_eq_nearestU : subSatU x y = nearestU n ((x.toNat : Int) - y.toNat) := by
  have hpow : ((2 ^ n : Nat) : Int) = 2 ^ n := by push_cast; rfl
  have hx := x.isLt
  rw [subSatU, nearestU, ← BitVec.ofInt_natCast, ← hpow]
  congr 1
  generalize 2 ^ n = m at hx
  split_ifs <;> omega

theorem toInt_minBy : (minBy false x y).toInt = min x.toInt y.toInt := by
  by_cases h : x.toInt ≤ y.toInt
  · simp [minBy, BitVec.sle, h]
  · simp [minBy, BitVec.sle, h, min_eq_right (not_le.1 h).le]

theorem toNat_minBy : (minBy true x y).toNat = min x.toNat y.toNat := by
  by_cases h : x.toNat ≤ y.toNat
  · simp [minBy, BitVec.ule, h]
  · simp [minBy, BitVec.ule, h, min_eq_right (not_le.1 h).le]

theorem toInt_maxBy : (maxBy false x y).toInt = max x.toInt y.toInt := by
  by_cases h : x.toInt ≤ y.toInt
  · simp [maxBy, BitVec.sle, h]
  · simp [maxBy, BitVec.sle, h, max_eq_left (not_le.1 h).le]

theorem toNat_maxBy : (maxBy true x y).toNat = max x.toNat y.toNat := by
  by_cases h : x.toNat ≤ y.toNat
  · simp [maxBy, BitVec.ule, h]
  · simp [maxBy, BitVec.ule, h, max_eq_left (not_le.1 h).le]

variable {x y} in
/-- A pattern is its signed number. -/
theorem eq_ofInt {v : Int} (h : x.toInt = v) : x = BitVec.ofInt n v := by rw [← h, BitVec.ofInt_toInt]

variable {x y} in
/-- A pattern is its unsigned number. -/
theorem eq_ofNat {v : Nat} (h : x.toNat = v) : x = BitVec.ofNat n v := by rw [← h, BitVec.ofNat_toNat, BitVec.setWidth_eq]

theorem neg_eq_ofInt : 0 - x = BitVec.ofInt n (-x.toInt) := by
  rw [BitVec.ofInt_neg, BitVec.ofInt_toInt]
  exact BitVec.zero_sub x

theorem abs_eq_ofInt : (if x.msb then 0 - x else x) = BitVec.ofInt n x.toInt.natAbs := by
  by_cases h : x.toInt < 0
  · rw [if_pos (by simpa [BitVec.msb_eq_toInt] using h), neg_eq_ofInt]
    congr 1; omega
  · rw [if_neg (by simpa [BitVec.msb_eq_toInt] using h)]
    conv_lhs => rw [← BitVec.ofInt_toInt (x := x)]
    congr 1; omega

theorem shlBy_eq_shiftUp (k : Nat) : shlBy x k = shiftUp n x.toNat k := by
  rw [shlBy, shiftUp]
  by_cases h : k < n
  · rw [if_pos h, if_neg (by omega)]
    apply BitVec.eq_of_toNat_eq
    simp [Nat.shiftLeft_eq]
  · rw [if_neg h, if_pos (by omega)]

theorem shrUBy_eq_shiftDown (k : Nat) : shrUBy x k = shiftDown n (x.toNat : Int) k := by
  rw [shrUBy, shiftDown]
  have hcast : ((x.toNat : Int) / 2 ^ min k n) = ((x.toNat / 2 ^ min k n : Nat) : Int) := by push_cast; rfl
  rw [hcast, BitVec.ofInt_natCast]
  apply BitVec.eq_of_toNat_eq
  have hle := Nat.div_le_self x.toNat (2 ^ min k n)
  rw [BitVec.toNat_ofNat, Nat.mod_eq_of_lt (hle.trans_lt x.isLt)]
  by_cases h : k < n
  · simp [if_pos h, min_eq_left h.le, Nat.shiftRight_eq_div_pow]
  · simp [if_neg h, min_eq_right (not_lt.1 h), Nat.div_eq_of_lt x.isLt]

theorem shrSBy_eq_shiftDown (k : Nat) : shrSBy x k = shiftDown n x.toInt k := by
  rw [shrSBy, shiftDown]
  by_cases h : k < n
  · rw [if_pos h, min_eq_left h.le, BitVec.sshiftRight_eq, Int.shiftRight_eq_div_pow]
    norm_cast
  · rw [if_neg h, min_eq_right (not_lt.1 h)]
    have hpos : (0 : Int) < 2 ^ n := by positivity
    have hlt := BitVec.two_mul_toInt_lt (x := x)
    have hle := BitVec.le_two_mul_toInt (x := x)
    by_cases hneg : x.toInt < 0
    · have hdiv : x.toInt / 2 ^ n = -1 :=
        le_antisymm (Int.le_of_lt_add_one (Int.ediv_neg_of_neg_of_pos hneg hpos))
          (Int.le_ediv_of_mul_le hpos (by omega))
      rw [if_pos (by simpa [BitVec.msb_eq_toInt] using hneg), hdiv, BitVec.ofInt_neg]
      exact BitVec.neg_one_eq_allOnes.symm
    · rw [if_neg (by simpa [BitVec.msb_eq_toInt] using hneg), Int.ediv_eq_zero_of_lt (not_lt.1 hneg) (by omega)]
      rfl

end

theorem rolBy_eq_rotateLeft (a : Word) (k : Nat) : rolBy a k = a.rotateLeft (k % 32) := by
  rw [rolBy, BitVec.rotateLeft_eq_rotateLeftAux_of_lt (Nat.mod_lt _ (by decide))]
  rfl

theorem rorBy_eq_rotateRight (a : Word) (k : Nat) : rorBy a k = a.rotateRight (k % 32) := by
  rw [rorBy, BitVec.rotateRight_eq_rotateRightAux_of_lt (Nat.mod_lt _ (by decide))]
  rfl

theorem addi_eq_ofInt (a : Word) (i : BitVec 12) : a + i.signExtend 32 = BitVec.ofInt 32 (a.toInt + i.toInt) := by
  rw [BitVec.ofInt_add, BitVec.ofInt_toInt, BitVec.signExtend]

end Sys2Proof.Machine

namespace Sys2Proof

open Machine

/-- Settles O1: each result is the model's operation read as a number. -/
theorem integerAndLogicResults : Obligations.IntegerAndLogicResults :=
  ⟨fun _ _ _ _ =>
    ⟨computes_dest32 (fun _ => rfl) fun _ _ => rfl,
     computes_dest64 (fun _ => rfl) fun _ _ => rfl,
     computes_dest32 (fun _ => rfl) fun _ _ => rfl,
     computes_dest64 (fun _ => rfl) fun _ _ => rfl,
     computes_dest32 (fun _ => rfl) fun _ _ => clampS_eq_nearestS _,
     computes_dest64 (fun _ => rfl) fun _ _ => clampS_eq_nearestS _,
     computes_dest32 (fun _ => rfl) fun _ _ => addSatU_eq_nearestU _ _,
     computes_dest64 (fun _ => rfl) fun _ _ => addSatU_eq_nearestU _ _,
     computes_dest32 (fun _ => rfl) fun _ _ => clampS_eq_nearestS _,
     computes_dest64 (fun _ => rfl) fun _ _ => clampS_eq_nearestS _,
     computes_dest32 (fun _ => rfl) fun _ _ => subSatU_eq_nearestU _ _,
     computes_dest64 (fun _ => rfl) fun _ _ => subSatU_eq_nearestU _ _,
     computes_dest32 (fun _ => rfl) fun _ _ => eq_ofInt (toInt_minBy _ _),
     computes_dest64 (fun _ => rfl) fun _ _ => eq_ofInt (toInt_minBy _ _),
     computes_dest32 (fun _ => rfl) fun _ _ => eq_ofNat (toNat_minBy _ _),
     computes_dest64 (fun _ => rfl) fun _ _ => eq_ofNat (toNat_minBy _ _),
     computes_dest32 (fun _ => rfl) fun _ _ => eq_ofInt (toInt_maxBy _ _),
     computes_dest64 (fun _ => rfl) fun _ _ => eq_ofInt (toInt_maxBy _ _),
     computes_dest32 (fun _ => rfl) fun _ _ => eq_ofNat (toNat_maxBy _ _),
     computes_dest64 (fun _ => rfl) fun _ _ => eq_ofNat (toNat_maxBy _ _),
     computes_dest32 (fun _ => rfl) fun _ _ => abs_eq_ofInt _,
     computes_dest64 (fun _ => rfl) fun _ _ => abs_eq_ofInt _,
     computes_dest32 (fun _ => rfl) fun _ _ => neg_eq_ofInt _,
     computes_dest64 (fun _ => rfl) fun _ _ => neg_eq_ofInt _,
     computes_dest32 (fun _ => rfl) fun _ _ => rfl,
     computes_dest64 (fun _ => rfl) fun _ _ => rfl,
     computes_dest32 (fun _ => rfl) fun _ _ => addi_eq_ofInt _ _⟩,
   fun _ _ _ =>
    ⟨computes_dest32 (fun _ => rfl) fun _ _ => rfl,
     computes_dest32 (fun _ => rfl) fun _ _ => rfl,
     computes_dest32 (fun _ => rfl) fun _ _ => rfl,
     computes_dest32 (fun _ => rfl) fun _ _ => rfl,
     computes_dest32 (fun _ => rfl) fun _ _ => rfl,
     computes_dest32 (fun _ => rfl) fun _ _ => rfl,
     computes_dest32 (fun _ => rfl) fun _ _ => shlBy_eq_shiftUp _ _,
     computes_dest32 (fun _ => rfl) fun _ _ => shrUBy_eq_shiftDown _ _,
     computes_dest32 (fun _ => rfl) fun _ _ => shrSBy_eq_shiftDown _ _,
     computes_dest32 (fun _ => rfl) fun _ _ => rolBy_eq_rotateLeft _ _,
     computes_dest32 (fun _ => rfl) fun _ _ => rorBy_eq_rotateRight _ _,
     computes_dest64 (fun _ => rfl) fun _ _ => shlBy_eq_shiftUp _ _,
     computes_dest64 (fun _ => rfl) fun _ _ => shrUBy_eq_shiftDown _ _,
     computes_dest64 (fun _ => rfl) fun _ _ => shrSBy_eq_shiftDown _ _⟩⟩

end Sys2Proof

namespace Sys2Proof.Machine

/-! ## Bit counts and fields (R168, R169) -/

theorem popCount_eq_length (n v : Nat) : popCount n v = ((List.range n).filter fun i => v.testBit i).length := by
  induction n generalizing v with
  | zero => rfl
  | succ n ih =>
    have htail : ((List.range n).map Nat.succ).filter (fun i => v.testBit i) =
        ((List.range n).filter fun i => (v / 2).testBit i).map Nat.succ := by
      rw [List.filter_map]
      congr 2
      funext i
      exact Nat.testBit_succ ..
    rw [popCount, ih, List.range_succ_eq_map, List.filter_cons, htail]
    rcases Nat.mod_two_eq_zero_or_one v with h | h <;> simp [Nat.testBit_zero, h, Nat.add_comm]

theorem trailingZeros_eq_length (n v : Nat) :
    trailingZeros n v = ((List.range n).takeWhile fun i => !v.testBit i).length := by
  induction n generalizing v with
  | zero => rfl
  | succ n ih =>
    have htail : ((List.range n).map Nat.succ).takeWhile (fun i => !v.testBit i) =
        ((List.range n).takeWhile fun i => !(v / 2).testBit i).map Nat.succ := by
      rw [List.takeWhile_map]
      congr 2
      funext i
      exact congrArg _ (Nat.testBit_succ ..)
    rw [trailingZeros, ih, List.range_succ_eq_map, List.takeWhile_cons, htail]
    rcases Nat.mod_two_eq_zero_or_one v with h | h <;> simp [Nat.testBit_zero, h, Nat.add_comm]

/-- The numbers below `n` up to the first one that fails are as many as that one. -/
theorem length_takeWhile_range {p : Nat → Bool} {m n : Nat} (hmn : m ≤ n) (hp : ∀ i < m, p i) (hm : m < n → p m = false) :
    ((List.range n).takeWhile p).length = m := by
  obtain ⟨k, rfl⟩ := Nat.exists_eq_add_of_le hmn
  rw [List.range_add, List.takeWhile_append_of_pos (by simpa using hp)]
  cases k with
  | zero => simp
  | succ k => simp [List.range_succ_eq_map, hm (by omega)]

theorem leadingZeros_eq_length {n v : Nat} (hv : v < 2 ^ n) :
    leadingZeros n v = ((List.range n).takeWhile fun i => !v.testBit (n - 1 - i)).length := by
  rw [leadingZeros]
  split
  · rename_i h
    exact (length_takeWhile_range le_rfl (by simp [h]) (by simp)).symm
  · rename_i h
    have hlog : v.log2 < n := (Nat.log2_lt h).2 hv
    refine (length_takeWhile_range (by omega) (fun i hi => ?_) fun _ => ?_).symm
    · have : v < 2 ^ (n - 1 - i) := (Nat.log2_lt h).1 (by omega)
      simp [Nat.testBit_lt_two_pow this]
    · have : n - 1 - (n - 1 - v.log2) = v.log2 := by omega
      simp [this, Nat.testBit_log2 h]

theorem popc_eq_length (a : Word) : popCount 32 a.toNat = ((List.range 32).filter fun i => a.getLsbD i).length :=
  popCount_eq_length ..
theorem clz_eq_length (a : Word) :
    leadingZeros 32 a.toNat = ((List.range 32).takeWhile fun i => !a.getLsbD (31 - i)).length := leadingZeros_eq_length a.isLt
theorem ctz_eq_length (a : Word) : trailingZeros 32 a.toNat = ((List.range 32).takeWhile fun i => !a.getLsbD i).length :=
  trailingZeros_eq_length ..

/-- The bits of a mask are the numbers of its list. -/
theorem getLsbD_maskOf (w : Nat) (l : List Nat) (i : Nat) : (maskOf w l).getLsbD i = (decide (i < w) && l.contains i) := by
  have hfold : ∀ (l : List Nat) (m : BitVec w),
      (l.foldl (fun m j => m ||| BitVec.twoPow w j) m).getLsbD i = (m.getLsbD i || (decide (i < w) && l.contains i)) := by
    intro l
    induction l with
    | nil => simp
    | cons j rest ih =>
      intro m
      have hbit : (decide (j < w) && decide (j = i)) = (decide (i < w) && i == j) := by
        by_cases hj : j = i
        · simp [hj]
        · simp [hj, Ne.symm hj]
      rw [List.foldl_cons, ih, BitVec.getLsbD_or, BitVec.getLsbD_twoPow, List.contains_cons, Bool.or_assoc, hbit,
        Bool.and_or_distrib_left]
  simp [maskOf, hfold]

theorem bitReverse_eq (a : Word) : bitReverse a = BitVec.ofFnLE fun i : Fin 32 => a.getLsbD (31 - i.val) := by
  apply BitVec.eq_of_getLsbD_eq
  intro i hi
  rw [bitReverse, getLsbD_maskOf, BitVec.getLsbD_ofFnLE, dif_pos hi]
  simp [hi]

theorem fieldPos_eq_posOf (b : Word) : fieldPos b = posOf b := by simp [fieldPos, posOf]
theorem fieldLen_eq_lenOf (b : Word) : fieldLen b = lenOf b := by simp [fieldLen, lenOf, Nat.shiftRight_eq_div_pow]
theorem lenOf_le (b : Word) : lenOf b ≤ 32 := Nat.min_le_right ..

theorem getLsbD_fieldU (a b : Word) (i : Nat) : (fieldU a b).getLsbD i = (decide (i < lenOf b) && a.getLsbD (posOf b + i)) := by
  have hle := lenOf_le b
  rw [fieldU, fieldPos_eq_posOf, fieldLen_eq_lenOf, BitVec.getLsbD_ofNat, Nat.testBit_mod_two_pow, Nat.testBit_div_two_pow,
    Nat.add_comm i]
  by_cases hi : i < lenOf b
  · simp [hi, show i < 32 by omega, BitVec.getLsbD]
  · simp [hi]

theorem fieldU_eq (a b : Word) :
    fieldU a b = BitVec.ofFnLE fun i : Fin 32 => decide (i.val < lenOf b) && a.getLsbD (posOf b + i.val) := by
  apply BitVec.eq_of_getLsbD_eq
  intro i hi
  rw [getLsbD_fieldU, BitVec.getLsbD_ofFnLE, dif_pos hi]

/-- The signed field is the field's own bits, extended by their top one. -/
theorem fieldS_eq_signExtend (a b : Word) : fieldS a b = ((fieldU a b).setWidth (lenOf b)).signExtend 32 := by
  have hle := lenOf_le b
  have hmsb : ((fieldU a b).setWidth (lenOf b)).msb = (decide (0 < lenOf b) && (fieldU a b).getLsbD (lenOf b - 1)) := by
    rw [BitVec.msb_eq_getLsbD_last, BitVec.getLsbD_setWidth]
    congr 1
    simp
  have hnat : ((fieldU a b).setWidth (lenOf b)).toNat = (fieldU a b).toNat := by
    rw [BitVec.toNat_setWidth, Nat.mod_eq_of_lt]
    rw [fieldU, fieldLen_eq_lenOf, BitVec.toNat_ofNat]
    exact (Nat.mod_le ..).trans_lt (Nat.mod_lt _ (Nat.two_pow_pos _))
  rw [BitVec.signExtend, BitVec.toInt_eq_msb_cond, hmsb, hnat, fieldS, fieldLen_eq_lenOf]
  by_cases h : 0 < lenOf b ∧ (fieldU a b).getLsbD (lenOf b - 1) = true
  · simp [h]
  · rw [if_neg h, if_neg (by simpa using h), BitVec.ofInt_natCast, BitVec.ofNat_toNat, BitVec.setWidth_eq]

theorem fieldS_eq (a b : Word) :
    fieldS a b = BitVec.ofFnLE fun i : Fin 32 => decide (0 < lenOf b) && a.getLsbD (posOf b + min i.val (lenOf b - 1)) := by
  apply BitVec.eq_of_getLsbD_eq
  intro i hi
  rw [fieldS_eq_signExtend, BitVec.getLsbD_signExtend, BitVec.getLsbD_ofFnLE, dif_pos hi, BitVec.msb_eq_getLsbD_last,
    BitVec.getLsbD_setWidth, BitVec.getLsbD_setWidth, getLsbD_fieldU, getLsbD_fieldU]
  by_cases hin : i < lenOf b
  · simp [hi, hin, show 0 < lenOf b by omega, show min i (lenOf b - 1) = i by omega]
  · rw [if_neg hin, show min i (lenOf b - 1) = lenOf b - 1 by omega]
    by_cases hpos : 0 < lenOf b <;> simp [hi, hpos]

theorem fieldInsert_eq (base a b : Word) :
    fieldInsert base a b = BitVec.ofFnLE fun i : Fin 32 =>
      if posOf b ≤ i.val ∧ i.val < posOf b + lenOf b then a.getLsbD (i.val - posOf b) else base.getLsbD i.val := by
  apply BitVec.eq_of_getLsbD_eq
  intro i hi
  simp only [fieldInsert, fieldPos_eq_posOf, fieldLen_eq_lenOf, BitVec.getLsbD_or, BitVec.getLsbD_and, BitVec.getLsbD_not,
    BitVec.getLsbD_ofNat, Nat.testBit_mul_two_pow, Nat.testBit_two_pow_sub_one, BitVec.getLsbD_ofFnLE, hi, dif_pos, decide_true, Bool.true_and]
  by_cases hin : posOf b ≤ i ∧ i - posOf b < lenOf b
  · obtain ⟨hlo, hhi⟩ := hin
    simp [hlo, hhi, show i < posOf b + lenOf b by omega, BitVec.getLsbD]
  · have hout : (decide (posOf b ≤ i) && decide (i - posOf b < lenOf b)) = false := by simpa using hin
    rw [hout, if_neg (by omega)]
    simp

theorem getLsbD_selectByte (a : Word) (sel : BitVec 4) {k : Nat} (hk : k < 8) :
    (selectByte a sel).getLsbD k =
      (!sel.getLsbD 3 && a.getLsbD (if sel.getLsbD 2 then 8 * (sel.toNat % 4) + 7 else 8 * (sel.toNat % 4) + k)) := by
  have hlow : (sel.extractLsb' 0 2).toNat = sel.toNat % 4 := by simp
  rw [selectByte, hlow]
  cases h3 : sel.getLsbD 3 with
  | true => simp
  | false =>
    cases h2 : sel.getLsbD 2 with
    | true =>
      have hmsb : (a.extractLsb' (8 * (sel.toNat % 4)) 8).msb = a.getLsbD (8 * (sel.toNat % 4) + 7) := by
        simp [BitVec.msb_eq_getLsbD_last]
      have hones : (0xFF : Byte).getLsbD k = true := by
        rw [show (0xFF : Byte) = BitVec.allOnes 8 from rfl, BitVec.getLsbD_allOnes, decide_eq_true hk]
      cases hsign : a.getLsbD (8 * (sel.toNat % 4) + 7) with
      | true => rw [hmsb, hsign, if_neg (by simp), if_pos rfl, if_pos rfl, if_pos rfl, hones, hsign]; rfl
      | false => simp [hmsb, hsign]
    | false => simp [hk]

/-- Bit `i` of BYSEL is a bit of the byte that selector i / 8 chooses. -/
theorem getLsbD_byteSelect (a b : Word) {i : Nat} (hi : i < 32) :
    (byteSelect a b).getLsbD i = (selectByte a (b.extractLsb' (4 * (i / 8)) 4)).getLsbD (i % 8) := by
  have hbyte : i / 8 = 0 ∨ i / 8 = 1 ∨ i / 8 = 2 ∨ i / 8 = 3 := by omega
  rw [byteSelect, BitVec.getLsbD_append, BitVec.getLsbD_append, BitVec.getLsbD_append]
  rcases hbyte with h | h | h | h
  · rw [if_pos (by omega), h, show i % 8 = i by omega]
  · rw [if_neg (by omega), if_pos (by omega), h, show i % 8 = i - 8 by omega]
  · rw [if_neg (by omega), if_neg (by omega), if_pos (by omega), h, show i % 8 = i - 8 - 8 by omega]
  · rw [if_neg (by omega), if_neg (by omega), if_neg (by omega), h, show i % 8 = i - 8 - 8 - 8 by omega]

theorem byteSelect_eq (a b : Word) :
    byteSelect a b = BitVec.ofFnLE fun i : Fin 32 =>
      let sel := b.extractLsb' (4 * (i.val / 8)) 4
      let byte := 8 * (sel.toNat % 4)
      !sel.getLsbD 3 && a.getLsbD (if sel.getLsbD 2 then byte + 7 else byte + i.val % 8) := by
  apply BitVec.eq_of_getLsbD_eq
  intro i hi
  rw [getLsbD_byteSelect a b hi, getLsbD_selectByte _ _ (Nat.mod_lt _ (by decide)), BitVec.getLsbD_ofFnLE, dif_pos hi]

/-! ## Multiplies and divides (R170, R171) -/

section
variable {n : Nat} (x y : BitVec n)

theorem mul_eq_ofNat : x * y = BitVec.ofNat n (x.toNat * y.toNat) := by
  rw [BitVec.ofNat_mul, BitVec.ofNat_toNat, BitVec.ofNat_toNat, BitVec.setWidth_eq, BitVec.setWidth_eq]

theorem mulHighS_eq : mulHighS x y = BitVec.ofInt n (x.toInt * y.toInt / 2 ^ n) := by
  rw [mulHighS, Int.fdiv_eq_ediv_of_nonneg _ (by positivity)]
  norm_cast

theorem mulWide_signed (m : Nat) : x.signExtend m * y.signExtend m = BitVec.ofInt m (x.toInt * y.toInt) := by
  rw [BitVec.ofInt_mul, BitVec.signExtend, BitVec.signExtend]

theorem mulWide_unsigned (m : Nat) : x.setWidth m * y.setWidth m = BitVec.ofNat m (x.toNat * y.toNat) := by
  rw [BitVec.ofNat_mul, BitVec.ofNat_toNat, BitVec.ofNat_toNat]

theorem mulAdd_eq (z : BitVec n) : x * y + z = BitVec.ofNat n (x.toNat * y.toNat + z.toNat) := by
  rw [BitVec.ofNat_add, ← mul_eq_ofNat, BitVec.ofNat_toNat, BitVec.setWidth_eq]

end

end Sys2Proof.Machine

namespace Sys2Proof

open Machine

/-- Settles O2: counts and fields bit by bit, products and quotients as numbers. -/
theorem fieldMultiplyDivideResults : Obligations.FieldMultiplyDivideResults :=
  ⟨fun _ _ _ =>
    ⟨computes_dest32 (fun _ => rfl) fun _ _ => congrArg _ (popc_eq_length _),
     computes_dest32 (fun _ => rfl) fun _ _ => congrArg _ (clz_eq_length _),
     computes_dest32 (fun _ => rfl) fun _ _ => congrArg _ (ctz_eq_length _),
     computes_dest32 (fun _ => rfl) fun _ _ => bitReverse_eq _,
     computes_dest32 (fun _ => rfl) fun _ _ => fieldU_eq _ _,
     computes_dest32 (fun _ => rfl) fun _ _ => fieldS_eq _ _,
     computes_dest32 (fun _ => rfl) fun _ _ => fieldInsert_eq _ _ _,
     computes_dest32 (fun _ => rfl) fun _ _ => byteSelect_eq _ _⟩,
   fun _ _ _ =>
    ⟨computes_dest32 (fun _ => rfl) fun _ _ => mul_eq_ofNat _ _,
     computes_dest32 (fun _ => rfl) fun _ _ => mulHighS_eq _ _,
     computes_dest32 (fun _ => rfl) fun _ _ => rfl,
     computes_dest64 (fun _ => rfl) fun _ _ => mulWide_signed _ _ _,
     computes_dest64 (fun _ => rfl) fun _ _ => mulWide_unsigned _ _ _,
     computes_dest32 (fun _ => rfl) fun _ _ => mulAdd_eq _ _ _,
     computes_dest64 (fun _ => rfl) fun _ _ => mul_eq_ofNat _ _,
     computes_dest64 (fun _ => rfl) fun _ _ => mulHighS_eq _ _,
     computes_dest64 (fun _ => rfl) fun _ _ => rfl,
     computes_dest32 (fun _ => rfl) fun _ _ => rfl,
     computes_dest32 (fun _ => rfl) fun _ _ => rfl,
     computes_dest32 (fun _ => rfl) fun _ _ => rfl,
     computes_dest32 (fun _ => rfl) fun _ _ => rfl,
     computes_dest64 (fun _ => rfl) fun _ _ => rfl,
     computes_dest64 (fun _ => rfl) fun _ _ => rfl,
     computes_dest64 (fun _ => rfl) fun _ _ => rfl,
     computes_dest64 (fun _ => rfl) fun _ _ => rfl⟩⟩

end Sys2Proof

namespace Sys2Proof.Machine

/-! ## Comparisons and LEA (R167, R172) -/

/-- The relations of Table 5.8, with every code from 5 on read as GE. -/
theorem relation_cases (r : BitVec 3) : r = 0 ∨ r = 1 ∨ r = 2 ∨ r = 3 ∨ r = 4 ∨ r = 5 ∨ r = 6 ∨ r = 7 := by
  revert r; decide

theorem intRel_signed {n : Nat} (r : BitVec 3) (x y : BitVec n) : intRel false r x y = relates r x.toInt y.toInt := by
  rcases relation_cases r with rfl | rfl | rfl | rfl | rfl | rfl | rfl | rfl <;>
    simp [intRel, relates, BitVec.slt, BitVec.toInt_inj, le_iff_lt_or_eq, eq_comm, Bool.beq_eq_decide_eq, bne]

theorem intRel_unsigned {n : Nat} (r : BitVec 3) (x y : BitVec n) : intRel true r x y = relates r x.toNat y.toNat := by
  rcases relation_cases r with rfl | rfl | rfl | rfl | rfl | rfl | rfl | rfl <;>
    simp [intRel, relates, BitVec.ult, BitVec.toNat_inj, le_iff_lt_or_eq, eq_comm, Bool.beq_eq_decide_eq, bne]

theorem ne_zero_eq_decide (x : Word) : (x != 0) = decide (x ≠ 0) := by simp [bne, Bool.beq_eq_decide_eq]

theorem shiftLeft_eq_ofNat {n : Nat} (x : BitVec n) (k : Nat) : x <<< k = BitVec.ofNat n (x.toNat * 2 ^ k) := by
  apply BitVec.eq_of_toNat_eq
  simp [Nat.shiftLeft_eq]

theorem lea_signed {k : Nat} (hk : k < 5) (a : DWord) (b : Word) :
    a + leaOffset (BitVec.ofNat 5 k) b = BitVec.ofInt 64 (a.toInt + b.toInt * 2 ^ k) := by
  have hcode : (BitVec.ofNat 5 k).toNat = k := by simp; omega
  have hpow : BitVec.ofInt 64 (2 ^ k) = BitVec.twoPow 64 k := by
    have hcast : (2 : Int) ^ k = ((2 ^ k : Nat) : Int) := by push_cast; rfl
    rw [hcast, BitVec.ofInt_natCast]
    apply BitVec.eq_of_toNat_eq
    simp [BitVec.toNat_twoPow]
  rw [leaOffset, hcode, if_pos hk, BitVec.ofInt_add, BitVec.ofInt_toInt, BitVec.ofInt_mul, BitVec.shiftLeft_eq_mul_twoPow, hpow,
    BitVec.signExtend]

theorem lea_unsigned {k : Nat} (hk : k < 5) (a : DWord) (b : Word) :
    a + leaOffset (BitVec.ofNat 5 (k + 5)) b = BitVec.ofNat 64 (a.toNat + b.toNat * 2 ^ k) := by
  have hcode : (BitVec.ofNat 5 (k + 5)).toNat = k + 5 := by simp; omega
  rw [leaOffset, hcode, if_neg (by omega), Nat.add_sub_cancel, shiftLeft_eq_ofNat, BitVec.ofNat_add, BitVec.ofNat_toNat]
  apply BitVec.eq_of_toNat_eq
  simp

end Sys2Proof.Machine

namespace Sys2Proof

open Machine

/-- Settles O3: a relation of patterns is one of the numbers they are, and a scaled index a product. -/
theorem compareAndPredicateResults : Obligations.CompareAndPredicateResults :=
  ⟨fun _ _ _ _ =>
    ⟨computes_pred (fun _ => rfl) fun _ _ => intRel_signed _ _ _, computes_pred (fun _ => rfl) fun _ _ => intRel_unsigned _ _ _,
     computes_pred (fun _ => rfl) fun _ _ => intRel_signed _ _ _, computes_pred (fun _ => rfl) fun _ _ => intRel_unsigned _ _ _⟩,
   fun _ _ _ _ _ _ _ =>
    ⟨computes_pred (fun _ => rfl) fun _ _ => rfl, computes_pred (fun _ => rfl) fun _ _ => rfl,
     computes_pred (fun _ => rfl) fun _ _ => rfl, computes_pred (fun _ => rfl) fun _ _ => rfl,
     computes_dest32 (fun _ => rfl) fun _ _ => rfl, computes_pred (fun _ => rfl) fun _ _ => ne_zero_eq_decide _⟩,
   fun k _ _ _ =>
    ⟨computes_dest64 (fun _ => rfl) fun _ _ => lea_signed k.isLt _ _, computes_dest64 (fun _ => rfl) fun _ _ => lea_unsigned k.isLt _ _⟩⟩

end Sys2Proof

namespace Sys2Proof.Machine

/-! ## Software traps -/

/-- A cause that no handler takes ends the team, and leaves its groups as they are (R363, R369). -/
theorem takeCause_unhandled {s : State} {c : Issue} {hint : Bool} (h : issueOf s c.uid c.gid c.gang hint = some c) (hh : ¬ handles c)
    (w : TrapWords) (save : List Slice) : takeCause s c.uid c.gid w save = endTeamWith s c.uid w.code := by
  obtain ⟨-, -, -, hg, ht, hgr⟩ := issueOf_group h
  have hk : c.team.group? c.gid = some c.group := by simpa [groupAt, ht] using hg
  have hno : c.grid.handler = 0xFFFFFFFF ∨ c.group.privileged ∨ !c.group.hasPair := by
    by_contra hcon
    simp only [not_or, Bool.not_eq_true, Bool.not_eq_false'] at hcon
    exact hh ⟨hcon.1, hcon.2.1, by simpa using hcon.2.2⟩
  simp only [takeCause, ht, hgr, hk]
  exact if_pos hno

/-- A team that a cause ends has the first cause raised, and its groups as they were. -/
theorem endTeamWith_team {s : State} {u : Nat} {tm : Team} (ht : s.team? u = some tm) (code : Code) :
    ∃ t', (endTeamWith s u code).team? u = some t' ∧ t'.ending = some (tm.ending.getD code) ∧ ∀ k, t'.group? k = tm.group? k := by
  rw [endTeamWith, State.team?_updTeam, ht]
  case hf => intro t; cases h : t.ending <;> rfl
  simp only [Option.map_some, if_true]
  cases h : tm.ending with
  | none => exact ⟨_, rfl, rfl, fun _ => rfl⟩
  | some x => exact ⟨_, rfl, h, fun _ => rfl⟩

/-- The meaning of TRAP and BRK: with a live pair the cause, without one nothing (R153, R162). -/
def softTrap (x : Trap) (c : Issue) (t : State) : Res := if c.live.isEmpty then .ok t else .trap x

theorem exec_trap (n : BitVec 12) (s : State) :
    Machine.exec (.trap n) s = groupInstr (.trap n) s (softTrap { code := cSoftTrap, info := n.setWidth 32 }) := rfl
theorem exec_brk (s : State) : Machine.exec .brk s = groupInstr .brk s (softTrap { code := cBreakpoint }) := rfl

section
variable {j : Instr} {x : Trap} {s : State} {c : Issue} (he : Machine.exec j s = groupInstr j s (softTrap x)) (h : Issues j s c)
include he h

theorem softTrap_raises (hl : c.live ≠ []) : Machine.exec j s = .next (c.trapWith x s) := by
  rw [he, groupInstr_issues h]
  simp [softTrap, hl, Issue.settle]

theorem softTrap_enters (hx : x.code = cSoftTrap ∨ x.code = cBreakpoint) (hh : handles c) (hl : c.live ≠ []) (hn : noneHeld c) :
    EntersHandler j s c x true := by
  have hafter : (x.code == cSoftTrap || x.code == cBreakpoint) = true := by simpa using hx
  exact hafter ▸ trapWith_enters h.2.1 hh hn x (softTrap_raises he h hl)

theorem softTrap_ends (hh : ¬ handles c) (hl : c.live ≠ []) (hn : noneHeld c) :
    ∃ t tm, Machine.exec j s = .next t ∧ t.team? c.uid = some tm ∧ tm.ending = some (c.team.ending.getD x.code) ∧
      ∀ k, tm.group? k = c.team.group? k := by
  have hno : ¬ (c.mac.isSome = true ∧ c.group.held ≠ [] ∧ (!c.group.privileged) = true) := by
    rcases hn with hn | hn | hn <;> simp [hn]
  have hend : c.trapWith x s = endTeamWith s c.uid x.code := by
    simp only [Issue.trapWith, if_neg hno]
    exact takeCause_unhandled h.2.1 hh _ _
  obtain ⟨-, -, -, -, ht, -⟩ := issueOf_group h.2.1
  obtain ⟨tm, hteam, hcode, hgroups⟩ := endTeamWith_team ht x.code
  exact ⟨_, tm, softTrap_raises he h hl, hend ▸ hteam, hcode, hgroups⟩

theorem softTrap_noLive (hl : c.live = []) : Completes j s s c noEffect := by
  refine completes_of (h := fun g => g) (g := c.group) ?_ (issues_group h) rfl (issues_slices h) (fun _ => rfl) (fun _ => rfl)
  rw [he, groupInstr_issues h]
  simp [softTrap, hl, Issue.settle, State.updGroup, State.updTeam, Team.updGroup]

end

end Sys2Proof.Machine

namespace Sys2Proof

open Machine

/-- Settles O12: a precise cause is raised, and taking it enters the handler or ends the team. -/
theorem softwareTrapsEnterTheHandler : Obligations.SoftwareTrapsEnterTheHandler :=
  ⟨fun n s _ hh hl hn =>
    ⟨fun h => softTrap_enters (exec_trap n s) h (.inl rfl) hh hl hn, fun h => softTrap_enters (exec_brk s) h (.inr rfl) hh hl hn⟩,
   fun n s _ hh hl hn =>
    ⟨fun h => softTrap_ends (exec_trap n s) h hh hl hn, fun h => softTrap_ends (exec_brk s) h hh hl hn⟩,
   fun n s _ hl =>
    ⟨fun h => softTrap_noLive (exec_trap n s) h hl, fun h => softTrap_noLive (exec_brk s) h hl⟩⟩

end Sys2Proof

namespace Sys2Proof.Machine

/-! ## What a slice sees after a drain boundary (R115) -/

theorem seenFrom_of_visible {ws : List PendWrite} {sl st : Nat} (h : ∀ w ∈ ws, w.visible sl st = true) (r : Loc) (v : Word) :
    seenFrom ws sl st r v = fullFrom ws r v := by
  induction ws generalizing v with
  | nil => rfl
  | cons w rest ih =>
    rw [seenFrom, fullFrom, ih fun x hx => h x (List.mem_cons_of_mem _ hx)]
    simp [h w List.mem_cons_self]

theorem mem_commitFrom {g : Group} {ws kept : List PendWrite} {regs : List (Loc × Word)} {w : PendWrite}
    (h : w ∈ (commitFrom g ws kept regs).1) : w ∈ kept ∨ w ∈ ws := by
  induction ws generalizing kept regs with
  | nil => exact .inl (List.mem_reverse.1 h)
  | cons x rest ih =>
    rw [commitFrom] at h
    split at h
    · exact (ih h).imp_right (List.mem_cons_of_mem _)
    · rcases ih h with hk | hr
      · exact (List.mem_cons.1 hk).elim (fun e => .inr (e ▸ List.mem_cons_self)) .inl
      · exact .inr (List.mem_cons_of_mem _ hr)

/-- A slice that a drain boundary covers sees every earlier write. -/
theorem Group.seen_drain (g : Group) {m : BitVec 8} {sl : Nat} (hm : m.getLsbD sl = true) (st : Nat) (r : Loc) :
    (g.drain m).seen sl st r = g.full r := by
  rw [← Group.full_drain g m r, Group.seen, Group.full]
  refine seenFrom_of_visible (fun w hw => ?_) r _
  obtain h | h := mem_commitFrom hw
  · cases h
  · obtain ⟨x, -, rfl⟩ := List.mem_map.1 h
    cases hs : x.slices.getLsbD sl <;> simp [PendWrite.visible, hs, hm]

/-- A predicate of a pair with every earlier write complete; p0 reads true (R104). -/
def Group.predFull (g : Group) (n : Nat) (p : Nat × Nat) : Bool := n == 0 || g.full (.p n p.1 p.2) == 1

theorem Group.predAt_drain (g : Group) {m : BitVec 8} {p : Nat × Nat} (hm : m.getLsbD (p.2 / 4) = true) (st n : Nat) :
    (g.drain m).predAt st n p = g.predFull n p := by
  rw [Group.predAt, Group.predFull, Group.seen_drain g hm]

@[simp] theorem Group.slice_drain (g : Group) (m : BitVec 8) (sl : Nat) : (g.drain m).slice sl = g.slice sl := rfl

/-! ## The team of an issue, with one of its groups changed -/

/-- Team `t` is `t0` with its group `k` become `g`: nothing else of the team has changed. -/
structure TeamBecomes (t0 : Team) (k : Nat) (t : Team) (g : Group) : Prop where
  rest : t = { t0 with groups := t.groups }
  others : ∀ n, n ≠ k → t.group? n = t0.group? n
  group : t.group? k = some g

namespace TeamBecomes

variable {t0 t : Team} {k : Nat} {g : Group}

theorem refl (h : t0.group? k = some g) : TeamBecomes t0 k t0 g := ⟨rfl, fun _ _ => rfl, h⟩

theorem gid (h : TeamBecomes t0 k t g) : g.gid = k := by simpa using List.find?_some h.group
theorem uid (h : TeamBecomes t0 k t g) : t.uid = t0.uid := (congrArg Team.uid h.rest :)
theorem hawk (h : TeamBecomes t0 k t g) : t.hawk = t0.hawk := (congrArg Team.hawk h.rest :)

theorem updGroup (h : TeamBecomes t0 k t g) {f : Group → Group} (hf : ∀ x, (f x).gid = x.gid) :
    TeamBecomes t0 k (t.updGroup k f) (f g) where
  rest := by
    have := h.rest
    rw [Team.updGroup]
    generalize t.groups.map _ = gs
    rw [this]
  others n hn := by
    rw [Team.group?_updGroup _ _ _ _ hf, h.others n hn]
    cases t0.group? n <;> simp [hn]
  group := by rw [Team.group?_updGroup _ _ _ _ hf, h.group]; simp

end TeamBecomes

theorem State.team?_updTeam_const {s : State} {u : Nat} {t0 t : Team} (h0 : s.team? u = some t0) (ht : t.uid = u) (n : Nat) :
    (s.updTeam u fun _ => t).team? n = if n = u then some t else s.team? n := by
  have hsame : (s.updTeam u fun _ => t) = s.updTeam u fun x => if x.uid = u then t else x := by
    simp only [State.updTeam]
    congr 1
    apply List.map_congr_left
    intro x _
    split <;> rfl
  rw [hsame, State.team?_updTeam _ _ _ _ fun x => by split <;> simp [*]]
  by_cases hn : n = u
  · subst hn
    have hu : t0.uid = n := by simpa using List.find?_some h0
    simp [h0, hu]
  · simp [hn]

theorem State.updTeam_const_updTeam (s : State) (u : Nat) (t : Team) (ht : t.uid = u) (f : Team → Team) :
    (s.updTeam u fun _ => t).updTeam u f = s.updTeam u fun _ => f t := by
  simp only [State.updTeam, List.map_map]
  congr 1
  apply List.map_congr_left
  intro x _
  by_cases h : x.uid = u <;> simp [h, ht]

/-- A team replaced by itself with the issuing group changed: nothing but that group has changed. -/
theorem groupBecomes_updTeam {s : State} {c : Issue} {hint : Bool} (h : issueOf s c.uid c.gid c.gang hint = some c) {t : Team}
    {g : Group} (ht : TeamBecomes c.team c.gid t g) : GroupBecomes s (s.updTeam c.uid fun _ => t) c g := by
  obtain ⟨-, -, -, -, h0, -⟩ := issueOf_group h
  have huid : t.uid = c.uid := ht.uid.trans (by simpa using List.find?_some h0)
  have hteam := State.team?_updTeam_const h0 huid
  refine ⟨rfl, fun u hu => by rw [hteam, if_neg hu], ⟨t, by rw [hteam, if_pos rfl], ht.rest, ht.others, ht.group⟩,
    fun _ => rfl, fun _ _ => rfl, fun u o => ?_⟩
  simp only [localAt, hteam]
  by_cases hu : u = c.uid
  · rw [if_pos hu, hu, h0]
    exact (congrArg (Team.localByte · o) ht.rest :)
  · rw [if_neg hu]

/-! ## Pairs of slices -/

theorem mem_pairsWhere {e : Nat} {sls : List Nat} {f : Nat → BitVec 64} {p : Nat × Nat} :
    p ∈ pairsWhere e sls f ↔ p.1 < e ∧ p.2 < 32 ∧ p.2 / 4 ∈ sls ∧ (f (p.2 / 4)).getLsbD (pairBit p) = true := by
  obtain ⟨a, b⟩ := p
  simp only [pairsWhere, List.mem_flatMap, List.mem_range, List.mem_filterMap, Option.ite_none_right_eq_some, Option.some.injEq,
    Prod.mk.injEq, List.contains_iff_mem]
  constructor
  · rintro ⟨_, ha, _, hb, ⟨hsl, hbit⟩, rfl, rfl⟩
    exact ⟨ha, hb, hsl, hbit⟩
  · rintro ⟨ha, hb, hsl, hbit⟩
    exact ⟨a, ha, b, hb, ⟨hsl, hbit⟩, rfl, rfl⟩

theorem pairsWhere_congr {e : Nat} {sls : List Nat} {f g : Nat → BitVec 64} (h : ∀ sl ∈ sls, f sl = g sl) :
    pairsWhere e sls f = pairsWhere e sls g := by
  simp only [pairsWhere]
  congr 1
  funext k
  apply List.filterMap_congr
  intro l _
  by_cases hl : l / 4 ∈ sls
  · rw [h _ hl]
  · simp [hl]

/-- Two pairs of one slice with the same bit are one. -/
theorem pairBit_inj {p q : Nat × Nat} (hsl : p.2 / 4 = q.2 / 4) (hbit : pairBit p = pairBit q) : p = q := by
  simp only [pairBit] at hbit
  exact Prod.ext (by omega) (by omega)

/-! ## Slices of a group -/

theorem Group.slice_updSlice (g : Group) {sl : Nat} (hsl : sl < g.slices.length) (f : Slice → Slice) (k : Nat) :
    (g.updSlice sl f).slice k = if k = sl then f (g.slice k) else g.slice k :=
  nth_mapIdx _ _ _ _ fun hk => if_neg (by omega)

theorem Group.exists_slice {g : Group} {x : Slice} (h : x ∈ g.slices) : ∃ sl < g.slices.length, g.slice sl = x := by
  obtain ⟨sl, hsl, rfl⟩ := List.mem_iff_getElem.1 h
  exact ⟨sl, hsl, by simp [Group.slice, nth, hsl]⟩

theorem participants_congr {gr : Grid} {t t' : Team} {g g' : Group} {sl : Nat} (hhawk : t.hawk = t'.hawk) (hgid : g.gid = g'.gid)
    (hspill : g.spill = g'.spill) (he : g.e = g'.e) (hstack : (g.slice sl).stack = (g'.slice sl).stack)
    (hspilled : (g.slice sl).spilled = (g'.slice sl).spilled) (hexited : (g.slice sl).exited = (g'.slice sl).exited) :
    participants gr t g sl = participants gr t' g' sl := by
  simp only [participants, stackAll, spillOff, hhawk, hgid, hspill, he, hstack, hspilled, hexited]

/-! ## The pairs that GUARD windows turn off (R111) -/

/-- Whether a pair is on under a GUARD window whose predicate every earlier write has reached. -/
def Group.windowOn (g : Group) (w : Option GuardWin) (p : Nat × Nat) : Bool :=
  match w with
  | none => true
  | some w => g.predFull w.pred.toNat p != w.neg

theorem maskOf_slice {sl : Nat} (h : sl < 8) {sls : List Nat} (hmem : sl ∈ sls) : (maskOf 8 sls).getLsbD sl = true := by
  simp [getLsbD_maskOf, h, hmem]

theorem Group.parkOff_eq {g : Group} (hmac : g.mac = []) {sl : Nat} (hsl : sl < 8) (x : Slice) :
    g.parkOff sl x = maskOf 64
      (((pairsWhere g.e [sl] fun _ => x.active &&& ~~~x.parked).filter fun p => !g.windowOn (g.slice sl).guardWin p).map pairBit) := by
  have hno : ∀ k, g.inMacro k = none := fun k => by simp [Group.inMacro, hmac]
  have hno' : ∀ m k, (g.drain m).inMacro k = none := fun _ k => hno k
  simp only [Group.parkOff]
  congr 2
  apply List.filter_congr
  intro p hp
  obtain ⟨-, -, hp, -⟩ := mem_pairsWhere.1 hp
  have hp : p.2 / 4 = sl := by simpa using hp
  have hbit : (maskOf 8 [sl]).getLsbD (p.2 / 4) = true := maskOf_slice (by omega) (by simp [hp])
  simp only [hno, Bool.and_true, Group.guardOn, hno', Group.slice_drain, hp, Group.windowOn]
  cases (g.slice sl).guardWin with
  | none => rfl
  | some w => simp only [Group.predAt_drain g hbit]

/-! ## Gathering a whole group (R136, R137) -/

/-- A slice of the gang of `c` with the pairs it holds parked at its word. -/
def parkingSlice (c : Issue) (j : Instr) (sl : Nat) : Slice :=
  let x := c.group.slice sl
  { x with
    park := some { addr := x.pc, instr := j, mask := x.active, off := c.group.parkOff sl x, guardWin := x.guardWin, imm := x.imm,
                   src3 := x.src3, rnd := x.rnd, pfx := x.pfx }
    stall := []
    active := 0 }

/-- A slice that stops gathering. -/
def Slice.stop (x : Slice) : Slice := { x with active := x.parked, wait := .parked }

/-- A slice with no deferred pairs on top that holds all its participants parked stops gathering (R137). -/
theorem gatherOn_stops {gr : Grid} {gid sl : Nat} {t : Team} {g : Group} (hg : t.group? gid = some g)
    (htop : (g.slice sl).topDeferred = false) (hall : (g.slice sl).parked = wanted gr t g none sl) (n : Nat) :
    gatherOn gr gid sl none (n + 1) t = .stopped (t.updGroup gid fun g => g.updSlice sl Slice.stop) := by
  simp only [gatherOn, hg, htop, hall, Option.isSome_none, Bool.false_eq_true, false_and, if_false, if_true]
  rfl

/-- The group of `c` with the slices of a list stopped. -/
structure Parking (c : Issue) (j : Instr) (done : List Nat) (g : Group) : Prop where
  rest : g = { c.group with slices := g.slices }
  length : g.slices.length = 8
  slice : ∀ sl, g.slice sl = if sl ∈ done then (parkingSlice c j sl).stop else c.group.slice sl

namespace Parking

variable {c : Issue} {j : Instr} {done : List Nat} {g : Group}

theorem gid (h : Parking c j done g) : g.gid = c.group.gid := (congrArg Group.gid h.rest :)
theorem e (h : Parking c j done g) : g.e = c.group.e := (congrArg Group.e h.rest :)
theorem spill (h : Parking c j done g) : g.spill = c.group.spill := (congrArg Group.spill h.rest :)
theorem mac (h : Parking c j done g) : g.mac = c.group.mac := (congrArg Group.mac h.rest :)
theorem resv (h : Parking c j done g) : g.resv = c.group.resv := (congrArg Group.resv h.rest :)
theorem restOf (h : Parking c j done g) : restOf g = restOf c.group := (congrArg Sys2Proof.restOf h.rest :)
theorem full (h : Parking c j done g) (r : Loc) : g.full r = c.group.full r := (congrArg (Group.full · r) h.rest :)
theorem windowOn (h : Parking c j done g) (w : Option GuardWin) (p : Nat × Nat) : g.windowOn w p = c.group.windowOn w p :=
  (congrArg (Group.windowOn · w p) h.rest :)

/-- A slice that has not parked yet turns off the pairs it turned off at first. -/
theorem parkOff (h : Parking c j done g) (hmac : c.group.mac = []) {sl : Nat} (hsl : sl < 8) (hnew : sl ∉ done) :
    g.parkOff sl (g.slice sl) = c.group.parkOff sl (c.group.slice sl) := by
  rw [Group.parkOff_eq (h.mac.trans hmac) hsl, Group.parkOff_eq hmac hsl, h.slice, if_neg hnew, h.e]
  simp only [h.windowOn]

/-- One more slice, all of whose participants have come, stops. -/
theorem gatherSlice_stops (h : Parking c j done g) {t : Team} (ht : TeamBecomes c.team c.gid t g) (hmac : c.group.mac = []) {sl : Nat}
    (hsl : sl < 8) (hnew : sl ∉ done) (hhere : allHere c sl) :
    ∃ t' g', gatherSlice c.grid c.gid sl j none t = .stopped t' ∧ TeamBecomes c.team c.gid t' g' ∧ Parking c j (sl :: done) g' := by
  obtain ⟨hpark, htop, -, hall⟩ := hhere
  have hlen : sl < g.slices.length := h.length ▸ hsl
  have hx : g.slice sl = c.group.slice sl := by rw [h.slice, if_neg hnew]
  have hno : g.inMacro sl = none := by simp [Group.inMacro, h.mac, hmac]
  have hparked : Slice.parkAt g sl j (g.slice sl) = parkingSlice c j sl := by
    simp only [Slice.parkAt, hno, h.parkOff hmac hsl hnew]
    simp only [hx, hpark, parkingSlice, Option.map_none]
  have hslice : (g.updSlice sl (Slice.parkAt g sl j)).slice sl = parkingSlice c j sl := by
    rw [Group.slice_updSlice g hlen, if_pos rfl, hparked]
  have ht1 := ht.updGroup (f := fun g' => g'.updSlice sl (Slice.parkAt g sl j)) fun _ => rfl
  have hgo : gatherSlice c.grid c.gid sl j none t =
      gatherOn c.grid c.gid sl none ((g.slice sl).depth + 1) (t.updGroup c.gid fun g' => g'.updSlice sl (Slice.parkAt g sl j)) := by
    simp only [gatherSlice, ht.group]
  generalize t.updGroup c.gid (fun g' => g'.updSlice sl (Slice.parkAt g sl j)) = t1 at ht1 hgo
  have hwant : (parkingSlice c j sl).parked = wanted c.grid t1 (g.updSlice sl (Slice.parkAt g sl j)) none sl := by
    refine hall.trans (participants_congr ht1.hawk.symm h.gid.symm h.spill.symm h.e.symm ?_ ?_ ?_) <;> rw [hslice] <;> rfl
  refine ⟨_, _, ?_, ht1.updGroup (f := fun g' => g'.updSlice sl Slice.stop) fun _ => rfl, ?_, ?_, ?_⟩
  · rw [hgo]
    exact gatherOn_stops ht1.group (hslice ▸ htop) (hslice ▸ hwant) _
  · exact (congrArg (fun x : Group => { x with slices := (x.updSlice sl (Slice.parkAt g sl j) |>.updSlice sl Slice.stop).slices }) h.rest :)
  · simp [Group.updSlice, h.length]
  · intro k
    rw [Group.slice_updSlice _ (by simpa [Group.updSlice] using hlen)]
    by_cases hk : k = sl
    · rw [if_pos hk, if_pos (by simp [hk]), hk, hslice]
    · rw [if_neg hk, Group.slice_updSlice g hlen, if_neg hk, h.slice]
      simp [hk]

/-- All slices of a list, whose participants have come, stop. -/
theorem gatherSlices_stop (hmac : c.group.mac = []) (code : Code) (sls : List Nat) :
    ∀ (done : List Nat) (t : Team) (g : Group), Parking c j done g → TeamBecomes c.team c.gid t g → sls.Nodup →
      (∀ sl ∈ sls, sl < 8 ∧ sl ∉ done ∧ allHere c sl) →
      ∃ t' g', gatherSlices c.grid c.gid j none code sls t = .ok t' ∧ TeamBecomes c.team c.gid t' g' ∧
        Parking c j (sls.reverse ++ done) g' := by
  induction sls with
  | nil => exact fun done t g hg ht _ _ => ⟨t, g, rfl, ht, hg⟩
  | cons sl rest ih =>
    intro done t g hg ht hnd hall
    obtain ⟨hsl, hnew, hhere⟩ := hall sl List.mem_cons_self
    obtain ⟨hfresh, hnd⟩ := List.nodup_cons.1 hnd
    obtain ⟨t1, g1, hgo, ht1, hg1⟩ := hg.gatherSlice_stops ht hmac hsl hnew hhere
    obtain ⟨t2, g2, hrest, ht2, hg2⟩ := ih (sl :: done) t1 g1 hg1 ht1 hnd fun k hk => by
      obtain ⟨hk8, hkd, hkh⟩ := hall k (List.mem_cons_of_mem _ hk)
      refine ⟨hk8, fun hmem => ?_, hkh⟩
      exact (List.mem_cons.1 hmem).elim (fun e => hfresh (e ▸ hk)) hkd
    exact ⟨t2, g2, by simp only [gatherSlices, hgo, hrest], ht2, by simpa using hg2⟩

end Parking

theorem Group.leaveMacro_of_none {g : Group} (h : g.mac = []) (sls : List Nat) : g.leaveMacro sls = g := by
  cases g
  simp only at h
  subst h
  rfl

/-- A slice that has gathered at an address keeps no other from gathering there. -/
theorem Slice.elsewhere_of_waits {a : VAddr} {x : Slice} (h : x.wait = .finished ∨ waitsAt a x) :
    x.elsewhere a = false ∧ x.gatheredAt a = true ∧ (x.wait == .regang) = false := by
  rcases h with hw | ⟨hw, p, hp, ha, -⟩
  · simp [Slice.elsewhere, Slice.gatheredAt, hw]
  · simp [Slice.elsewhere, Slice.gatheredAt, hw, hp, ha]

section
variable {j : Instr} {s : State} {c : Issue} (h : WholeGroup j s c)
include h

theorem wholeGroup_issue : issueOf s c.uid c.gid c.gang false = some c := h.1.2.1
theorem wholeGroup_mac : c.group.mac = [] := h.2.1

/-- A slice of the gang has all its participants at the word. -/
theorem wholeGroup_here {sl : Nat} (hsl : sl ∈ c.slices) : sl < 8 ∧ allHere c sl ∧ (c.group.slice sl).finished = false := by
  obtain ⟨⟨-, hissue, -⟩, -, hlen, hall⟩ := h
  have hgang : sl ∈ c.group.gangSlices c.gang := (issueOf_slices hissue).1 ▸ hsl
  have hlt : sl < 8 := hlen ▸ Group.gangSlices_lt hgang
  refine ⟨hlt, by simpa [hsl] using hall sl hlt, ?_⟩
  simp only [Group.gangSlices, List.mem_filter, Bool.and_eq_true] at hgang
  rw [Slice.finished]
  obtain ⟨-, -, hwait⟩ := hgang
  revert hwait
  cases (c.group.slice sl).wait <;> simp

/-- A slice outside the gang has finished or waits at the word. -/
theorem wholeGroup_waits {sl : Nat} (hlt : sl < 8) (hsl : sl ∉ c.slices) :
    (c.group.slice sl).wait = .finished ∨ waitsAt c.pc (c.group.slice sl) := by
  simpa [hsl] using h.2.2.2 sl hlt

/-- With the gang stopped every slice has finished or waits at the word. -/
theorem parking_waits {g : Group} (hg : Parking c j c.slices g) {sl : Nat} (hlt : sl < 8) :
    (g.slice sl).wait = .finished ∨ waitsAt c.pc (g.slice sl) := by
  rw [hg.slice]
  by_cases hsl : sl ∈ c.slices
  · obtain ⟨-, ⟨-, -, hpc, -⟩, -⟩ := wholeGroup_here h hsl
    rw [if_pos hsl]
    exact .inr ⟨rfl, _, rfl, hpc, rfl⟩
  · rw [if_neg hsl]
    exact wholeGroup_waits h hlt hsl

/-- A group of which every slice has gathered acts. -/
theorem gathered_acts {g : Group} (hg : Parking c j c.slices g) (code : Code) (t : Team) (s1 : State) (whole : Issue → State → State) :
    c.gathered j code none t g s1 whole =
      whole (gatheredIssue t c.grid g c.pc)
        (s1.updGroup c.uid c.gid fun x => x.drain (maskOf 8 (gatheredIssue t c.grid g c.pc).slices)) := by
  have hwaits : ∀ sl < 8, (g.slice sl).elsewhere c.pc = false ∧ (g.slice sl).gatheredAt c.pc = true ∧
      ((g.slice sl).wait == .regang) = false := fun sl hlt => Slice.elsewhere_of_waits (parking_waits h hg hlt)
  have hregang : g.slices.find? (fun x => x.wait == .regang) = none := by
    rw [List.find?_eq_none]
    intro x hx
    obtain ⟨sl, hlt, rfl⟩ := Group.exists_slice hx
    simpa using (hwaits sl (hg.length ▸ hlt)).2.2
  have hfree : (List.range g.slices.length).any (gatherBlocked c.grid t g j none c.pc) = false := by
    rw [List.any_eq_false]
    intro sl hsl
    exact Bool.eq_false_iff.1 (hwaits sl (by simpa [hg.length] using hsl)).1
  have hthere : (List.range g.slices.length).all (gatheredFor c.grid t g none c.pc) = true := by
    rw [List.all_eq_true]
    intro sl hsl
    exact (hwaits sl (by simpa [hg.length] using hsl)).2.1
  simp only [Issue.gathered, hregang, hfree, hthere, Bool.false_eq_true, if_false, if_true]

/-- A whole group that reaches a gang-wide instruction gathers, and the instruction acts for it (R137). -/
theorem gather_acts (code : Code) (whole : Issue → State → State) :
    ∃ t g, TeamBecomes c.team c.gid t g ∧ Parking c j c.slices g ∧
      c.gather j code none s whole =
        whole (gatheredIssue t c.grid g c.pc) ((s.updTeam c.uid fun _ => t).updGroup c.uid c.gid fun x =>
          x.drain (maskOf 8 (gatheredIssue t c.grid g c.pc).slices)) := by
  obtain ⟨-, -, -, hg0, ht0, -⟩ := issueOf_group (wholeGroup_issue h)
  have hteam : c.team.group? c.gid = some c.group := by simpa [groupAt, ht0] using hg0
  have hnd : c.slices.Nodup := (issueOf_slices (wholeGroup_issue h)).1 ▸ List.Nodup.filter _ List.nodup_range
  obtain ⟨t0, g, hgo, ht, hg⟩ := Parking.gatherSlices_stop (wholeGroup_mac h) code c.slices [] c.team c.group
    ⟨rfl, h.2.2.1, fun _ => by simp⟩ (.refl hteam) hnd fun sl hsl => ⟨(wholeGroup_here h hsl).1, by simp, (wholeGroup_here h hsl).2.1⟩
  have hg : Parking c j c.slices g := ⟨hg.rest, hg.length, by simpa using hg.slice⟩
  have ht1 := ht.updGroup (f := fun x => x.leaveMacro c.slices) fun _ => rfl
  rw [Group.leaveMacro_of_none (hg.mac.trans (wholeGroup_mac h))] at ht1
  refine ⟨_, g, ht1, hg, ?_⟩
  rw [Issue.gather]
  split
  case h_1 sl hclash =>
    have hpark := (wholeGroup_here h (List.mem_of_find?_eq_some hclash)).2.1.1
    simpa [hpark] using List.find?_some hclash
  case h_2 =>
    simp only [hgo, ht1.group]
    exact gathered_acts h hg ..

end

/-! ## The issue of a whole group that has gathered -/

/-- Two issues act on the same pairs, and see the same for each of them. -/
structure SameView (k w : Issue) : Prop where
  live : k.live = w.live
  e : k.group.e = w.group.e
  literal : ∀ p ∈ w.live, ∀ code, k.group.literal? (p.2 / 4) code = w.group.literal? (p.2 / 4) code
  seen : ∀ p ∈ w.live, ∀ r, k.group.seen (p.2 / 4) k.step r = w.group.seen (p.2 / 4) w.step r

namespace SameView

variable {k w : Issue} (h : SameView k w) {p : Nat × Nat} (hp : p ∈ w.live)
include h hp

theorem src (code : BitVec 7) : k.src code p = w.src code p := by
  simp only [Issue.src, Issue.reg, h.literal p hp, h.seen p hp]

theorem pred (neg : BitVec 1) (n : BitVec 3) : k.pred neg n p = w.pred neg n p := by
  simp only [Issue.pred, Group.predAt, h.seen p hp]

end SameView

theorem Group.literal?_of_noMacro {g : Group} (h : g.mac = []) (sl : Nat) (code : BitVec 7) :
    g.literal? sl code = if code = 0x7F then some (literalOf (g.slice sl).imm) else none := by
  simp [Group.literal?, Group.immOf, Group.inMacro, h]

/-- The bit that a slice parks for a pair it runs: whether a GUARD window turns the pair off. -/
theorem Group.parkOff_bit {g : Group} (hmac : g.mac = []) {x : Slice} (hpark : x.park = none) {p : Nat × Nat}
    (he : p.1 < g.e) (hlane : p.2 < 32) (hbit : x.active.getLsbD (pairBit p) = true) :
    (g.parkOff (p.2 / 4) x).getLsbD (pairBit p) = !g.windowOn (g.slice (p.2 / 4)).guardWin p := by
  have hlt : pairBit p < 64 := BitVec.lt_of_getLsbD hbit
  rw [Group.parkOff_eq hmac (by omega), getLsbD_maskOf, decide_eq_true hlt, Bool.true_and, Bool.eq_iff_iff, List.contains_iff_mem,
    List.mem_map]
  constructor
  · rintro ⟨q, hq, hqp⟩
    obtain ⟨hq, hoff⟩ := List.mem_filter.1 hq
    obtain ⟨-, -, hsl, -⟩ := mem_pairsWhere.1 hq
    rwa [pairBit_inj (by simpa using hsl) hqp] at hoff
  · intro hoff
    refine ⟨p, List.mem_filter.2 ⟨mem_pairsWhere.2 ⟨he, hlane, by simp, ?_⟩, hoff⟩, rfl⟩
    rw [BitVec.getLsbD_and, BitVec.getLsbD_not]
    simp [Slice.parked, hpark, hlt, hbit]

theorem standing_slice (c : Issue) (sl : Nat) :
    (standing c).slice sl = if c.slices.contains sl then c.group.slice sl
      else match (c.group.slice sl).park with
        | some p => { c.group.slice sl with active := p.mask, imm := p.imm, src3 := p.src3, rnd := p.rnd }
        | none => c.group.slice sl := by
  rw [standing, Group.slice, nth_mapIdx]
  · rfl
  · intro _
    by_cases hsl : c.slices.contains sl = true
    · rw [if_pos hsl]
    · rw [if_neg hsl]

section
variable {j : Instr} {s : State} {c : Issue} (h : WholeGroup j s c) {g : Group} (hg : Parking c j c.slices g)
include h hg

/-- What a slice that has gathered holds parked: its pairs with the literals they had, and those its GUARD window turns off. -/
theorem parking_park {sl : Nat} (hlt : sl < 8) (hrun : (c.group.slice sl).finished = false) :
    ∃ p, (g.slice sl).park = some p ∧ p.addr = c.pc ∧ p.run = none ∧ p.mask = ((standing c).slice sl).active ∧
      p.imm = ((standing c).slice sl).imm ∧
      p.off = if sl ∈ c.slices then c.group.parkOff sl (c.group.slice sl) else ((c.group.slice sl).park.map Park.off).getD 0 := by
  rw [hg.slice, standing_slice]
  by_cases hsl : sl ∈ c.slices
  · obtain ⟨-, ⟨-, -, hpc, -⟩, -⟩ := wholeGroup_here h hsl
    simp only [List.contains_iff_mem, hsl, if_true]
    exact ⟨_, rfl, hpc, rfl, rfl, rfl, rfl⟩
  · obtain hw | ⟨-, p, hp, ha, hr⟩ := wholeGroup_waits h hlt hsl
    · simp [Slice.finished, hw] at hrun
    · simp only [List.contains_iff_mem, hsl, if_false]
      exact ⟨p, hp, ha, hr, by simp [hp], by simp [hp], by simp [hp]⟩

theorem parking_stoppedAt {sl : Nat} (hlt : sl < 8) : (g.slice sl).stoppedAt c.pc = !(c.group.slice sl).finished := by
  rw [hg.slice]
  by_cases hsl : sl ∈ c.slices
  · obtain ⟨-, ⟨-, -, hpc, -⟩, hrun⟩ := wholeGroup_here h hsl
    simp [hsl, hrun, Slice.stoppedAt, Slice.stop, parkingSlice, hpc]
  · rw [if_neg hsl]
    obtain hw | ⟨hw, p, hp, ha, -⟩ := wholeGroup_waits h hlt hsl
    · simp [Slice.stoppedAt, Slice.finished, hw]
    · simp [Slice.stoppedAt, Slice.finished, hw, hp, ha]

theorem gatheredIssue_slices (t : Team) : (gatheredIssue t c.grid g c.pc).slices = (wideOf c).slices := by
  simp only [gatheredIssue, wideOf, hg.length]
  exact List.filter_congr fun sl hsl => parking_stoppedAt h hg (by simpa using hsl)

theorem mem_gatheredSlices (t : Team) {sl : Nat} :
    sl ∈ (gatheredIssue t c.grid g c.pc).slices ↔ sl < 8 ∧ (c.group.slice sl).finished = false := by
  simp [gatheredIssue_slices h hg t, wideOf]

theorem gatheredIssue_mac (t : Team) : (gatheredIssue t c.grid g c.pc).group.mac = [] := by
  have hrun : (gatheredIssue t c.grid g c.pc).slices.filterMap (fun sl => (g.slice sl).park.bind fun p => p.run) = [] := by
    rw [List.filterMap_eq_nil_iff]
    intro sl hsl
    obtain ⟨hlt, hrun⟩ := (mem_gatheredSlices h hg t).1 hsl
    obtain ⟨p, hp, -, hr, -⟩ := parking_park h hg hlt hrun
    simp [hp, hr]
  have hjoin : g.joinedRun (gatheredIssue t c.grid g c.pc).slices = none := by
    simp only [Group.joinedRun, hrun]
  show (g.joinedRun (gatheredIssue t c.grid g c.pc).slices).toList ++ g.mac = []
  rw [hjoin, hg.mac, wholeGroup_mac h]
  rfl

/-- A slice that has gathered, as it acts. -/
theorem gatheredIssue_slice (t : Team) {sl : Nat} {p : Park} (hsl : sl ∈ (gatheredIssue t c.grid g c.pc).slices)
    (hp : (g.slice sl).park = some p) :
    ((gatheredIssue t c.grid g c.pc).group.slice sl).active = p.mask ∧ ((gatheredIssue t c.grid g c.pc).group.slice sl).imm = p.imm := by
  have hslice : (g.assembled (gatheredIssue t c.grid g c.pc).slices).slice sl =
      { g.slice sl with
        active := p.mask, imm := p.imm, src3 := p.src3, rnd := p.rnd, guardWin := p.guardWin, pc := p.addr, pfx := p.pfx,
        wait := .ready, park := none } := by
    rw [Group.assembled, Group.slice_updSlices _ _ _ fun k hk => hg.length ▸ ((mem_gatheredSlices h hg t).1 hk).1]
    simp only [List.contains_iff_mem, hsl, if_true, hp]
  show ((g.assembled (gatheredIssue t c.grid g c.pc).slices).slice sl).active = _ ∧
    ((g.assembled (gatheredIssue t c.grid g c.pc).slices).slice sl).imm = _
  rw [hslice]
  exact ⟨rfl, rfl⟩

/-- The pairs that the group acts on. -/
theorem gatheredIssue_live (t : Team) : (gatheredIssue t c.grid g c.pc).live = (wideOf c).live := by
  have hk : (gatheredIssue t c.grid g c.pc).live =
      (pairsWhere g.e (gatheredIssue t c.grid g c.pc).slices fun sl => ((gatheredIssue t c.grid g c.pc).group.slice sl).active).filter
        fun p => !(g.offMask (p.2 / 4)).getLsbD (pairBit p) := rfl
  have hpairs : pairsWhere g.e (gatheredIssue t c.grid g c.pc).slices
      (fun sl => ((gatheredIssue t c.grid g c.pc).group.slice sl).active) =
      pairsWhere c.group.e (wideOf c).slices fun sl => ((standing c).slice sl).active := by
    rw [gatheredIssue_slices h hg t, hg.e]
    refine pairsWhere_congr fun sl hsl => ?_
    rw [← gatheredIssue_slices h hg t] at hsl
    obtain ⟨hlt, hrun⟩ := (mem_gatheredSlices h hg t).1 hsl
    obtain ⟨p, hp, -, -, hmask, -⟩ := parking_park h hg hlt hrun
    exact (gatheredIssue_slice h hg t hsl hp).1.trans hmask
  rw [hk, hpairs]
  refine List.filter_congr fun q hq => ?_
  obtain ⟨he, hlane, hsl, hbit⟩ := mem_pairsWhere.1 hq
  rw [← gatheredIssue_slices h hg t] at hsl
  obtain ⟨hlt, hrun⟩ := (mem_gatheredSlices h hg t).1 hsl
  obtain ⟨p, hp, -, -, -, -, hoff⟩ := parking_park h hg hlt hrun
  rw [Group.offMask, hp, Option.map_some, Option.getD_some, hoff]
  by_cases hgang : q.2 / 4 ∈ c.slices
  · obtain ⟨-, ⟨hpark, -⟩, -⟩ := wholeGroup_here h hgang
    have hactive : (c.group.slice (q.2 / 4)).active.getLsbD (pairBit q) = true := by
      rw [standing_slice, if_pos (by simpa using hgang)] at hbit
      exact hbit
    simp only [List.contains_iff_mem, hgang, if_true]
    rw [Group.parkOff_bit (wholeGroup_mac h) hpark he hlane hactive, Bool.not_not]
    cases (c.group.slice (q.2 / 4)).guardWin with
    | none => rfl
    | some w => simp only [Group.windowOn, Group.predAt_drain c.group (maskOf_slice hlt (List.mem_singleton.2 rfl))]
  · simp only [List.contains_iff_mem, hgang, if_false]
    rfl

/-- The group acts on the pairs, and with the values, that the statement's issue gives it. -/
theorem gatheredIssue_sameView (t : Team) : SameView (gatheredIssue t c.grid g c.pc) (wideOf c) := by
  have hin : ∀ p ∈ (wideOf c).live, p.2 / 4 ∈ (wideOf c).slices := fun p hp => by
    obtain ⟨hp, -⟩ := List.mem_filter.1 hp
    exact (mem_pairsWhere.1 hp).2.2.1
  refine ⟨gatheredIssue_live h hg t, hg.e, fun p hp code => ?_, fun p hp r => ?_⟩
  · have hsl := gatheredIssue_slices h hg t ▸ hin p hp
    obtain ⟨hlt, hrun⟩ := (mem_gatheredSlices h hg t).1 hsl
    obtain ⟨x, hx, -, -, -, himm, -⟩ := parking_park h hg hlt hrun
    rw [Group.literal?_of_noMacro (gatheredIssue_mac h hg t), (gatheredIssue_slice h hg t hsl hx).2, himm]
    have hmac : c.group.mac = [] := wholeGroup_mac h
    exact (Group.literal?_of_noMacro (g := (wideOf c).group) hmac _ _).symm
  · have hsl := gatheredIssue_slices h hg t ▸ hin p hp
    obtain ⟨hlt, -⟩ := (mem_gatheredSlices h hg t).1 hsl
    have hall : (0xFF : BitVec 8).getLsbD (p.2 / 4) = true := by
      rw [show (0xFF : BitVec 8) = BitVec.allOnes 8 from rfl, BitVec.getLsbD_allOnes, decide_eq_true hlt]
    calc (gatheredIssue t c.grid g c.pc).group.seen (p.2 / 4) (gatheredIssue t c.grid g c.pc).step r
        = (g.assembled (gatheredIssue t c.grid g c.pc).slices).full r := Group.seen_drain _ (maskOf_slice hlt hsl) _ r
      _ = c.group.full r := hg.full r
      _ = (wideOf c).group.seen (p.2 / 4) (wideOf c).step r := (Group.seen_drain (standing c) hall _ r).symm

end

/-! ## The group after a gang-wide instruction (R138, R245) -/

/-- A group with some slices labelled as gangs. -/
def relabelled (label : Nat → Nat) (sls : List Nat) (g : Group) : Group :=
  { g with slices := g.slices.mapIdx fun k x => if sls.contains k then { x with gang := label k } else x }

/-- What forming gangs does to a group: slices relabelled, and their reservations ended where they part. -/
def regrouped (label : Nat → Nat) (parted : Bool) (sls : List Nat) (g : Group) : Group :=
  if parted then (relabelled label sls g).clearPairs sls else relabelled label sls g

theorem formGangs_eq {t : Team} {k : Nat} {g : Group} (hg : t.group? k = some g) (gr : Grid) (sls : List Nat) :
    ∃ label parted, formGangs gr k sls t = t.updGroup k (regrouped label parted sls) := by
  simp only [formGangs, hg]
  exact ⟨_, _, rfl⟩

section
variable (label : Nat → Nat) (parted : Bool) (sls : List Nat) (g : Group)

theorem regrouped_gid : (regrouped label parted sls g).gid = g.gid := by cases parted <;> rfl
theorem regrouped_rest (v : SMap Nat) : restOf { regrouped label parted sls g with resv := v } = restOf { g with resv := v } := by
  cases parted <;> rfl
theorem regrouped_full (r : Loc) : (regrouped label parted sls g).full r = g.full r := by cases parted <;> rfl
theorem mem_regrouped_resv {r : Nat × Nat} (h : r ∈ (regrouped label parted sls g).resv) : r ∈ g.resv := by
  cases parted with
  | false => exact h
  | true => exact List.mem_of_mem_filter h

theorem regrouped_slice {sls : List Nat} {g : Group} (hlt : ∀ sl ∈ sls, sl < g.slices.length) (sl : Nat) :
    (regrouped label parted sls g).slice sl = if sl ∈ sls then { g.slice sl with gang := label sl } else g.slice sl := by
  have hslice : (relabelled label sls g).slice sl = if sl ∈ sls then { g.slice sl with gang := label sl } else g.slice sl := by
    rw [relabelled, Group.slice, nth_mapIdx]
    · simp only [List.contains_iff_mem]
      rfl
    · intro hlen
      have hout : sl ∉ sls := fun hmem => by have := hlt sl hmem; omega
      simp [hout]
  cases parted <;> exact hslice

end

/-- A slice that stopped at the word, or waited there, goes on after it. -/
theorem resumed_stop {c : Issue} {j : Instr} {sl : Nat} (hpark : (c.group.slice sl).park = none) (st label : Nat) :
    resumed (c.group.slice sl) { Slice.resume st (parkingSlice c j sl).stop with gang := label } := by
  rw [resumed, hpark]
  exact ⟨rfl, rfl, rfl, rfl, rfl, rfl, rfl⟩

theorem resumed_waiting {x : Slice} {p : Park} (hp : x.park = some p) (st label : Nat) :
    resumed x { Slice.resume st x with gang := label } := by
  simp [resumed, Slice.resume, hp]

/-- The group that acts: its earlier writes complete, those of the instruction entered, and its slices gone on. -/
def actedGroup (k : Issue) (lat : Option Nat) (ws : List (Loc × Word)) (g : Group) : Group :=
  (((k.enter lat false ws (g.drain (maskOf 8 k.slices))).updSlices k.slices (Slice.resume k.step)).clearPairs k.slices).commit

theorem actedGroup_gid (k : Issue) (lat : Option Nat) (ws : List (Loc × Word)) (g : Group) : (actedGroup k lat ws g).gid = g.gid := by
  rw [actedGroup, Group.gid_commit]
  exact Group.gid_drain g (maskOf 8 k.slices)

theorem actedGroup_length (k : Issue) (lat : Option Nat) (ws : List (Loc × Word)) (g : Group) :
    (actedGroup k lat ws g).slices.length = g.slices.length := by
  rw [actedGroup, Group.slices_commit]
  exact List.length_mapIdx

theorem actedGroup_rest (k : Issue) (lat : Option Nat) (ws : List (Loc × Word)) (g : Group) (v : SMap Nat) :
    restOf { actedGroup k lat ws g with resv := v } = restOf { g with resv := v } := by
  rw [actedGroup, Group.commit_eq, Group.drain_eq]
  rfl

theorem actedGroup_resv (k : Issue) (lat : Option Nat) (ws : List (Loc × Word)) (g : Group) :
    (actedGroup k lat ws g).resv = g.resv.filter fun r => !(k.slices.contains (r.1 % 32 / 4)) := by
  rw [actedGroup, Group.resv_commit]
  exact congrArg (List.filter _) (Group.resv_drain g (maskOf 8 k.slices))

theorem actedGroup_full (k : Issue) (lat : Option Nat) (ws : List (Loc × Word)) (g : Group) (r : Loc) :
    (actedGroup k lat ws g).full r = writesEffect ws false r (g.full r) := by
  rw [actedGroup, Group.full_commit, ← Group.full_drain g (maskOf 8 k.slices) r]
  exact Issue.enter_full ..

theorem actedGroup_slice (k : Issue) (lat : Option Nat) (ws : List (Loc × Word)) (g : Group)
    (hlt : ∀ sl ∈ k.slices, sl < g.slices.length) (sl : Nat) :
    (actedGroup k lat ws g).slice sl = if sl ∈ k.slices then Slice.resume k.step (g.slice sl) else g.slice sl := by
  refine (Group.slice_updSlices (k.enter lat false ws (g.drain (maskOf 8 k.slices))) k.slices (Slice.resume k.step) hlt sl).trans ?_
  simp only [List.contains_iff_mem]
  rfl

section
variable {j : Instr} {s : State} {c : Issue} (h : WholeGroup j s c) {t : Team} {g : Group} (ht : TeamBecomes c.team c.gid t g)
  (hg : Parking c j c.slices g)
include h ht hg

/-- The state after a gang-wide instruction that enters writes. -/
theorem gatherDone_write (lat : Option Nat) (ws : List (Loc × Word)) :
    let k := gatheredIssue t c.grid g c.pc
    let s1 := (s.updTeam c.uid fun _ => t).updGroup c.uid c.gid fun x => x.drain (maskOf 8 k.slices)
    k.gatherDone s1 (.ok (k.write lat ws s1)) =
      s.updTeam c.uid fun _ => formGangs c.grid c.gid k.slices (t.updGroup c.gid (actedGroup k lat ws)) := by
  intro k s1
  obtain ⟨-, -, -, -, h0, -⟩ := issueOf_group (wholeGroup_issue h)
  have huid : t.uid = c.uid := ht.uid.trans (by simpa using List.find?_some h0)
  have hmac : k.mac = none := by
    have hnone : k.group.mac = [] := gatheredIssue_mac h hg t
    simp [Issue.mac, Group.inMacro, hnone]
  have hkuid : k.uid = c.uid := huid
  have hkgid : k.gid = c.gid := ht.gid
  simp only [Issue.gatherDone, Issue.release, hmac, Issue.write, hkuid, hkgid, s1, State.updGroup]
  rw [State.updTeam_const_updTeam, State.updTeam_const_updTeam, State.updTeam_const_updTeam, Team.updGroup_updGroup,
    Team.updGroup_updGroup]
  · rfl
  · exact fun _ => rfl
  · exact fun x => Group.gid_drain x (maskOf 8 k.slices)
  · exact huid
  · exact huid
  · exact huid

/-- A gang-wide instruction that enters writes for a whole group changes their cells, and every slice goes on. -/
theorem movesAll_write {lat : Option Nat} {ws : List (Loc × Word)} {new : Effect}
    (he : Machine.exec j s = .next (s.updTeam c.uid fun _ =>
      formGangs c.grid c.gid (gatheredIssue t c.grid g c.pc).slices
        (t.updGroup c.gid (actedGroup (gatheredIssue t c.grid g c.pc) lat ws))))
    (hn : ∀ r old, writesEffect ws false r old = new r old) : MovesAll j s c new fun _ x y => resumed x y := by
  have hmem := @mem_gatheredSlices j s c h g hg t
  generalize hk : gatheredIssue t c.grid g c.pc = k at he hmem
  have hacted := ht.updGroup (actedGroup_gid k lat ws)
  obtain ⟨label, parted, hform⟩ := formGangs_eq hacted.group c.grid k.slices
  have hfinal := hacted.updGroup (regrouped_gid label parted k.slices)
  rw [← hform] at hfinal
  have hlen : ∀ sl ∈ k.slices, sl < g.slices.length := fun sl hsl => hg.length ▸ (hmem.1 hsl).1
  have hlen' : ∀ sl ∈ k.slices, sl < (actedGroup k lat ws g).slices.length := fun sl hsl => by
    rw [actedGroup_length]
    exact hlen sl hsl
  refine ⟨_, _, he, groupBecomes_updTeam (wholeGroup_issue h) hfinal, ?_, fun r hr => ?_, fun r => ?_, fun sl hlt => ?_⟩
  · rw [regrouped_rest, actedGroup_rest]
    exact (congrArg (fun x : Group => restOf { x with resv := c.group.resv }) hg.rest :)
  · have hacted := mem_regrouped_resv _ _ _ _ hr
    rw [actedGroup_resv, hg.resv] at hacted
    exact List.mem_of_mem_filter hacted
  · rw [regrouped_full, actedGroup_full, hn, hg.full]
  · rw [regrouped_slice label parted hlen', actedGroup_slice k lat ws g hlen]
    cases hrun : (c.group.slice sl).finished with
    | true =>
      have hgang : sl ∉ c.slices := fun hsl => by simp [(wholeGroup_here h hsl).2.2] at hrun
      simp [hmem, hrun, hg.slice, hgang]
    | false =>
      have hsl : sl ∈ k.slices := hmem.2 ⟨hlt, hrun⟩
      simp only [hsl, if_true, Bool.false_eq_true, if_false, hg.slice]
      by_cases hgang : sl ∈ c.slices
      · rw [if_pos hgang]
        exact resumed_stop (wholeGroup_here h hgang).2.1.1 _ _
      · rw [if_neg hgang]
        obtain hw | ⟨-, p, hp, -⟩ := wholeGroup_waits h hlt hgang
        · simp [Slice.finished, hw] at hrun
        · exact resumed_waiting hp _ _

end

/-- A gang-wide instruction whose meaning enters writes computes their effect. -/
theorem computesWide_write {j : Instr} {new : Issue → Effect} {act : Issue → State → Res} {lat : Option Nat}
    {ws : Issue → List (Loc × Word)} (he : ∀ s, Machine.exec j s = gangWide j cGangUnreachable s act)
    (ha : ∀ k s, act k s = .ok (k.write lat (ws k) s))
    (hn : ∀ k w, SameView k w → ∀ r old, writesEffect (ws k) false r old = new w r old) : ComputesWide j new := by
  intro s c h
  obtain ⟨t, g, ht, hg, hgather⟩ := gather_acts h cGangUnreachable fun k s1 => k.gatherDone s1 (act k s1)
  simp only [ha, gatherDone_write h ht hg] at hgather
  refine movesAll_write (lat := lat) h ht hg ?_ (hn _ _ (gatheredIssue_sameView h hg t))
  obtain ⟨⟨hissuer, hissue, hcheck⟩, -⟩ := h
  rw [he]
  simp only [gangWide, gangWideWith, hissuer, hissue, hcheck, Option.or_none, ha, hgather]

/-! ## Lane and member operations as values of the live pairs (R174, R175, R177) -/

theorem writerOf_live {c : Issue} {d : BitVec 7} {n : Nat} {r : Loc} {x : (Nat × Nat) × Nat} (h : writerOf c d n r = some x) :
    x.1 ∈ c.live := by
  obtain ⟨p, hp, hx⟩ := List.mem_flatMap.1 (List.mem_of_find?_eq_some h)
  obtain ⟨k, -, rfl⟩ := List.mem_map.1 hx
  exact hp

section
variable {k w : Issue} (hl : k.live = w.live)
include hl

/-- An effect on a destination takes values of live pairs alone. -/
theorem dest32_congr {d : BitVec 7} {f g : Nat × Nat → Word} (h : ∀ p ∈ w.live, f p = g p) : dest32 k d f = dest32 w d g := by
  have hwriter : writerOf k d 1 = writerOf w d 1 := by
    funext r
    simp only [writerOf, hl]
  funext r old
  simp only [dest32, destEffect, hwriter]
  cases hw : writerOf w d 1 r with
  | none => rfl
  | some x => exact h _ (writerOf_live hw)

/-- An effect on a predicate takes values of live pairs alone. -/
theorem predEffect_congr {q : BitVec 3} {f g : Nat × Nat → Bool} (h : ∀ p ∈ w.live, f p = g p) :
    predEffect k q f = predEffect w q g := by
  funext r old
  cases r with
  | p n e l =>
    by_cases hp : (e, l) ∈ w.live
    · simp only [predEffect, hl, h _ hp]
    · simp [predEffect, hl, hp]
  | _ => rfl

end

theorem computesWide_dest32 {j : Instr} {d : BitVec 7} {f g : Issue → Nat × Nat → Word}
    (he : ∀ s, Machine.exec j s = gangWide j cGangUnreachable s fun c t => .ok (c.put (latency j) d (f c) t))
    (hv : ∀ k w, SameView k w → ∀ p ∈ w.live, f k p = g w p) : ComputesWide j fun c => dest32 c d (g c) := by
  refine computesWide_write he (fun _ _ => rfl) fun k w h r old => ?_
  rw [writesEffect_dest, ← dest32_congr h.live (hv k w h)]
  rfl

theorem computesWide_pred {j : Instr} {q : BitVec 3} {f g : Issue → Nat × Nat → Bool}
    (he : ∀ s, Machine.exec j s = gangWide j cGangUnreachable s fun c t => .ok (c.putPred (latency j) q (f c) t))
    (hv : ∀ k w, SameView k w → ∀ p ∈ w.live, f k p = g w p) : ComputesWide j fun c => predEffect c q (g c) := by
  refine computesWide_write he (fun _ _ => rfl) fun k w h r old => ?_
  rw [writesEffect_pred, predEffect_congr h.live (hv k w h)]

theorem mem_peersOf {c : Issue} {p q : Nat × Nat} (h : q ∈ peersOf c p) : q ∈ c.live := List.mem_of_mem_filter h
theorem mem_laneOf {c : Issue} {p q : Nat × Nat} (h : q ∈ laneOf c p) : q ∈ c.live := List.mem_of_mem_filter h

/-- The lanes of a member context whose pairs pass a test, as a mask. -/
theorem maskOf_peers (c : Issue) (p : Nat × Nat) (f : Nat × Nat → Bool) :
    maskOf 32 (((peersOf c p).filter f).map fun q => q.2) =
      BitVec.ofFnLE fun l : Fin 32 => c.live.contains (p.1, l.val) && f (p.1, l.val) := by
  apply BitVec.eq_of_getLsbD_eq
  intro i hi
  rw [getLsbD_maskOf, BitVec.getLsbD_ofFnLE, dif_pos hi, decide_eq_true hi, Bool.true_and, Bool.eq_iff_iff]
  simp [peersOf, and_assoc]

/-- Pairs that agree with one of them all pass a test or all fail it. -/
theorem all_agree {l : List (Nat × Nat)} {f : Nat × Nat → Bool} {p : Nat × Nat} (hp : p ∈ l) :
    (l.all fun q => f q == f p) = (l.all f || !l.any f) := by
  cases hf : f p with
  | true =>
    have hany : l.any f = true := List.any_eq_true.2 ⟨p, hp, hf⟩
    simp [hany]
  | false =>
    have hall : l.all f = false := List.all_eq_false.2 ⟨p, hp, by simp [hf]⟩
    have hnone : (l.all fun q => !f q) = !l.any f := by simp [List.all_eq_not_any_not]
    simp [hall, hnone]

/-- A sum of patterns is their sum as numbers, wrapped. -/
theorem foldl_add_eq_sum (l : List (Nat × Nat)) (f : Nat × Nat → Word) :
    l.foldl (fun v q => v + f q) 0 = BitVec.ofNat 32 (l.map fun q => (f q).toNat).sum := by
  have hfrom : ∀ v : Word, l.foldl (fun v q => v + f q) v = v + BitVec.ofNat 32 (l.map fun q => (f q).toNat).sum := by
    induction l with
    | nil => simp
    | cons q rest ih =>
      intro v
      rw [List.foldl_cons, ih, List.map_cons, List.sum_cons, BitVec.ofNat_add, BitVec.ofNat_toNat, BitVec.setWidth_eq, BitVec.add_assoc]
  simpa using hfrom 0

namespace SameView

variable {k w : Issue} (h : SameView k w)
include h

theorem peers (p : Nat × Nat) : k.peers p = peersOf w p := by rw [Issue.peers, peersOf, h.live]
theorem column (p : Nat × Nat) : k.column p.2 = laneOf w p := by rw [Issue.column, laneOf, h.live]

theorem all_pred {l : List (Nat × Nat)} (hl : ∀ q ∈ l, q ∈ w.live) (n : BitVec 1) (r : BitVec 3) :
    (l.all fun q => k.pred n r q) = l.all fun q => w.pred n r q := by
  rw [Bool.eq_iff_iff, List.all_eq_true, List.all_eq_true]
  exact forall₂_congr fun q hq => by rw [h.pred (hl q hq)]

theorem any_pred {l : List (Nat × Nat)} (hl : ∀ q ∈ l, q ∈ w.live) (n : BitVec 1) (r : BitVec 3) :
    (l.any fun q => k.pred n r q) = l.any fun q => w.pred n r q := by
  rw [Bool.eq_iff_iff, List.any_eq_true, List.any_eq_true]
  exact exists_congr fun q => and_congr_right fun hq => by rw [h.pred (hl q hq)]

theorem foldl_src (a : BitVec 7) (f : Word → Word → Word) (p : Nat × Nat) (v : Word) :
    (k.peers p).foldl (fun v q => f v (k.src a q)) v = (peersOf w p).foldl (fun v q => f v (w.src a q)) v := by
  rw [h.peers]
  exact List.foldl_ext _ _ _ fun v q hq => by rw [h.src (mem_peersOf hq)]

variable {p : Nat × Nat} (hp : p ∈ w.live)
include hp

theorem exchanged_eq (a : BitVec 7) (l : Option Nat) : exchanged k a p l = exchanged w a p l := by
  cases l with
  | none => exact h.src hp a
  | some l =>
    simp only [exchanged, h.live, h.src hp]
    split
    · rename_i hl
      exact h.src (by simpa using hl) a
    · rfl

theorem ltestSame_eq (n : BitVec 1) (r : BitVec 3) :
    ((k.peers p).all fun q => k.pred n r q == k.pred n r p) =
      ((peersOf w p).all (fun x => w.pred n r x) || !(peersOf w p).any fun x => w.pred n r x) := by
  have hself : p ∈ peersOf w p := List.mem_filter.2 ⟨hp, by simp⟩
  rw [h.peers, all_agree (f := fun q => k.pred n r q) hself, h.all_pred fun _ => mem_peersOf, h.any_pred fun _ => mem_peersOf]

omit hp in
theorem pgath_eq (n : BitVec 1) (r : BitVec 3) :
    maskOf 32 (((k.peers p).filter fun q => k.pred n r q).map fun q => q.2) =
      BitVec.ofFnLE fun l : Fin 32 => w.live.contains (p.1, l.val) && w.pred n r (p.1, l.val) := by
  rw [h.peers, ← maskOf_peers w p fun q => w.pred n r q]
  congr 2
  exact List.filter_congr fun q hq => h.pred (mem_peersOf hq) n r

theorem leqm_eq (a : BitVec 7) :
    maskOf 32 (((k.peers p).filter fun q => k.src a q == k.src a p).map fun q => q.2) =
      BitVec.ofFnLE fun l : Fin 32 => w.live.contains (p.1, l.val) && decide (w.src a (p.1, l.val) = w.src a p) := by
  rw [h.peers, ← maskOf_peers w p fun q => decide (w.src a q = w.src a p)]
  congr 2
  exact List.filter_congr fun q hq => by rw [h.src (mem_peersOf hq), h.src hp, Bool.beq_eq_decide_eq]

omit hp in
theorem lfoldAdd_eq (a : BitVec 7) :
    (k.peers p).foldl (fun v q => v + k.src a q) 0 = BitVec.ofNat 32 ((peersOf w p).map fun x => (w.src a x).toNat).sum := by
  rw [h.foldl_src a (· + ·), foldl_add_eq_sum]

/-- A fold of an operation on patterns that is one of their signed numbers. -/
theorem lfold_signed {f : Word → Word → Word} {g : Int → Int → Int} (hf : ∀ x y, (f x y).toInt = g x.toInt y.toInt) (a : BitVec 7) :
    (k.peers p).foldl (fun v q => f v (k.src a q)) (k.src a p) =
      BitVec.ofInt 32 ((peersOf w p).foldl (fun v x => g v (w.src a x).toInt) (w.src a p).toInt) := by
  rw [h.foldl_src, h.src hp]
  exact eq_ofInt (List.foldl_hom BitVec.toInt fun x q => (hf x (w.src a q)).symm).symm

/-- The same for their unsigned numbers. -/
theorem lfold_unsigned {f : Word → Word → Word} {g : Nat → Nat → Nat} (hf : ∀ x y, (f x y).toNat = g x.toNat y.toNat) (a : BitVec 7) :
    (k.peers p).foldl (fun v q => f v (k.src a q)) (k.src a p) =
      BitVec.ofNat 32 ((peersOf w p).foldl (fun v x => g v (w.src a x).toNat) (w.src a p).toNat) := by
  rw [h.foldl_src, h.src hp]
  exact eq_ofNat (List.foldl_hom BitVec.toNat fun x q => (hf x (w.src a q)).symm).symm

theorem mpick_eq (a b : BitVec 7) :
    (let q := ((k.src b p).toNat, p.2)
      if q.1 < k.group.e ∧ k.live.contains q then k.src a q else k.src a p) =
      let x := ((w.src b p).toNat, p.2)
      if x.1 < w.group.e ∧ w.live.contains x then w.src a x else w.src a p := by
  simp only [h.src hp, h.live, h.e]
  split
  · rename_i hx
    exact h.src (by simpa using hx.2) a
  · rfl

end SameView

theorem computesWide_exchange {j : Instr} {d a b : BitVec 7} {src : Nat → Word → Option Nat}
    (he : ∀ s, Machine.exec j s = gangWide j cGangUnreachable s fun c t => c.exchange j d a b src t) :
    ComputesWide j fun c => dest32 c d fun p => exchanged c a p (src p.2 (c.src b p)) :=
  computesWide_dest32 (f := fun c p => exchanged c a p (src p.2 (c.src b p))) (fun s => (he s).trans rfl) fun _ _ h _ hp => by
    rw [h.src hp, h.exchanged_eq hp]

end Sys2Proof.Machine

namespace Sys2Proof

open Machine

/-- Settles O24: a whole group gathers and acts at once, on the pairs and values that stand at the word. -/
theorem laneAndMemberResults : Obligations.LaneAndMemberResults :=
  ⟨fun _ _ _ =>
    ⟨computesWide_exchange (src := fun _ v => some (v.toNat % 32)) fun _ => rfl,
     computesWide_exchange (src := fun l v => if v.toNat ≤ l then some (l - v.toNat) else none) fun _ => rfl,
     computesWide_exchange (src := fun l v => if l + v.toNat ≤ 31 then some (l + v.toNat) else none) fun _ => rfl,
     computesWide_exchange (src := fun l v => some (l ^^^ (v.toNat % 32))) fun _ => rfl⟩,
   fun _ _ _ _ _ _ =>
    ⟨computesWide_pred (fun _ => rfl) fun _ _ h p _ => h.peers p ▸ h.all_pred (fun _ => mem_peersOf) _ _,
     computesWide_pred (fun _ => rfl) fun _ _ h p _ => h.peers p ▸ h.any_pred (fun _ => mem_peersOf) _ _,
     computesWide_pred (fun _ => rfl) fun _ _ h _ hp => h.ltestSame_eq hp _ _,
     computesWide_dest32 (fun _ => rfl) fun _ _ h _ _ => h.pgath_eq _ _,
     computesWide_dest32 (fun _ => rfl) fun _ _ h _ hp => h.leqm_eq hp _,
     computesWide_dest32 (fun _ => rfl) fun _ _ h _ _ => h.lfoldAdd_eq _,
     computesWide_dest32 (fun _ => rfl) fun _ _ h _ hp => h.lfold_signed hp toInt_minBy _,
     computesWide_dest32 (fun _ => rfl) fun _ _ h _ hp => h.lfold_unsigned hp toNat_minBy _,
     computesWide_dest32 (fun _ => rfl) fun _ _ h _ hp => h.lfold_signed hp toInt_maxBy _,
     computesWide_dest32 (fun _ => rfl) fun _ _ h _ hp => h.lfold_unsigned hp toNat_maxBy _,
     computesWide_pred (fun _ => rfl) fun _ _ h p _ => h.column p ▸ h.all_pred (fun _ => mem_laneOf) _ _,
     computesWide_pred (fun _ => rfl) fun _ _ h p _ => h.column p ▸ h.any_pred (fun _ => mem_laneOf) _ _,
     computesWide_dest32 (fun _ => rfl) fun _ _ h _ hp => h.mpick_eq hp _ _⟩⟩

end Sys2Proof
